-- ==== Sys2Proof/Word.lean ====
section
/-! DEFINITION. The word types of the Rytraorn TV48 tile (R6: little-endian, bit 0 least significant). -/

namespace Sys2Proof

/-- One byte. -/
abbrev Byte := BitVec 8
/-- A 32-bit register or accumulator. -/
abbrev Word := BitVec 32

end Sys2Proof
end

