-- ==== Sys2Proof/Config.lean ====
section
/-! DEFINITION. What the silicon of one tile fixes and what the manual leaves free. Every value here is
opaque: no proof can see it, so a claim holds whatever it is. -/

namespace Sys2Proof

/-- What the physical world answers during one start (R467): the model has no silicon, so each start is given these.
An empty or `none` entry means that the step passes. -/
structure StartEnv where
  /-- Step 2: the failing self-test check. -/
  selfTest : Option Nat := none
  /-- Step 3: the fuse block whose CRC fails. -/
  fuseBlock : Option Nat := none
  /-- Step 5: the PLL that does not lock (0 CLK_F, 1 CLK_A). -/
  pll : Option Nat := none
  /-- Step 6: Lining lines that fail the check. -/
  badLines : List Nat := []
  /-- Step 8: ports that do not train at x64: (port, none) trains at x32, (port, some m) fails at module m. -/
  train : List (Nat × Option Nat) := []
  /-- Step 9: counts (S, U) of each Tape probe. -/
  probes : List (Nat × Nat) := []
  /-- Step 10: Bobbins that fail the check pattern. -/
  badBobbins : BitVec 48 := 0
  deriving DecidableEq, Repr, Inhabited

namespace Config

/-- What the physical world answers to the n-th start that no command describes (log 11). -/
opaque startEnv : Nat → StartEnv

/-- The stream of free values of the model: the n-th value drawn (log 3). -/
opaque freeValue : Nat → BitVec 64

/-- What the manual leaves open in the records of a grain query: fixed by the descriptor, its position and the index entry, so that the same
three give the same bits (R36; log 100). -/
opaque openField : List Nat → Nat

/-- REQ header credits that the far end of a memory or host port advertises above the least, 256 (R343; log 117). -/
opaque moreReqHead : Nat → Nat
/-- REQ data credits that it advertises above the least, 1,024 (R343; log 117). -/
opaque moreReqData : Nat → Nat

/-- STEPPING, from fuses (R427). -/
opaque stepping : BitVec 16
/-- SERIAL, from fuses (R427). -/
opaque serial : BitVec 64
/-- FW_VERSION of the running image (R427). -/
opaque fwVersion : BitVec 32
/-- FW_SVN, the security version of the running image (R427). -/
opaque fwSvn : BitVec 16
/-- What the fuses hold of factory-retired Lining lines, by line number (R329). -/
opaque factoryFuses : List (Fin 12582912)
/-- The factory-retired lines, at most the 131,072 that leave 3,040 MiB (R299). -/
def factoryList : List (Fin 12582912) := factoryFuses.take 131072
/-- How many of them there are. -/
def factoryLines : Nat := factoryList.length
/-- The fused birth set point in steps of 5 mV above 650 mV (R453). -/
opaque vfStep : Fin 41
/-- VF in mV, 650 to 850 in steps of 5 (R453). -/
def vf : Nat := 650 + 5 * vfStep.val
/-- STEP_D less 1: the fused degradation per voltage step (R453, R457); a step of 0 would divide by zero. -/
opaque stepDm1 : BitVec 15
/-- STEP_D (R457). -/
def stepD : Nat := stepDm1.toNat + 1
/-- D_FREE (R457). -/
opaque dFree : BitVec 16
/-- R0 of probe p, from fuses (R451). -/
opaque probeR0 : Nat → BitVec 16
/-- Whether an UNLOCK record (104 bytes as a number) verifies against this challenge (R418). -/
opaque unlockVerifies : Nat → BitVec 64 → Bool
/-- What verifying a firmware image (its bytes and length) answers: 0x00, 0x82 or 0x83 (R426), and its version. -/
opaque imageVerdict : Nat → Nat → Nat × BitVec 32
/-- The security version of a firmware image (R426). -/
opaque imageSvn : Nat → Nat → BitVec 16
/-- A correctly rounded transcendental whose bounded evaluation did not separate the two candidate results:
the function number and the operand decide (log 9). -/
opaque hardRound : Nat → Nat → Nat
/-- What the sine or the cosine of an infinite or NaN argument gives, which the manual does not state: the argument and the feature decide
(R162; log 105). -/
opaque sinOpen : Nat → BitVec 16
/-- What an activation gives for a NaN, which the manual does not state (R164; log 31). -/
opaque netNan : Nat → BitVec 16
/-- A geometric predicate that the bounded subdivision did not decide: the query words decide (log 10). -/
opaque hardMeet : Nat → Nat → Bool

end Config

end Sys2Proof
end

