-- ==== Sys2Proof/Syntax.lean ====
section
/-! DEFINITION. The commands that the tile takes (spec/opcode_table.json) and the data they carry. -/

namespace Sys2Proof

/-- A Pyrlen ring frame between its Start and End characters (R405). -/
structure RingFrame where
  dst : BitVec 8
  src : BitVec 8
  ftype : BitVec 8
  tid : BitVec 8
  index : BitVec 16
  sub : BitVec 8
  stat : BitVec 8
  offset : BitVec 32
  len : BitVec 16
  fflags : BitVec 8
  res : BitVec 8
  data : List Byte
  crc : BitVec 16
  deriving DecidableEq, Repr

/-- A seam frame: the 32-byte header of R355, bit 0 the lowest bit of byte 0, and the payload as a little-endian number. -/
structure SeamFrame where
  hdr : BitVec 256
  payload : Nat
  deriving DecidableEq, Repr

/-- The 32 bytes of a Bodkin command (R269): four 64-bit words, lowest offset first. -/
structure BdkWords where
  w0 : BitVec 64
  arg0 : BitVec 64
  arg1 : BitVec 64
  arg2 : BitVec 64
  deriving DecidableEq, Repr

/-- A write that has no row of its own. -/
inductive ObjWrite where
  /-- A dictionary object written whole at operator level: index, subindex, bytes and value (R7, R413). -/
  | dict (index : BitVec 16) (sub : BitVec 8) (len : Nat) (v : Nat)
  /-- An HWR to a host port's register window: offset, 64 bytes of data and byte enables (R347). -/
  | window (hp : Nat) (offset : Nat) (data : BitVec 512) (bmask : BitVec 64)
  deriving DecidableEq, Repr

/-- Why a received ring frame is discarded (R408). -/
inductive RxFault where
  | crc | badChar | noEnd | tooLong | reservedType | res0
  deriving DecidableEq, Repr

/-- Why the ring interface resets without a command (R411). -/
inductive RingLoss where
  | lostLock | invalidOnly | firmware
  deriving DecidableEq, Repr

/-- A peer service of R421. -/
inductive Svc where
  | store | vreg
  deriving DecidableEq, Repr

/-- A quota object (R62). -/
inductive Quota where
  | park | ext | reserve
  deriving DecidableEq, Repr

/-- How one operation of a unit goes (R369, R370, R372): its self-check finds it right, wrong once or wrong twice; or it meets an uncorrectable
error: in the data of the store that it reads, in the tag of the node-cache way that it reads, or in its query's ray-store entry. -/
inductive Chk where
  | ok | once | twice | data | tag | entry
  deriving DecidableEq, Repr

/-- What a scrub read finds: `tag` is a parity error in the tag of the Lining-cache way that holds the line (R316, R328, R329). -/
inductive ScrubOutcome where
  | clean | corrected | uncorrectable | tag
  deriving DecidableEq, Repr

/-- The commands of the tile: one constructor for each row of the command table. -/
inductive Instr where
  /-- DOORBELL. HWR of `v` to DOORBELL[st] of context c through HP.hp (R40). -/
  | doorbell (hp c st : Nat) (v : Word)
  /-- RCONS. HWR of `v` to RCONS[st] (R251). -/
  | rcons (hp c st : Nat) (v : Word)
  /-- SCRED. HWR of `v` to SCRED[st] (R254). -/
  | scred (hp c st : Nat) (v : Word)
  /-- BCRED. HWR of `v` to BCRED (R272). -/
  | bcred (hp c : Nat) (v : Word)
  /-- DCRED. HWR of `v` to DCRED of endpoint e (R288). -/
  | dcred (hp e : Nat) (v : Word)
  /-- SPAWN. The Bodkin applies the command at the head of context c; with `some w`, w is first written to BDK_CMD through HP.hp (R270, R274). -/
  | spawn (hp c : Nat) (w : Option BdkWords)
  /-- EXPECT. The Bodkin applies the command at the head of context c; with `some w`, w is first written to BDK_CMD through HP.hp (R270, R276). -/
  | expect (hp c : Nat) (w : Option BdkWords)
  /-- ACK. The Bodkin applies the command at the head of context c; with `some w`, w is first written to BDK_CMD through HP.hp (R270, R284). -/
  | ack (hp c : Nat) (w : Option BdkWords)
  /-- BDK_CANCEL. The Bodkin applies the command at the head of context c; with `some w`, w is first written to BDK_CMD through HP.hp (R270, R282). -/
  | bdkCancel (hp c : Nat) (w : Option BdkWords)
  /-- POST. The Bodkin applies the command at the head of context c; with `some w`, w is first written to BDK_CMD through HP.hp (R270, R275). -/
  | post (hp c : Nat) (w : Option BdkWords)
  /-- DISCARD. The Bodkin applies the command at the head of context c; with `some w`, w is first written to BDK_CMD through HP.hp (R270, R277). -/
  | discard (hp c : Nat) (w : Option BdkWords)
  /-- BDK_RESERVED_CODE. The Bodkin applies the command at the head of context c; with `some w`, w is first written to BDK_CMD through HP.hp (R270, R271). -/
  | bdkReservedCode (hp c : Nat) (w : Option BdkWords)
  /-- MB_READ. MB_CMD with OP 1 (R348). -/
  | mbRead (hp : Nat) (index : BitVec 16) (sub : BitVec 8)
  /-- MB_WRITE. MB_CMD with OP 2 (R348). -/
  | mbWrite (hp : Nat) (index : BitVec 16) (sub : BitVec 8)
  /-- MB_RESERVED_OP. MB_CMD with OP 0, or 3 when op3 (R348). -/
  | mbReservedOp (hp : Nat) (index : BitVec 16) (sub : BitVec 8) (op3 : Bool)
  /-- OBJECT_WRITE. A write of a dictionary object or of a window register with no row of its own (R7, R347). -/
  | objectWrite (w : ObjWrite)
  /-- CPLD. A CPLD packet arrives on port p (R339). -/
  | cpld (p : Nat) (hdr : BitVec 256) (data : BitVec 512)
  /-- CPL. A CPL packet arrives on port p (R342). -/
  | cpl (p : Nat) (hdr : BitVec 256)
  /-- CPL_TIMEOUT. RSP_TIMEOUT passed for a tag of port p (R344). -/
  | cplTimeout (p : Nat) (wr : Bool) (tag : BitVec 12)
  /-- LANE_FAULT. Module m of port p reports a lane fault (R338). -/
  | laneFault (p m : Nat)
  /-- RETRAIN_DONE. The retrain of port p completes (R338). -/
  | retrainDone (p : Nat)
  /-- RETRAIN_TIMEOUT. 16 us passed since the retrain of port p began; module m had not completed (R338). -/
  | retrainTimeout (p m : Nat)
  /-- MIGRATE. A MIGRATE frame arrives on SP.sp (R356). -/
  | migrate (sp : Nat) (f : SeamFrame)
  /-- MIGVEC. A MIGVEC frame arrives on SP.sp (R356). -/
  | migvec (sp : Nat) (f : SeamFrame)
  /-- RESULT. A RESULT frame arrives on SP.sp (R356). -/
  | result (sp : Nat) (f : SeamFrame)
  /-- RECS. A RECS frame arrives on SP.sp (R356). -/
  | recs (sp : Nat) (f : SeamFrame)
  /-- MAINT. A MAINT frame arrives on SP.sp (R356). -/
  | maint (sp : Nat) (f : SeamFrame)
  /-- MAINT_ACK. A MAINT_ACK frame arrives on SP.sp (R356). -/
  | maintAck (sp : Nat) (f : SeamFrame)
  /-- CREDIT. A CREDIT frame arrives on SP.sp (R356). -/
  | credit (sp : Nat) (f : SeamFrame)
  /-- MIGRATE_SEND. The query of this slot, parked at a remote stub, is sent to its home (R358). -/
  | migrateSend (slot : Nat)
  /-- MIG_TIMEOUT. MIG_TIMEOUT expired for migration entry e (R363). -/
  | migTimeout (e : Nat)
  /-- MIG_BACKOFF. MIG_BACKOFF expired for migration entry e (R363). -/
  | migBackoff (e : Nat)
  /-- ENUM. This ring frame is received intact (R409). -/
  | ringEnum (f : RingFrame)
  /-- READ. This ring frame is received intact (R413). -/
  | ringRead (f : RingFrame)
  /-- WRITE. This ring frame is received intact (R413). -/
  | ringWrite (f : RingFrame)
  /-- MEMBERS. This ring frame is received intact (R409). -/
  | ringMembers (f : RingFrame)
  /-- RESP. This ring frame is received intact (R421). -/
  | ringResp (f : RingFrame)
  /-- FRAME_DISCARD. A malformed ring frame is received (R408). -/
  | frameDiscard (why : RxFault)
  /-- ANNOUNCE. 10 ms since the last ANNOUNCE, or the bypass has opened (R410). -/
  | announce
  /-- EVT_RESEND. The EVT_RESEND interval expires (R420). -/
  | evtResend
  /-- EVT_ACK. A write of EVT_ACK (R420). -/
  | evtAck (eseq : BitVec 16)
  /-- UNLOCK. A write of a 104-byte UNLOCK record (R418). -/
  | unlock (record : BitVec 832)
  /-- RING_RST. A write of RING_RST (R425). -/
  | ringRst (code : Byte)
  /-- RING_RESET. A cause of R411 resets the ring interface. -/
  | ringReset (why : RingLoss)
  /-- BYPASS_OPEN. Lock, 64 valid characters and an idle gap are present (R403). -/
  | bypassOpen
  /-- DOMAIN_WRITE_TIMEOUT. 10 ms without a segment of a DOMAIN write (R413). -/
  | domainWriteTimeout (index : BitVec 16) (sub : BitVec 8)
  /-- PEER_TIMEOUT. PEER_TIMEOUT expired for the outstanding request of a service (R421). -/
  | peerTimeout (svc : Svc)
  /-- RELAY. A ring frame not addressed to the tile, a broadcast or its own frame is received (R400). -/
  | relay (f : RingFrame)
  /-- SLEEP. POWER_CMD 0x01 (R444). -/
  | sleep
  /-- WAKE. POWER_CMD 0x02 (R444). -/
  | wake
  /-- HOLD. POWER_CMD 0x03 (R444). -/
  | hold
  /-- AUTO_SLEEP. IDLE_SLEEP us of idleness passed (R443). -/
  | autoSleep
  /-- QUIESCE_DONE. Nothing remains outstanding on any port in DRAIN (R442). -/
  | quiesceDone
  /-- SLEEP_ENTRY. 2 us after quiesce (R440). -/
  | sleepEntry
  /-- WAKE_DONE. The wake from SLEEP completes (R440). -/
  | wakeDone
  /-- NEEDLE_CLOCK_STOP. 64 CLK_A cycles without an occupied entry in Needle n of Bobbin b (R447). -/
  | needleClockStop (b n : Nat)
  /-- BOBBIN_CLOCK_STOP. CS_IDLE cycles of idleness of Bobbin b (R447). -/
  | bobbinClockStop (b : Nat)
  /-- IDLE_GATING. Bobbin b has been clock-stopped for PG_IDLE us (R448). -/
  | idleGating (b : Nat)
  /-- CONSOLIDATION. The 1 ms gating decision (R448). -/
  | consolidation
  /-- BOBBIN_GATE. A drained Bobbin is gated (R448). -/
  | bobbinGate (b : Nat)
  /-- BOBBIN_WAKE. The 6 us wake of a gated Bobbin completes (R448). -/
  | bobbinWake (b : Nat)
  /-- CLOCK_STOPPED_WAKE. The 40-cycle wake of a clock-stopped Bobbin completes (R448). -/
  | clockStoppedWake (b : Nat)
  /-- THERMAL_READING. The 1 ms junction reading (R450). -/
  | thermalReading (tj : Int)
  /-- PROBE_READING. The counts (S, U) of the 96 Tape probes (R451). -/
  | probeReading (su : List (Nat × Nat))
  /-- VSETTLE. VSETTLE passed since the RESP of a set-point request (R454). -/
  | vsettle
  /-- CLK_A_STEP. A 25 MHz slew completes (R446). -/
  | clkAStep
  /-- LOG_UPDATE. 4,096 s of operation passed (R459). -/
  | logUpdate
  /-- PART_AUTO. 2^24 CLK_W cycles of RUN passed (R460). -/
  | partAuto
  /-- INTERVAL. The 65,536th admission of an interval (R189). -/
  | interval
  /-- SCHEME_DECISION. The Tailor takes a latched hit ratio (R189). -/
  | schemeDecision
  /-- VDD_W_ON. VDD_W enters its range (R465). -/
  | vddWOn
  /-- VDD_W_OFF. VDD_W is removed (R440). -/
  | vddWOff
  /-- PWROK_RISE. PWROK rises (R465). -/
  | pwrokRise (env : StartEnv)
  /-- PWROK_FALL. PWROK falls (R465). -/
  | pwrokFall
  /-- RST_N_ASSERT. RST_N asserted for 16 CLK_W cycles (R465). -/
  | rstNAssert
  /-- RST_N_DEASSERT. RST_N deasserted (R465). -/
  | rstNDeassert (env : StartEnv)
  /-- COLD_START. START_CMD 0x01 (R467). -/
  | coldStart (env : StartEnv)
  /-- WARM_START. START_CMD 0x02 (R467). -/
  | warmStart (env : StartEnv)
  /-- RESET_CMD. A write of RESET_CMD (R466). -/
  | resetCmd (code : Byte)
  /-- ABORT_CONTEXT. ABORT_CMD 0x01 (R474). -/
  | abortContext
  /-- ABORT_ALL. ABORT_CMD 0x02 (R473). -/
  | abortAll
  /-- ABORT_COMPLETE. The abort in progress has ended its last phase, us after acceptance (R474). -/
  | abortComplete (us : Word)
  /-- RELEASE_DONE. The resources of an aborted context are released (R478). -/
  | releaseDone (c : Nat)
  /-- TAP_BYPASS. Test instruction BYPASS (R486). -/
  | tapBypass
  /-- TAP_IDCODE. Test instruction IDCODE (R486). -/
  | tapIdcode
  /-- TAP_SAMPLE_PRELOAD. Test instruction SAMPLE/PRELOAD, with the boundary scan register sampled or preloaded (R486). -/
  | tapSamplePreload (boundary : Nat)
  /-- TAP_EXTEST. Test instruction EXTEST (R486). -/
  | tapExtest
  /-- TAP_CLAMP. Test instruction CLAMP (R486). -/
  | tapClamp
  /-- TAP_HIGHZ. Test instruction HIGHZ (R486). -/
  | tapHighz
  /-- CAUSE_CLEAR. A W1C write of mask to the CAUSE of a leaf object (R432). -/
  | causeClear (leaf : BitVec 16) (mask : Word)
  /-- CANCEL. A write of CANCEL (R67). -/
  | cancel (c : Nat) (mask : Byte)
  /-- IDX_LOAD. IDX_CMD 0x01 of context c (R98). -/
  | idxLoad (c : Nat)
  /-- DROP. IDX_CMD 0x02 of context c (R98). -/
  | drop (c : Nat)
  /-- REFIT_BEGIN. IDX_CMD 0x03 of context c (R98). -/
  | refitBegin (c : Nat)
  /-- REFIT_HELD. INFLIGHT of a HOLDING handle reached 0 (R98). -/
  | refitHeld (h : Nat)
  /-- REFIT_END. IDX_CMD 0x04 of context c (R98). -/
  | refitEnd (c : Nat)
  /-- PIN_EXTEND. Pinned units are free and a handle is short (R305). -/
  | pinExtend
  /-- IMG_LOAD. IMG_LOAD 0x01 (R220). -/
  | imgLoad
  /-- IMG_WRITE. No handoff runs and an image load waits (R220). -/
  | imgWrite
  /-- APPLY. PART_CMD 0x01 (R301). -/
  | apply
  /-- PART_DONE. The regions of an accepted APPLY are cleared (R301). -/
  | partDone
  /-- SHIFT. PART_CMD 0x02 (R302). -/
  | shift
  /-- CLEAN. MT_CMD 0x01 while MT_OP names CLEAN (R317, R318, R321). -/
  | clean
  /-- INVALIDATE. MT_CMD 0x01 while MT_OP names INVALIDATE (R317, R318, R321). -/
  | invalidate
  /-- CLEAN_INVALIDATE. MT_CMD 0x01 while MT_OP names CLEAN_INVALIDATE (R317, R318, R321). -/
  | cleanInvalidate
  /-- LOCK. MT_CMD 0x01 while MT_OP names LOCK (R317, R318, R321). -/
  | lock
  /-- LOCK_INDEX. MT_CMD 0x01 while MT_OP names LOCK_INDEX (R317, R318, R321). -/
  | lockIndex
  /-- MT_UNLOCK. MT_CMD 0x01 while MT_OP names MT_UNLOCK (R317, R318, R321). -/
  | mtUnlock
  /-- MAINT_DONE. The maintenance operation has nothing left to do (R319). -/
  | maintDone
  /-- READMIT. A write of READMIT (R394). -/
  | readmit (code : Byte)
  /-- STAGE. FW_CMD 0x01 (R426). -/
  | stage
  /-- STREAM_ENABLE. A RING_CTRL write (R45). -/
  | streamEnable (c st : Nat) (v : Word)
  /-- CONTEXT_ENABLE. A CTX_CTRL write (R64). -/
  | contextEnable (c : Nat) (v : Word)
  /-- BDK_ENABLE. A BDK_CTRL write (R287). -/
  | bdkEnable (c : Nat) (v : Word)
  /-- ENDPOINT_ENABLE. An EP_CTRL write (R288). -/
  | endpointEnable (e : Nat) (v : Word)
  /-- QUOTA_WRITE. A quota write (R66). -/
  | quotaWrite (c : Nat) (which : Quota) (v : Word)
  /-- CACHE_ENABLE. A write of 0x2310:00 (R325). -/
  | cacheEnable (v : Word)
  /-- REDIR. 1 written to REDIR (R262). -/
  | redir (c st : Nat)
  /-- RFAULT. 1 written to RFAULT (R253). -/
  | rfault (c st : Nat)
  /-- FETCH. The Pleater issues the next fetch read (R181). -/
  | fetch
  /-- ADMISSION. The oldest fetched or generated query of a stream is admitted (R182). -/
  | admission (c st : Nat)
  /-- GEN_BEGIN. The generation descriptor at the head of a stream begins (R50). -/
  | genBegin (c st : Nat)
  /-- GENERATE. A generator builds its next query (R48, R49). -/
  | generate
  /-- CONT_BUILD. Continuations of the completed parent in this slot are built (R51). -/
  | contBuild (slot : Nat)
  /-- BIN_RIPE. The oldest entry of this bin has reached RIPE_CYC (R191). -/
  | binRipe (bin : Nat)
  /-- RELEASE. A ripe bin is released (R191-R193). -/
  | release
  /-- CL0_RELEASE. The head of the class-0 queue is served (R194, R196). -/
  | cl0Release
  /-- BOX_VISIT. Needle n of Bobbin b issues its next operation, which is of this kind (R106). -/
  | boxVisit (b n : Nat) (chk : Chk)
  /-- INSTANCE_VISIT. Needle n of Bobbin b issues its next operation, which is of this kind (R120). -/
  | instanceVisit (b n : Nat) (chk : Chk)
  /-- LEAF_HANDOFF. Needle n of Bobbin b issues its next operation, which is of this kind (R103). -/
  | leafHandoff (b n : Nat) (chk : Chk)
  /-- METRIC_VISIT. Needle n of Bobbin b issues its next operation, which is of this kind (R140). -/
  | metricVisit (b n : Nat) (chk : Chk)
  /-- INTERSECTOR_RESULT. The intersector of Bobbin b returns a block (R133). -/
  | intersectorResult (b : Nat) (chk : Chk)
  /-- LEAF_ARRAY_RESULT. The leaf array of Bobbin b returns a handoff (R154). -/
  | leafArrayResult (b : Nat) (chk : Chk)
  /-- WEIGHT_FILL. A weight-slot fill of Bobbin b completes (R173). -/
  | weightFill (b : Nat)
  /-- BANK_PENDING. A handoff of Bobbin b has waited 256 CLK_A cycles for a slot of the other role (R174). -/
  | bankPending (b : Nat)
  /-- ROLE_CHANGE. A pending bank holds no live slot (R174). -/
  | roleChange (b bank : Nat)
  /-- FINISHING_WALK. The finishing buffers of entry e are free (R118). -/
  | finishingWalk (b e : Nat)
  /-- QUERY_PARK. Entry e of Bobbin b is written back to parking (R197); e + 8,192: entry e, in which the write-back finds an uncorrectable
  error (R374). -/
  | queryPark (b e : Nat)
  /-- COMPLETION. The finished query of entry e reaches the Hem (R58). -/
  | completion (b e : Nat)
  /-- RING_ENTRY_WRITE. The Hem or the Pleater does this for stream st of context c (R251). -/
  | ringEntryWrite (c st : Nat)
  /-- SLOT_FILL_OPEN. The Hem or the Pleater does this for stream st of context c (R254). -/
  | slotFillOpen (c st : Nat)
  /-- FLUSH. The Hem or the Pleater does this for stream st of context c (R259). -/
  | flush (c st : Nat)
  /-- HEAD_WB. The Hem or the Pleater does this for stream st of context c (R43). -/
  | headWb (c st : Nat)
  /-- RES_WB. The Hem or the Pleater does this for stream st of context c (R252). -/
  | resWb (c st : Nat)
  /-- OPERAND. The oldest posted operand is applied (R277). -/
  | operand
  /-- DISPATCH. The Bodkin dispatches the first offered thread (R280). -/
  | dispatch
  /-- AFF_WAIT. The timer expires for thread t (R281). -/
  | affWait (t : Nat)
  /-- AGE_LIMIT. The timer expires for thread t (R280). -/
  | ageLimit (t : Nat)
  /-- ACK_LATE. The timer expires for thread t (R284). -/
  | ackLate (t : Nat)
  /-- SPILL. The Pleater spills one chunk of entries (R199). -/
  | spill
  /-- RELOAD. The Pleater reads spilled entries back (R200). -/
  | reload
  /-- REVERT. The releases of entry e have waited 4,096 CLK_A cycles (R391). -/
  | revert (b e : Nat)
  /-- REISSUE. The lost query of this slot is reissued (R379). -/
  | reissue (slot : Nat)
  /-- MEND_RETRY. MEND_DELAY expired for failed request n (R381). -/
  | mendRetry (n : Nat)
  /-- WITHDRAW_DONE. The withdrawal of Bobbin b ends (R374). -/
  | withdrawDone (b : Nat)
  /-- CUTOFF. 16 us since Bobbin b was marked (R375). -/
  | cutoff (b : Nat)
  /-- MISMATCH_INTERVAL. The 2^30-cycle interval ends (R371). -/
  | mismatchInterval
  /-- SCRUB. Lining controller k reads its next line (R328). -/
  | scrub (k : Nat) (o : ScrubOutcome)
  /-- BASTE_HANDOFF. A free engine of Bobbin b takes the next handoff (R208). -/
  | basteHandoff (b : Nat)
  /-- BUDGET. The budget of engine e is 0 (R240). -/
  | budget (b e : Nat)
  /-- ILLEGAL. Engine e executes a reserved opcode (R232). -/
  | illegal (b e : Nat)
  /-- NOP. Engine e of Bobbin b executes the NOP at its PC (R232). -/
  | bstNop (b e : Nat) (chk : Chk)
  /-- LOAD. Engine e of Bobbin b executes the LOAD at its PC (R232). -/
  | bstLoad (b e : Nat) (chk : Chk)
  /-- STORE. Engine e of Bobbin b executes the STORE at its PC (R232). -/
  | bstStore (b e : Nat) (chk : Chk)
  /-- LOADHI. Engine e of Bobbin b executes the LOADHI at its PC (R232). -/
  | bstLoadhi (b e : Nat) (chk : Chk)
  /-- LOADX. Engine e of Bobbin b executes the LOADX at its PC (R232). -/
  | bstLoadx (b e : Nat) (chk : Chk)
  /-- STOREX. Engine e of Bobbin b executes the STOREX at its PC (R232). -/
  | bstStorex (b e : Nat) (chk : Chk)
  /-- LOADY. Engine e of Bobbin b executes the LOADY at its PC (R232). -/
  | bstLoady (b e : Nat) (chk : Chk)
  /-- STOREY. Engine e of Bobbin b executes the STOREY at its PC (R232). -/
  | bstStorey (b e : Nat) (chk : Chk)
  /-- LOADCT. Engine e of Bobbin b executes the LOADCT at its PC (R232). -/
  | bstLoadct (b e : Nat) (chk : Chk)
  /-- STORECT. Engine e of Bobbin b executes the STORECT at its PC (R232). -/
  | bstStorect (b e : Nat) (chk : Chk)
  /-- MOVAX. Engine e of Bobbin b executes the MOVAX at its PC (R232). -/
  | bstMovax (b e : Nat) (chk : Chk)
  /-- MOVXA. Engine e of Bobbin b executes the MOVXA at its PC (R232). -/
  | bstMovxa (b e : Nat) (chk : Chk)
  /-- MOVAY. Engine e of Bobbin b executes the MOVAY at its PC (R232). -/
  | bstMovay (b e : Nat) (chk : Chk)
  /-- MOVYA. Engine e of Bobbin b executes the MOVYA at its PC (R232). -/
  | bstMovya (b e : Nat) (chk : Chk)
  /-- MOVACT. Engine e of Bobbin b executes the MOVACT at its PC (R232). -/
  | bstMovact (b e : Nat) (chk : Chk)
  /-- MOVCTA. Engine e of Bobbin b executes the MOVCTA at its PC (R232). -/
  | bstMovcta (b e : Nat) (chk : Chk)
  /-- ADDX. Engine e of Bobbin b executes the ADDX at its PC (R232). -/
  | bstAddx (b e : Nat) (chk : Chk)
  /-- ADDY. Engine e of Bobbin b executes the ADDY at its PC (R232). -/
  | bstAddy (b e : Nat) (chk : Chk)
  /-- ADDCT. Engine e of Bobbin b executes the ADDCT at its PC (R232). -/
  | bstAddct (b e : Nat) (chk : Chk)
  /-- ADD. Engine e of Bobbin b executes the ADD at its PC (R232). -/
  | bstAdd (b e : Nat) (chk : Chk)
  /-- ADDCY. Engine e of Bobbin b executes the ADDCY at its PC (R232). -/
  | bstAddcy (b e : Nat) (chk : Chk)
  /-- SUB. Engine e of Bobbin b executes the SUB at its PC (R232). -/
  | bstSub (b e : Nat) (chk : Chk)
  /-- SUBCY. Engine e of Bobbin b executes the SUBCY at its PC (R232). -/
  | bstSubcy (b e : Nat) (chk : Chk)
  /-- CMP. Engine e of Bobbin b executes the CMP at its PC (R232). -/
  | bstCmp (b e : Nat) (chk : Chk)
  /-- AND. Engine e of Bobbin b executes the AND at its PC (R232). -/
  | bstAnd (b e : Nat) (chk : Chk)
  /-- OR. Engine e of Bobbin b executes the OR at its PC (R232). -/
  | bstOr (b e : Nat) (chk : Chk)
  /-- XOR. Engine e of Bobbin b executes the XOR at its PC (R232). -/
  | bstXor (b e : Nat) (chk : Chk)
  /-- MUL. Engine e of Bobbin b executes the MUL at its PC (R232). -/
  | bstMul (b e : Nat) (chk : Chk)
  /-- MULH. Engine e of Bobbin b executes the MULH at its PC (R232). -/
  | bstMulh (b e : Nat) (chk : Chk)
  /-- MULHU. Engine e of Bobbin b executes the MULHU at its PC (R232). -/
  | bstMulhu (b e : Nat) (chk : Chk)
  /-- DIV. Engine e of Bobbin b executes the DIV at its PC (R232). -/
  | bstDiv (b e : Nat) (chk : Chk)
  /-- DIVU. Engine e of Bobbin b executes the DIVU at its PC (R232). -/
  | bstDivu (b e : Nat) (chk : Chk)
  /-- REM. Engine e of Bobbin b executes the REM at its PC (R232). -/
  | bstRem (b e : Nat) (chk : Chk)
  /-- REMU. Engine e of Bobbin b executes the REMU at its PC (R232). -/
  | bstRemu (b e : Nat) (chk : Chk)
  /-- NEG. Engine e of Bobbin b executes the NEG at its PC (R232). -/
  | bstNeg (b e : Nat) (chk : Chk)
  /-- SHL. Engine e of Bobbin b executes the SHL at its PC (R232). -/
  | bstShl (b e : Nat) (chk : Chk)
  /-- SHR. Engine e of Bobbin b executes the SHR at its PC (R232). -/
  | bstShr (b e : Nat) (chk : Chk)
  /-- SAR. Engine e of Bobbin b executes the SAR at its PC (R232). -/
  | bstSar (b e : Nat) (chk : Chk)
  /-- ROL. Engine e of Bobbin b executes the ROL at its PC (R232). -/
  | bstRol (b e : Nat) (chk : Chk)
  /-- ROR. Engine e of Bobbin b executes the ROR at its PC (R232). -/
  | bstRor (b e : Nat) (chk : Chk)
  /-- MIN. Engine e of Bobbin b executes the MIN at its PC (R232). -/
  | bstMin (b e : Nat) (chk : Chk)
  /-- MAX. Engine e of Bobbin b executes the MAX at its PC (R232). -/
  | bstMax (b e : Nat) (chk : Chk)
  /-- ABS. Engine e of Bobbin b executes the ABS at its PC (R232). -/
  | bstAbs (b e : Nat) (chk : Chk)
  /-- NOT. Engine e of Bobbin b executes the NOT at its PC (R232). -/
  | bstNot (b e : Nat) (chk : Chk)
  /-- FADD. Engine e of Bobbin b executes the FADD at its PC (R232). -/
  | bstFadd (b e : Nat) (chk : Chk)
  /-- FSUB. Engine e of Bobbin b executes the FSUB at its PC (R232). -/
  | bstFsub (b e : Nat) (chk : Chk)
  /-- FMUL. Engine e of Bobbin b executes the FMUL at its PC (R232). -/
  | bstFmul (b e : Nat) (chk : Chk)
  /-- FDIV. Engine e of Bobbin b executes the FDIV at its PC (R232). -/
  | bstFdiv (b e : Nat) (chk : Chk)
  /-- FSQRT. Engine e of Bobbin b executes the FSQRT at its PC (R232). -/
  | bstFsqrt (b e : Nat) (chk : Chk)
  /-- FCMP. Engine e of Bobbin b executes the FCMP at its PC (R232). -/
  | bstFcmp (b e : Nat) (chk : Chk)
  /-- FMIN. Engine e of Bobbin b executes the FMIN at its PC (R232). -/
  | bstFmin (b e : Nat) (chk : Chk)
  /-- FMAX. Engine e of Bobbin b executes the FMAX at its PC (R232). -/
  | bstFmax (b e : Nat) (chk : Chk)
  /-- FNEG. Engine e of Bobbin b executes the FNEG at its PC (R232). -/
  | bstFneg (b e : Nat) (chk : Chk)
  /-- FABS. Engine e of Bobbin b executes the FABS at its PC (R232). -/
  | bstFabs (b e : Nat) (chk : Chk)
  /-- FTOI. Engine e of Bobbin b executes the FTOI at its PC (R232). -/
  | bstFtoi (b e : Nat) (chk : Chk)
  /-- ITOF. Engine e of Bobbin b executes the ITOF at its PC (R232). -/
  | bstItof (b e : Nat) (chk : Chk)
  /-- BR. Engine e of Bobbin b executes the BR at its PC (R232). -/
  | bstBr (b e : Nat) (chk : Chk)
  /-- CALL. Engine e of Bobbin b executes the CALL at its PC (R232). -/
  | bstCall (b e : Nat) (chk : Chk)
  /-- RET. Engine e of Bobbin b executes the RET at its PC (R232). -/
  | bstRet (b e : Nat) (chk : Chk)
  /-- DBNZ. Engine e of Bobbin b executes the DBNZ at its PC (R232). -/
  | bstDbnz (b e : Nat) (chk : Chk)
  /-- REP. Engine e of Bobbin b executes the REP at its PC (R232). -/
  | bstRep (b e : Nat) (chk : Chk)
  /-- END. Engine e of Bobbin b executes the END at its PC (R232). -/
  | bstEnd (b e : Nat) (chk : Chk)
  /-- FAULT. Engine e of Bobbin b executes the FAULT at its PC (R232). -/
  | bstFault (b e : Nat) (chk : Chk)
  /-- RTT. Engine e of Bobbin b executes the RTT at its PC (R232). -/
  | bstRtt (b e : Nat) (chk : Chk)
  /-- TRAP. Engine e of Bobbin b executes the TRAP at its PC (R232). -/
  | bstTrap (b e : Nat) (chk : Chk)
  /-- CLF. Engine e of Bobbin b executes the CLF at its PC (R232). -/
  | bstClf (b e : Nat) (chk : Chk)
  deriving DecidableEq, Repr

end Sys2Proof
end

