-- ==== Sys2Proof/Machine/Bits.lean ====
section
/-! DEFINITION. Bit fields, sign and byte order (R6), and the sparse tables in which the tile's stores are held. -/

namespace Sys2Proof.Machine

/-- Bits [o+w-1 : o] of x. -/
def fld (x o w : Nat) : Nat := x / 2 ^ o % 2 ^ w

/-- Bit o of x. -/
def bit (x o : Nat) : Bool := x / 2 ^ o % 2 == 1

/-- x with bits [o+w-1 : o] replaced by the low w bits of v. -/
def setFld (x o w v : Nat) : Nat :=
  x - fld x o w * 2 ^ o + v % 2 ^ w * 2 ^ o

/-- One bit as a number. -/
def b2n (b : Bool) : Nat := if b then 1 else 0

/-- `size` bytes at byte offset `o` of a little-endian block. -/
def bytesAt (x o size : Nat) : Nat := x / 256 ^ o % 256 ^ size

/-- Puts `size` bytes of v at byte offset o of a block. -/
def putBytes (x o size v : Nat) : Nat :=
  x - bytesAt x o size * 256 ^ o + v % 256 ^ size * 256 ^ o

/-- The signed reading of a w-bit value. -/
def toSigned (w x : Nat) : Int := if x < 2 ^ (w - 1) then (x : Int) else (x : Int) - 2 ^ w

/-- The low w bits of an integer. -/
def ofInt (w : Nat) (i : Int) : Nat := (i % (2 ^ w : Int)).toNat

/-- The bytes of a little-endian number. -/
def toBytes : Nat → Nat → List Byte
  | 0, _ => []
  | n + 1, x => BitVec.ofNat 8 x :: toBytes n (x / 256)

/-- The little-endian number of a list of bytes. -/
def ofBytes : List Byte → Nat
  | [] => 0
  | b :: r => b.toNat + 256 * ofBytes r

/-- x rounded up to a multiple of m. -/
def roundUp (x m : Nat) : Nat := (x + m - 1) / m * m

/-- The position of the highest set bit plus one, by halving `fuel` times. -/
def bitLen : Nat → Nat → Nat
  | 0, _ => 0
  | _, 0 => 0
  | f + 1, x => bitLen f (x / 2) + 1

/-- The lowest index below n that satisfies p. -/
def firstIdx (n : Nat) (p : Nat → Bool) : Option Nat := (List.range n).find? p

/-- Byte mask spread to a bit mask over 64 bytes. -/
def maskBits (m : Nat) : Nat :=
  ((List.range 64).filter (fun i => bit m i)).foldl (fun a i => a + 255 * 256 ^ i) 0

/-- old with the bytes selected by the 64-bit mask m taken from new. -/
def mergeBytes (old new m : Nat) : Nat :=
  let k := maskBits m
  (old &&& (2 ^ 512 - 1 - k)) ||| (new &&& k)

/-- A store with sparse contents: rising keys, and no entry at its default. -/
abbrev Tbl (α : Type) := List (Nat × α)

/-- The entry of key k, or the default d. -/
def tget {α : Type} (d : α) : Tbl α → Nat → α
  | [], _ => d
  | (k', v) :: r, k => if k' = k then v else tget d r k

/-- A table without key k. -/
def tdel {α : Type} (t : Tbl α) (k : Nat) : Tbl α := t.filter (fun e => e.1 != k)

/-- Inserts an entry at its place. -/
def tins {α : Type} : Tbl α → Nat → α → Tbl α
  | [], k, v => [(k, v)]
  | (k', v') :: r, k, v => if k < k' then (k, v) :: (k', v') :: r else (k', v') :: tins r k v

/-- Writes key k; writing the default removes the entry. -/
def tset {α : Type} [DecidableEq α] (d : α) (t : Tbl α) (k : Nat) (v : α) : Tbl α :=
  if v = d then tdel t k else tins (tdel t k) k v

/-- Applies f to the entry of key k. -/
def tmod {α : Type} [DecidableEq α] (d : α) (t : Tbl α) (k : Nat) (f : α → α) : Tbl α :=
  tset d t k (f (tget d t k))

/-- Rising keys. -/
def tsorted {α : Type} : Tbl α → Bool
  | [] => true
  | [_] => true
  | a :: b :: r => decide (a.1 < b.1) && tsorted (b :: r)

/-- The canonical form: rising keys and no entry at the default. -/
def tcanon {α : Type} [DecidableEq α] (d : α) (t : Tbl α) : Bool :=
  tsorted t && t.all (fun e => decide (e.2 ≠ d))

end Sys2Proof.Machine
end

