-- ==== Sys2Proof/Machine/Fp.lean ====
section
/-! DEFINITION. Exact binary arithmetic and its rounding: dyadic numbers, IEEE formats, and the FP32 operations that the
chapters use, each rounded once to nearest, ties to even (R49, R76, R89, R235). -/

namespace Sys2Proof.Machine

/-- The exact number m × 2^e. -/
structure Dy where
  m : Int
  e : Int
  deriving DecidableEq, Repr, Inhabited

/-- 2^k for a nonnegative integer k, 1 below. -/
def pow2 (k : Int) : Int := (2 : Int) ^ k.toNat

def Dy.add (a b : Dy) : Dy :=
  if a.e ≤ b.e then { m := a.m + b.m * pow2 (b.e - a.e), e := a.e } else { m := a.m * pow2 (a.e - b.e) + b.m, e := b.e }
def Dy.neg (a : Dy) : Dy := { a with m := -a.m }
def Dy.sub (a b : Dy) : Dy := a.add b.neg
def Dy.mul (a b : Dy) : Dy := { m := a.m * b.m, e := a.e + b.e }
def Dy.ofInt (i : Int) : Dy := { m := i, e := 0 }
def Dy.zero : Dy := { m := 0, e := 0 }
/-- Sign of a − b. -/
def Dy.cmp (a b : Dy) : Int := (a.sub b).m
def Dy.lt (a b : Dy) : Bool := decide (a.cmp b < 0)
def Dy.le (a b : Dy) : Bool := decide (a.cmp b ≤ 0)
def Dy.eq (a b : Dy) : Bool := a.cmp b == 0
def Dy.isZero (a : Dy) : Bool := a.m == 0
def Dy.abs (a : Dy) : Dy := { a with m := (a.m.natAbs : Int) }
def Dy.max (a b : Dy) : Dy := if a.lt b then b else a
def Dy.min (a b : Dy) : Dy := if b.lt a then b else a
/-- a × 2^k. -/
def Dy.scale (a : Dy) (k : Int) : Dy := { a with e := a.e + k }
/-- The largest integer not above the number. -/
def Dy.floor (a : Dy) : Int := if 0 ≤ a.e then a.m * pow2 a.e else a.m.fdiv (pow2 (-a.e))

/-- a / b to `k` bits below the leading one, with a sticky bit: it rounds as the exact quotient does in every format of
fewer bits. b is not zero. -/
def Dy.quot (a b : Dy) (k : Nat := 96) : Dy :=
  let s := k + Nat.log2 b.m.natAbs + 1
  let n := a.m.natAbs * 2 ^ s
  let d := b.m.natAbs
  let q := n / d * 2 + b2n (n % d != 0)
  { m := if (a.m < 0) != (b.m < 0) then -(q : Int) else (q : Int), e := a.e - b.e - s - 1 }

/-- √a to many bits with a sticky bit; a is not negative. -/
def Dy.sqrt (a : Dy) (k : Nat := 64) : Dy :=
  let n0 := a.m.natAbs
  let e0 := a.e - 2 * k
  let n1 := n0 * 4 ^ k
  let n := if e0 % 2 = 0 then n1 else n1 * 2
  let e := if e0 % 2 = 0 then e0 else e0 - 1
  let r := Nat.sqrt n
  { m := (r * 2 + b2n (r * r != n) : Nat), e := e / 2 - 1 }

/-- A binary format: exponent bits and mantissa bits. -/
structure Fmt where
  eb : Nat
  mb : Nat
  deriving DecidableEq, Repr

def binary32 : Fmt := { eb := 8, mb := 23 }
def binary16 : Fmt := { eb := 5, mb := 10 }
def bfloat16 : Fmt := { eb := 8, mb := 7 }
/-- The 24-bit slab format of R76: sign, 8-bit exponent, 15-bit mantissa. -/
def slabFmt : Fmt := { eb := 8, mb := 15 }

/-- Rounding directions. -/
inductive Rnd where
  | nearest | down | up | zero
  deriving DecidableEq, Repr

/-- Bit pattern of +∞. -/
def Fmt.inf (f : Fmt) : Nat := (2 ^ f.eb - 1) * 2 ^ f.mb
/-- Sign bit. -/
def Fmt.sign (f : Fmt) : Nat := 2 ^ (f.eb + f.mb)

/-- Rounds a magnitude n × 2^e to a pattern without sign: `up` tells whether inexact magnitudes go up, for the directed
modes; the nearest mode ties to even. The result may be the pattern of infinity. -/
def Fmt.roundMag (f : Fmt) (near up : Bool) (n : Nat) (e : Int) : Nat :=
  if n = 0 then 0
  else
    let l : Int := Nat.log2 n
    let emin : Int := 2 - 2 ^ (f.eb - 1)
    let q : Int := if l + e - f.mb < emin - f.mb then emin - f.mb else l + e - f.mb
    let sh := q - e
    let r :=
      if sh ≤ 0 then n * 2 ^ (-sh).toNat
      else
        let d := 2 ^ sh.toNat
        let t := n / d
        let rem := n % d
        if near then (if d < 2 * rem ∨ (2 * rem = d ∧ t % 2 = 1) then t + 1 else t)
        else if up ∧ rem ≠ 0 then t + 1 else t
    let p := r + (q - (emin - f.mb)).toNat * 2 ^ f.mb
    if f.inf ≤ p then (if near ∨ up then f.inf else f.inf - 1) else p

/-- Rounds an exact number; `zs` is the sign of an exact zero. -/
def Fmt.round (f : Fmt) (rnd : Rnd) (zs : Bool) (d : Dy) : Nat :=
  if d.m = 0 then (if zs then f.sign else 0)
  else
    let neg := decide (d.m < 0)
    let up := match rnd with | .down => neg | .up => !neg | _ => false
    (if neg then f.sign else 0) + f.roundMag (rnd == .nearest) up d.m.natAbs d.e

/-- Fields of a pattern. -/
def Fmt.isNeg (f : Fmt) (x : Nat) : Bool := bit x (f.eb + f.mb)
def Fmt.exp (f : Fmt) (x : Nat) : Nat := fld x f.mb f.eb
def Fmt.man (f : Fmt) (x : Nat) : Nat := fld x 0 f.mb
def Fmt.isNan (f : Fmt) (x : Nat) : Bool := f.exp x == 2 ^ f.eb - 1 && f.man x != 0
def Fmt.isInf (f : Fmt) (x : Nat) : Bool := f.exp x == 2 ^ f.eb - 1 && f.man x == 0
def Fmt.isFin (f : Fmt) (x : Nat) : Bool := f.exp x != 2 ^ f.eb - 1
def Fmt.isZero (f : Fmt) (x : Nat) : Bool := f.exp x == 0 && f.man x == 0

/-- The exact value of a finite pattern. -/
def Fmt.val (f : Fmt) (x : Nat) : Dy :=
  let bias : Int := 2 ^ (f.eb - 1) - 1
  let mag : Int := if f.exp x = 0 then f.man x else f.man x + 2 ^ f.mb
  let e : Int := (if f.exp x = 0 then 1 else (f.exp x : Int)) - bias - f.mb
  { m := if f.isNeg x then -mag else mag, e := e }

/-! ## FP32 -/

/-- The quiet NaN that operations give. -/
def qNan : Nat := 0x7FC00000
def fNan (x : Nat) : Bool := binary32.isNan x
def fInf (x : Nat) : Bool := binary32.isInf x
def fFin (x : Nat) : Bool := binary32.isFin x
def fNeg (x : Nat) : Bool := bit x 31
def fVal (x : Nat) : Dy := binary32.val x
/-- Rounds to FP32, nearest-even; an exact zero is +0. -/
def f32 (d : Dy) : Nat := binary32.round .nearest false d
/-- Flips the sign. -/
def fFlip (x : Nat) : Nat := if bit x 31 then x - 2 ^ 31 else x + 2 ^ 31

def fAdd (a b : Nat) : Nat :=
  if fNan a || fNan b then qNan
  else if fInf a then (if fInf b && fNeg a != fNeg b then qNan else a)
  else if fInf b then b
  else binary32.round .nearest (fNeg a && fNeg b) ((fVal a).add (fVal b))
def fSub (a b : Nat) : Nat := if fNan b then qNan else fAdd a (fFlip b)
def fMul (a b : Nat) : Nat :=
  let neg := fNeg a != fNeg b
  if fNan a || fNan b then qNan
  else if fInf a || fInf b then
    (if binary32.isZero a || binary32.isZero b then qNan else b2n neg * 2 ^ 31 + f32Inf')
  else binary32.round .nearest neg ((fVal a).mul (fVal b))
where f32Inf' : Nat := 0x7F800000
def fDiv (a b : Nat) : Nat :=
  let neg := fNeg a != fNeg b
  let s := b2n neg * 2 ^ 31
  if fNan a || fNan b then qNan
  else if fInf a then (if fInf b then qNan else s + 0x7F800000)
  else if fInf b then s
  else if binary32.isZero b then (if binary32.isZero a then qNan else s + 0x7F800000)
  else binary32.round .nearest neg ((fVal a).quot (fVal b))
def fSqrt (a : Nat) : Nat :=
  if fNan a then qNan
  else if binary32.isZero a then a
  else if fNeg a then qNan
  else if fInf a then a
  else f32 (fVal a).sqrt
/-- a < b in FP32; false with a NaN. -/
def fLt (a b : Nat) : Bool :=
  if fNan a || fNan b then false
  else if fInf a then fNeg a && !(fInf b && fNeg b)
  else if fInf b then !fNeg b
  else (fVal a).lt (fVal b)
/-- a = b in FP32. -/
def fEq (a b : Nat) : Bool :=
  if fNan a || fNan b then false
  else if fInf a || fInf b then a == b
  else (fVal a).eq (fVal b)
def fLe (a b : Nat) : Bool := fLt a b || fEq a b

/-- A signed 32-bit integer as FP32. -/
def fOfInt (i : Int) : Nat := f32 (Dy.ofInt i)

/-- The value of a pattern of a vector element format (R69): 0 INT8, 1 FP8 E4M3, 2 FP8 E5M2, 3 FP16, 4 BF16, 5 FP32.
None for a NaN or an infinity. E4M3 has no infinity; its pattern 0x7F is NaN. -/
def elemVal (vfmt x : Nat) : Option Dy :=
  match vfmt with
  | 0 => some (Dy.ofInt (toSigned 8 (x % 256)))
  | 1 =>
    if fld x 0 7 = 0x7F then none
    else
      let e := fld x 3 4
      let m := fld x 0 3
      let mag : Int := if e = 0 then m else m + 8
      let ex : Int := (if e = 0 then 1 else (e : Int)) - 7 - 3
      some { m := if bit x 7 then -mag else mag, e := ex }
  | 2 => let f : Fmt := { eb := 5, mb := 2 }
    if f.isFin x then some (f.val x) else none
  | 3 => if binary16.isFin x then some (binary16.val x) else none
  | 4 => if bfloat16.isFin x then some (bfloat16.val x) else none
  | _ => if fFin x then some (fVal x) else none

/-- The element as FP32, which holds every format exactly; a zero keeps its sign (R138, R163). -/
def elem32 (vfmt x : Nat) : Option Nat :=
  (elemVal vfmt x).map (fun d => binary32.round .nearest (match vfmt with | 0 => false | 1 | 2 => bit x 7 | 3 | 4 => bit x 15 | _ => bit x 31) d)

end Sys2Proof.Machine
end

