-- ==== Sys2Proof/Machine/Objects.lean ====
section
/-! DEFINITION. The object dictionary as the chapters list it (R427): every object's type, access, level, reset value
and writable bits. The dictionary registers of the tile are held in one store keyed by index and subindex (R13). -/

namespace Sys2Proof.Machine

/-- The type of an object (R412). -/
inductive OTy where
  | u (bytes : Nat) | s32 | str | domain (bytes : Nat)
  deriving DecidableEq, Repr

/-- The access of an object (R7). -/
inductive Acc where
  | ro | rw | wo | w1c | cmd
  deriving DecidableEq, Repr

/-- A row of an object table: indexes lo, lo+step, … hi; subindexes s0, s0+ss, … s1. `mask` are the writable bits
(0: every bit), `lvl` 0 public, 1 operator, 2 vendor. -/
structure ObjRow where
  lo : Nat
  hi : Nat
  step : Nat
  s0 : Nat
  s1 : Nat
  ss : Nat
  ty : OTy
  acc : Acc
  lvl : Nat
  reset : Nat
  mask : Nat
  deriving DecidableEq, Repr

/-- One object with one subindex. -/
def o1 (idx sub : Nat) (ty : OTy) (acc : Acc) (lvl reset : Nat) (mask : Nat := 0) : ObjRow :=
  ⟨idx, idx, 1, sub, sub, 1, ty, acc, lvl, reset, mask⟩
/-- A run of objects with one subindex. -/
def oN (lo hi sub : Nat) (ty : OTy) (acc : Acc) (lvl reset : Nat) (mask : Nat := 0) : ObjRow :=
  ⟨lo, hi, 1, sub, sub, 1, ty, acc, lvl, reset, mask⟩
/-- A run of subindexes of one object or of a run of objects. -/
def oS (lo hi s0 s1 : Nat) (ty : OTy) (acc : Acc) (lvl reset : Nat) (mask : Nat := 0) : ObjRow :=
  ⟨lo, hi, 1, s0, s1, 1, ty, acc, lvl, reset, mask⟩
/-- A context-table object (R13): object o of every context, one subindex run. -/
def oC (o s0 s1 : Nat) (ty : OTy) (acc : Acc) (reset : Nat) (mask : Nat := 0) : ObjRow :=
  ⟨0x3000 + o, 0x3FC0 + o, 64, s0, s1, 1, ty, acc, 1, reset, mask⟩

/-- Chapter 14 and the ring part of the map (R417 to R427). -/
def rowsRing : List ObjRow := [
  o1 0x1000 0 (.u 4) .ro 0 0x00010048, o1 0x1001 0 (.u 4) .ro 0 0x00000A1D,
  o1 0x1002 0 (.u 2) .ro 0 Config.stepping.toNat, o1 0x1003 0 (.u 8) .ro 0 Config.serial.toNat,
  o1 0x1004 0 .str .ro 0 0x38345654206E726F6172747952, o1 0x1005 0 (.u 4) .ro 0 Config.fwVersion.toNat,
  o1 0x1006 0 (.u 2) .ro 0 Config.fwSvn.toNat, o1 0x1008 0 (.u 1) .ro 0 1,
  o1 0x1100 1 (.u 1) .ro 0 0xFE, oS 0x1100 0x1100 2 3 (.u 1) .ro 0 0, oS 0x1100 0x1100 4 9 (.u 8) .ro 0 0,
  o1 0x1100 0x0A (.u 4) .ro 0 0, o1 0x1100 0x0B (.u 8) .ro 0 0,
  o1 0x1110 1 (.u 1) .rw 1 0xFF, o1 0x1110 2 (.u 4) .rw 1 0 0xFFFFFF, o1 0x1110 3 (.u 1) .rw 1 0xFF,
  o1 0x1110 4 (.u 4) .rw 1 0 0xFFFFFF, o1 0x1110 5 (.u 2) .rw 1 200, o1 0x1110 6 (.u 2) .rw 1 2000,
  o1 0x1110 7 (.u 1) .rw 1 3,
  o1 0x1120 1 (.u 1) .rw 1 0, o1 0x1120 2 (.u 2) .rw 1 0, o1 0x1120 3 (.u 2) .ro 1 0, o1 0x1120 4 (.u 1) .ro 1 0,
  o1 0x1120 5 (.u 4) .ro 1 0, o1 0x1120 6 (.u 2) .rw 1 10,
  o1 0x1130 0 (.u 1) .cmd 1 0,
  o1 0x1200 1 (.u 1) .rw 1 1, oS 0x1200 0x1200 2 0x40 (.u 1) .rw 1 0, oS 0x1210 0x1210 1 8 (.u 1) .rw 1 1,
  o1 0x1220 1 (.u 8) .ro 1 0, o1 0x1220 2 (.domain 104) .wo 1 0, o1 0x1220 3 (.u 1) .ro 1 0xFF,
  o1 0xF020 1 (.domain 524288) .wo 1 0, o1 0xF020 2 (.u 1) .cmd 1 0, o1 0xF020 3 (.u 4) .ro 1 0]

/-- Chapters 16 and 17 (R444 to R472). -/
def rowsPower : List ObjRow := [
  o1 0x2100 1 (.u 1) .cmd 1 0, o1 0x2100 2 (.u 4) .rw 1 100,
  o1 0x2110 1 (.u 1) .rw 1 1 1, o1 0x2110 2 (.u 1) .rw 1 4, o1 0x2110 3 (.u 2) .rw 1 256, o1 0x2110 4 (.u 4) .rw 1 200,
  o1 0x2110 5 (.u 1) .rw 1 64, o1 0x2110 6 (.u 1) .rw 1 192,
  o1 0x2120 1 (.u 1) .rw 1 0, o1 0x2120 2 (.u 2) .rw 1 800, o1 0x2120 3 (.u 1) .rw 2 0 1,
  o1 0x2130 1 (.u 1) .rw 1 100,
  o1 0x4000 1 (.u 1) .ro 0 1, oS 0x4000 0x4000 2 4 (.u 8) .ro 0 0, oS 0x4000 0x4000 5 6 (.u 2) .ro 0 0,
  o1 0x4000 7 .s32 .ro 0 0, oS 0x4000 0x4000 8 0x0A (.u 8) .ro 0 0,
  o1 0x6000 1 (.u 2) .ro 0 Config.vf, o1 0x6000 2 (.u 2) .ro 0 Config.stepD,
  o1 0x6000 3 (.u 2) .ro 0 Config.dFree.toNat, oS 0x6000 0x6000 4 8 (.u 1) .ro 0 0, o1 0x6000 9 (.u 8) .ro 0 0,
  o1 0x6000 0x0A (.u 1) .ro 0 0, o1 0x6000 0x0B (.u 2) .ro 0 0, o1 0x6000 0x0C (.u 8) .ro 0 0,
  oS 0x6010 0x6010 1 0x60 (.u 4) .ro 0 0, oS 0x6020 0x6020 1 0x60 (.u 4) .ro 0 0, o1 0x6030 1 (.domain 65536) .ro 1 0,
  o1 0xF000 1 (.u 1) .cmd 1 0, o1 0xF000 2 (.u 1) .rw 1 0 3, oS 0xF000 0xF000 3 4 (.u 4) .ro 0 0,
  o1 0xF001 0 (.u 1) .cmd 1 0,
  o1 0xF002 1 (.u 1) .rw 1 0, o1 0xF002 2 (.u 1) .cmd 1 0, o1 0xF002 3 (.u 8) .ro 0 0, o1 0xF002 4 (.u 4) .ro 0 0]

/-- Chapter 11 (R294 to R331). -/
def rowsLining : List ObjRow := [
  oS 0x2300 0x2300 1 5 (.u 4) .rw 1 0, o1 0x2300 6 (.u 1) .cmd 1 0, o1 0x2300 7 (.u 1) .rw 1 1 1,
  o1 0x2300 8 (.u 4) .ro 1 3040, o1 0x2300 9 (.u 4) .ro 1 0,
  o1 0x2310 0 (.u 4) .rw 1 0 3,
  o1 0x2320 1 (.u 2) .rw 1 1024, o1 0x2320 2 (.u 1) .rw 1 2, o1 0x2320 3 (.u 1) .rw 1 8,
  ⟨0x2600, 0x263F, 1, 1, 0xBE, 3, .u 8, .rw, 1, 0, 0xFFFFFFFFFFFFF000⟩,
  ⟨0x2600, 0x263F, 1, 2, 0xBF, 3, .u 8, .rw, 1, 0, 0xFFFFFFFFFFFFF000⟩,
  ⟨0x2600, 0x263F, 1, 3, 0xC0, 3, .u 8, .rw, 1, 0, 0xFFFFFFFF00001F1F⟩,
  oS 0x4330 0x4330 1 4 (.u 8) .ro 0 0, o1 0x4330 5 (.u 4) .ro 0 0, oS 0x4330 0x4330 6 9 (.u 8) .ro 0 0,
  oS 0x4330 0x4330 0x0A 0x0B (.u 4) .ro 0 0, o1 0x4330 0x0C (.u 8) .ro 0 0, o1 0x4330 0x0D (.u 4) .ro 0 0,
  oS 0x4340 0x436F 1 6 (.u 8) .ro 0 0, oN 0x4340 0x436F 7 (.u 4) .ro 0 0, oS 0x4340 0x436F 8 0x0A (.u 8) .ro 0 0,
  oS 0x4800 0x481F 1 0x80 (.u 8) .ro 0 0,
  o1 0xF010 1 (.u 1) .cmd 1 0, o1 0xF010 2 (.u 4) .rw 1 0 0x3F7F, oS 0xF010 0xF010 3 4 (.u 8) .rw 1 0,
  o1 0xF010 5 (.u 4) .rw 1 0 0xFFFFFF, o1 0xF010 6 (.u 8) .rw 1 0 0xFFFFFFFFFFFF, o1 0xF010 7 (.u 8) .ro 1 0]

/-- Chapters 07, 08, 09, 10: tile configuration and telemetry (R204, R205, R220, R247, R265, R289, R290). -/
def rowsTile : List ObjRow := [
  oS 0x2400 0x2400 1 2 (.u 1) .rw 1 0, o1 0x2400 3 (.u 1) .rw 1 0x3F 0x3F, o1 0x2400 4 (.u 2) .rw 1 64,
  o1 0x2400 5 (.u 4) .rw 1 4096, o1 0x2400 6 (.u 1) .rw 1 4, o1 0x2400 7 (.u 1) .rw 1 2, o1 0x2400 8 (.u 1) .rw 1 1,
  o1 0x2400 9 (.u 1) .rw 1 2, o1 0x2400 0x0A (.u 2) .rw 1 2048, o1 0x2400 0x0B (.u 1) .rw 1 240,
  o1 0x2400 0x0C (.u 1) .rw 1 224, o1 0x2400 0x0D (.u 1) .rw 1 192,
  o1 0x2410 1 (.u 2) .rw 1 4, o1 0x2410 2 (.u 4) .rw 1 4096,
  o1 0x2420 1 (.u 4) .rw 1 16384, o1 0x2420 2 (.u 4) .rw 1 256, o1 0x2420 3 (.u 4) .rw 1 0,
  o1 0x2500 1 (.u 1) .rw 1 0, o1 0x2500 2 (.u 8) .rw 1 0 0xFFFFFFFFFFFFFFC0, o1 0x2500 3 (.u 1) .cmd 1 0,
  o1 0x2500 4 (.u 4) .ro 1 0,
  oS 0x4200 0x422F 1 8 (.u 8) .ro 0 0, oS 0x4240 0x426F 1 9 (.u 8) .ro 0 0, oS 0x4280 0x42AF 1 9 (.u 8) .ro 0 0,
  oS 0x42C0 0x42EF 1 9 (.u 8) .ro 0 0,
  oS 0x4300 0x4300 1 0x0E (.u 8) .ro 0 0, oS 0x4300 0x4300 0x0F 0x10 (.u 4) .ro 0 0, o1 0x4300 0x11 (.u 1) .ro 0 0,
  o1 0x4300 0x12 (.u 2) .ro 0 0,
  oS 0x4310 0x4310 1 9 (.u 8) .ro 0 0, oS 0x4310 0x4310 0x0A 0x0B (.u 4) .ro 0 0,
  oS 0x4320 0x4320 1 0x0E (.u 8) .ro 0 0, oS 0x4320 0x4320 0x0F 0x10 (.u 4) .ro 0 0]

/-- Chapters 02, 03, 07, 09, 10: the context table and the endpoints (R45, R62, R96, R201, R246, R287, R288). -/
def rowsCtx : List ObjRow := [
  oC 0x00 0 0 (.u 4) .rw 0x100 0xF07, oC 0x01 0 0 (.u 4) .rw 262144, oC 0x02 0 0 (.u 4) .rw 262144,
  oC 0x03 0 0 (.u 4) .rw 64, oC 0x04 0 0 (.u 4) .ro 0, oC 0x05 0 0 (.u 4) .ro 0, oC 0x06 0 0 (.u 4) .ro 0,
  oC 0x07 0 0 (.u 1) .cmd 0,
  oC 0x08 0 0 (.u 1) .cmd 0, oC 0x09 0 0 (.u 2) .rw 0 0xFFF, oC 0x0A 0 0 (.u 8) .rw 0, oC 0x0B 0 0 (.u 8) .rw 0,
  oC 0x0C 0 0 (.u 4) .ro 0,
  oC 0x0D 0 0 (.u 8) .rw 0 0xFFFFFFFFFFFFF000, oC 0x0E 0 0 (.u 4) .rw 0, oC 0x0F 0 0 (.u 4) .ro 0,
  oC 0x10 0 0 (.u 4) .ro 0,
  oC 0x11 1 8 (.u 8) .rw 0 0xFFFFFFFFFFFFF000, oC 0x12 1 8 (.u 4) .rw 0x600 0x31F03,
  oC 0x13 1 8 (.u 8) .rw 0 0xFFFFFFFFFFFFFFFC, oC 0x14 1 8 (.u 8) .rw 0 0xFFFFFFFFFFFFFFC0,
  oC 0x15 1 8 (.u 4) .rw 0x100 0xFFFFFF0F, oC 0x16 1 8 (.u 8) .ro 0,
  oC 0x17 1 1 (.u 4) .rw 0 1, oC 0x17 2 2 (.u 2) .rw 0, oC 0x17 3 3 (.u 4) .rw 0, oC 0x17 4 4 (.u 2) .rw 0 0xFFF,
  oC 0x17 5 5 (.u 2) .rw 0, oC 0x17 6 7 (.u 4) .rw 4096, oC 0x17 8 8 (.u 4) .rw 16384,
  oC 0x17 9 9 (.u 8) .rw 0 0xFFFFFFFFFFFFF000, oC 0x17 0x0A 0x0A (.u 1) .rw 6, oC 0x17 0x0B 0x10 (.u 4) .ro 0,
  oN 0x2C00 0x2FFF 1 (.u 4) .rw 1 0x04000000 0x0F073F01, oN 0x2C00 0x2FFF 2 (.u 8) .rw 1 0 0xFFFFFFFFFFFFFFE0,
  oN 0x2C00 0x2FFF 3 (.u 8) .ro 1 0]

/-- The five objects of one stream (R45). -/
def rowsStream (s : Nat) : List ObjRow := [
  oC (0x18 + 5 * s) 0 0 (.u 8) .rw 0 0xFFFFFFFFFFFFF000, oC (0x19 + 5 * s) 0 0 (.u 4) .rw 0x600 0x31F07,
  oC (0x1A + 5 * s) 0 0 (.u 8) .rw 0 0xFFFFFFFFFFFFFFFC, oC (0x1B + 5 * s) 0 0 (.u 8) .rw 0 0xFFFFFFFFFFFFFFC0,
  oC (0x1C + 5 * s) 0 0 (.u 4) .ro 0]

/-- Chapters 12 and 13 (R350 to R367, R393 to R396). -/
def rowsPorts : List ObjRow := [
  o1 0x2700 1 (.u 1) .rw 1 0, oS 0x2700 0x2700 2 3 (.u 4) .rw 1 4096, o1 0x2700 4 (.u 4) .rw 1 1000,
  o1 0x2700 5 (.u 1) .rw 1 2, o1 0x2700 6 (.u 2) .rw 1 4, o1 0x2700 7 (.domain 32) .rw 1 0,
  oS 0x2710 0x2711 1 0x80 (.u 2) .rw 1 0 0x3F3F,
  oN 0x2800 0x280F 1 (.u 4) .rw 1 0 0xF01, oN 0x2810 0x282F 1 (.u 4) .rw 1 0 1,
  oN 0x2800 0x2817 2 (.u 4) .rw 1 256, oN 0x2818 0x282F 2 (.u 4) .ro 1 0,
  oN 0x4400 0x442F 1 (.u 1) .ro 0 0, oN 0x4400 0x442F 2 (.u 8) .ro 0 0, oS 0x4400 0x442F 3 4 (.u 4) .ro 0 0,
  oS 0x4400 0x442F 5 8 (.u 8) .ro 0 0,
  oS 0x4440 0x4440 1 7 (.u 8) .ro 0 0, oS 0x4440 0x4440 8 9 (.u 4) .ro 0 0,
  o1 0x7000 1 (.u 1) .rw 1 3, o1 0x7000 2 (.u 2) .rw 1 2, o1 0x7000 3 (.u 2) .rw 1 64, o1 0x7000 4 (.u 2) .rw 1 16,
  o1 0x7000 5 (.u 4) .rw 1 262144,
  oS 0x7010 0x7010 1 2 (.u 8) .ro 1 0, o1 0x7010 3 (.domain 24) .ro 1 0, oS 0x7010 0x7010 4 5 (.u 4) .ro 1 0,
  o1 0x7010 6 (.u 1) .rw 1 0, o1 0x7010 7 (.u 1) .cmd 1 0,
  oS 0x7020 0x7020 1 0x0C (.u 8) .ro 1 0,
  oS 0x7030 0x7030 1 2 (.u 4) .ro 1 0, o1 0x7030 3 (.domain 10080) .ro 1 0]

/-- The defined causes of a leaf object (R433), 0 for an index that is no leaf. -/
def leafMask (idx : Nat) : Nat :=
  if 0x5100 ≤ idx ∧ idx < 0x5130 then 0x1F else if idx = 0x5200 then 0x7F
  else if 0x5300 ≤ idx ∧ idx < 0x5330 then 0x3FF else if idx = 0x5400 then 0xF else if idx = 0x5500 then 0xFF
  else if idx = 0x5600 then 0xF else if idx = 0x5700 then 0xFF else if idx = 0x5800 then 0x3F
  else if 0x5900 ≤ idx ∧ idx < 0x5940 then 0x3FF else 0

/-- The rows of one run of leaf objects (R430): one REC for each defined cause. -/
def rowsLeaf (lo hi : Nat) : List ObjRow := [
  oN lo hi 1 (.u 4) .w1c 1 0 (leafMask lo), oN lo hi 2 (.u 4) .rw 1 0 (leafMask lo), oN lo hi 3 (.u 4) .ro 0 0,
  oN lo hi 4 (.u 4) .rw 1 (leafMask lo) (leafMask lo), oS lo hi 0x10 (0x10 + Nat.log2 (leafMask lo)) (.u 4) .ro 0 0]

/-- Chapter 15 (R429, R430). -/
def rowsCause : List ObjRow := [
  o1 0x5000 1 (.u 2) .ro 0 0, o1 0x5000 2 (.u 2) .rw 1 0x1FF 0x1FF, o1 0x5000 3 (.u 1) .ro 0 0,
  oN 0x5001 0x5009 0 (.u 8) .ro 0 0] ++ rowsLeaf 0x5100 0x512F ++ rowsLeaf 0x5200 0x5200 ++ rowsLeaf 0x5300 0x532F ++
  rowsLeaf 0x5400 0x5400 ++ rowsLeaf 0x5500 0x5500 ++ rowsLeaf 0x5600 0x5600 ++ rowsLeaf 0x5700 0x5700 ++
  rowsLeaf 0x5800 0x5800 ++ rowsLeaf 0x5900 0x593F

/-- The rows that can hold an index: the chapter tables by index range. -/
def rowsFor (idx : Nat) : List ObjRow :=
  if 0x3000 ≤ idx ∧ idx < 0x4000 then
    let o := idx % 64
    if 0x18 ≤ o then rowsStream ((o - 0x18) / 5) else rowsCtx
  else if 0x2C00 ≤ idx ∧ idx < 0x3000 then rowsCtx
  else if 0x5000 ≤ idx ∧ idx < 0x6000 then rowsCause
  else if idx < 0x2000 ∨ idx = 0xF020 then rowsRing
  else if idx < 0x2300 ∨ idx = 0x4000 ∨ (0x6000 ≤ idx ∧ idx < 0x7000) ∨ (0xF000 ≤ idx ∧ idx < 0xF010) then rowsPower
  else if idx < 0x2400 ∨ (0x2600 ≤ idx ∧ idx < 0x2700) ∨ (0x4330 ≤ idx ∧ idx < 0x4400) ∨ idx = 0xF010 ∨
    (0x4800 ≤ idx ∧ idx < 0x4900) then rowsLining
  else if idx < 0x2600 ∨ (0x4200 ≤ idx ∧ idx < 0x4330) then rowsTile
  else if idx < 0x3000 ∨ (0x4400 ≤ idx ∧ idx < 0x4800) ∨ (0x7000 ≤ idx ∧ idx < 0x8000) then rowsPorts
  else []

/-- Whether a row holds index idx. -/
def ObjRow.hasIdx (r : ObjRow) (idx : Nat) : Bool :=
  decide (r.lo ≤ idx) && decide (idx ≤ r.hi) && (idx - r.lo) % r.step == 0

/-- Whether a row is the object idx:sub. -/
def ObjRow.is (r : ObjRow) (idx sub : Nat) : Bool :=
  r.hasIdx idx && decide (r.s0 ≤ sub) && decide (sub ≤ r.s1) && (sub - r.s0) % r.ss == 0

/-- The row of an object, if the dictionary has it (R427). -/
def objRow? (idx sub : Nat) : Option ObjRow := (rowsFor idx).find? (fun r => r.is idx sub)

/-- The highest subindex of an object that has subindexes from 0x01 (R412). -/
def objTop (idx : Nat) : Nat :=
  ((rowsFor idx).filter (fun r => r.hasIdx idx)).foldl (fun a r => max a (r.s1 - (r.s1 - r.s0) % r.ss)) 0

/-- Bytes of a type; 0 for STR. -/
def OTy.size : OTy → Nat
  | .u n => n
  | .s32 => 4
  | .str => 0
  | .domain n => n

/-- The writable bits of a row. -/
def ObjRow.wmask (r : ObjRow) : Nat := if r.mask = 0 then 256 ^ r.ty.size - 1 else r.mask

/-- The key of an object in the store: index × 256 + subindex. -/
def okey (idx sub : Nat) : Nat := idx * 256 + sub

/-- The reset value of an object (R427). -/
def objReset (k : Nat) : Nat := match objRow? (k / 256) (k % 256) with | some r => r.reset | none => 0

/-- Whether the object is in the always-on domain (R416). -/
def alwaysOn (idx : Nat) : Bool :=
  (decide (0x1000 ≤ idx) && decide (idx ≤ 0x1FFF)) || (decide (0x2100 ≤ idx) && decide (idx ≤ 0x22FF)) ||
  (decide (0x2800 ≤ idx) && decide (idx ≤ 0x282F)) || (decide (0x4000 ≤ idx) && decide (idx ≤ 0x41FF)) ||
  (decide (0x5000 ≤ idx) && decide (idx ≤ 0x6FFF)) || idx == 0x7010 || idx == 0x7030 ||
  (decide (0xF000 ≤ idx) && decide (idx ≤ 0xF00F)) || idx == 0xF020

end Sys2Proof.Machine
end

