-- ==== Sys2Proof/Machine/Types.lean ====
section
/-! DEFINITION. The pieces of state of the tile, each with the rule that gives it. Stores are sparse tables
(Machine/Bits.lean) whose default is the reset contents. -/

namespace Sys2Proof.Machine

/-! ## Queries (R53, R54) -/

/-- The 64-byte query record (R53), field by field. `body` is bytes 0x10 to 0x2F, `w38` the word at 0x38
(BEST, EXTW or STRW) and `w0c` the word at 0x0C (BEST_INST or LIMIT). -/
structure QRec where
  kind : Nat := 0
  cls : Nat := 0
  ctx : Nat := 0
  stream : Nat := 0
  trace : Bool := false
  forceOpaque : Bool := false
  shape : Bool := false
  gen : Bool := false
  haveHit : Bool := false
  vismask : Nat := 0
  cont : Bool := false
  isCont : Bool := false
  cidx : Nat := 0
  handle : Nat := 0
  filter : Nat := 0
  km1 : Nat := 0
  seq : Word := 0
  w0c : Nat := 0
  body : Nat := 0
  trail : Nat := 0
  w38 : Nat := 0
  deriving DecidableEq, Repr, Inhabited

/-- Three FP32 patterns. -/
structure Vec3 where
  x : Nat := 0
  y : Nat := 0
  z : Nat := 0
  deriving DecidableEq, Repr, Inhabited

/-- A hit with its attributes (R55, R115) and its instance path. `prim` is PRIM and `geom` GEOM. -/
structure Hit where
  t : Nat
  ptype : Nat
  prim : Nat
  geom : Nat
  path : List Nat
  front : Bool := false
  u : Nat := 0
  v : Nat := 0
  /-- Its number within the leaf block. -/
  idx : Nat := 0
  deriving DecidableEq, Repr, Inhabited

/-- One entry of a query's list (R54): T or DIST, BEST_INST, and PRIM/GEOM or ID. -/
structure LEntry where
  t : Nat
  w : Nat
  id : Nat
  deriving DecidableEq, Repr, Inhabited

/-- A result record being released (R55, R57, R60). -/
inductive Rec where
  /-- A hit record: the 32 bytes as a number. -/
  | hit (b : Nat)
  /-- A neighbour record: the 16 bytes as a number. -/
  | nbr (b : Nat)
  /-- A sample-trace record: the 32 bytes as a number. -/
  | trc (b : Nat)
  deriving DecidableEq, Repr, Inhabited

/-- The owning place of an admitted query (R28), with the waiting places that R28 counts under them. -/
inductive Place where
  /-- Not an admitted query: the slot is free. -/
  | none
  /-- Parking: in a bin, the class-0 queue or an escape bin (R182, R185). -/
  | binned
  /-- Parking: on the hold list of its handle (R99). -/
  | held
  /-- Parking: its bin entry is in the context's spill window (R199). -/
  | spilled
  /-- In the ray-store entry of this Bobbin. -/
  | rayStore (b e : Nat)
  /-- At a remote tile, or waiting to be sent (R358). -/
  | remote
  /-- Finished and with the Hem (R58). -/
  | hem
  /-- Charged for a continuation that is not built yet (R52). -/
  | charged
  /-- A completed RAY_CLOSEST parent whose continuations are not built yet (R51). -/
  | parent
  /-- A mending-mode query that suffered a loss and waits for its reissue (R379). -/
  | lost
  deriving DecidableEq, Repr, Inhabited

/-- The remote-hit state of R362: the attribute bytes 0x40 to 0x6F, which hold the hit's key. -/
structure RemoteHit where
  avalid : Bool := false
  attrs : Nat := 0
  deriving DecidableEq, Repr, Inhabited

/-- Where a query that migrates stands (R357, R358): the stub's home, root and level, the instances on its path with
their FLIP_FACING bits, the ray there, and the interval when it goes on in a finishing walk. -/
structure MigInfo where
  home : Nat := 0
  root : Nat := 0
  level : Nat := 0
  path : List (Nat × Bool) := []
  opq : Bool := false
  o : Vec3 := {}
  d : Vec3 := {}
  closed : Bool := false
  tlo : Nat := 0
  thi : Nat := 0
  /-- Address of the item that comes after the stub, 0 where the tile does not hold it (R188). -/
  next : Nat := 0
  deriving DecidableEq, Repr, Inhabited

/-- What a migrated query came with (R357, R359): where it came from and the frame it answers. -/
structure Served where
  tile : Nat := 0
  sp : Nat := 0
  migid : Nat := 0
  hops : Nat := 0
  baseLevel : Nat := 0
  rcap : Nat := 0
  root : Nat := 0
  instPath : List (Nat × Bool) := []
  closed : Bool := false
  /-- CONTEXT of the record as sent. -/
  octx : Nat := 0
  /-- The walk stopped for want of reserved records (R359). -/
  partial_ : Bool := false
  forceOpq : Bool := false
  tlo : Nat := 0
  pleft : Nat := 0
  sent : Nat := 0
  vec : List Nat := []
  deriving DecidableEq, Repr, Inhabited

/-- One parking slot: the record, the extension (R54) and what the tile keeps with the query. -/
structure Query where
  place : Place := .none
  qr : QRec := {}
  /-- Bytes 0x10 to 0x2F as submitted. -/
  body0 : Nat := 0
  /-- The sorted list of the extension. -/
  list : List LEntry := []
  extBlocks : Nat := 0
  /-- Units of the slot and its extension that came from the context's reserve (R65). -/
  fromReserve : Nat := 0
  traceAddr : Nat := 0
  traceCap : Nat := 0
  traceWritten : Nat := 0
  /-- BEST of a traced RAY_CLOSEST query (R54), and the t of BEST of a RAY_ANY query, which needs it for its finishing
  walk (R118; log 28). -/
  tbest : Nat := 0
  anyT : Nat := 0
  /-- Ordinal of the next network leaf (R60, R172). -/
  leafOrd : Nat := 0
  /-- Results released so far (ORD, RANK). -/
  released : Nat := 0
  remoteHit : RemoteHit := {}
  /-- The frame a migrated query answers. -/
  served : Option Served := none
  /-- Class-0 start bound (R195): counted from the doorbell of a plain descriptor. -/
  plain0 : Bool := false
  /-- CLK_F count at the acceptance of its doorbell. -/
  bell : Nat := 0
  /-- KEY and SCHEME of the current bin entry, and its AGE (R184); its place among entries of equal AGE (R200). -/
  key : Nat := 0
  scheme : Nat := 0
  age : Nat := 0
  insOrd : Nat := 0
  /-- Its place in the ring of the spill window while it is spilled (R199). -/
  spillAt : Nat := 0
  /-- Next item reported at the write-back (R188): the tile-virtual address, 0 for ROOT. -/
  nextItem : Nat := 0
  /-- Release counts: E of R380, reissues made, records delivered ahead (R379). -/
  delivered : Nat := 0
  reissues : Nat := 0
  /-- Records of a reissued query still to be discarded as already delivered (R380). -/
  skip : Nat := 0
  /-- The extension has been changed since the record was last written (R376). -/
  extDirty : Bool := false
  /-- The Bobbin whose withdrawn leaf array the query has to leave (R376). -/
  moved : Option Nat := none
  /-- A status that ends the query at its next boundary (R67, R474). -/
  kill : Option Nat := none
  /-- Where the descriptor stands: ring count, or the parent's for a continuation; sample n of a generated query. -/
  desc : Word := 0
  genN : Nat := 0
  /-- Which of the descriptors that its stream has ever taken this one's is: the order of R264 across counts that wrap or start again. -/
  dord : Nat := 0
  /-- The query vector, once read, as elements of R137. -/
  vec : List Nat := []
  /-- Slots charged for continuations that are not built (R52). -/
  contSlots : List Nat := []
  /-- A number that tells this use of the slot from later ones. -/
  uid : Nat := 0
  /-- The vector read of its key is under way, for this source of R180; 0: none. -/
  keySrc : Nat := 0
  /-- The continuation block of a parent, or the descriptor of a query that is reissued, is being read (R51, R379). -/
  contRead : Bool := false
  /-- Set while the query is remote or waits to be sent (R358). -/
  mig : Option MigInfo := none
  /-- The walk has ended at another tile: what is left is the completion (R361); LIMIT was reached there. -/
  ended : Bool := false
  trunc : Bool := false
  /-- A finishing walk that was interrupted by a migration: what it had collected (log 30). -/
  fin : Option (List Hit) := none
  /-- The trace state's hits: the key of each and the index of its record (R172). -/
  trcHits : List (Hit × Nat) := []
  deriving DecidableEq, Repr, Inhabited

/-! ## Bins (R185, R190) -/

/-- A bin: its class, its KEY (of a directory way), its entries in ascending AGE, the Bobbin it last released to, and
whether its oldest entry has reached RIPE_CYC (R191); and the Bobbin that a batch of it waits for (R30). Bins are keyed set × 32 + way; way 16 + class is the mixed bin;
131,072 + class is the escape bin. -/
structure Bin where
  cls : Nat := 0
  key : Nat := 0
  entries : List Nat := []
  lastBob : Option Nat := none
  ripe : Bool := false
  waitBob : Option Nat := none
  deriving DecidableEq, Repr, Inhabited

/-! ## Streams and contexts -/

/-- A fetched ring entry that is not admitted yet (R181): its 64 bytes, or the status of a read that failed (R44). -/
structure Fetched where
  count : Word
  data : Nat
  status : Option Nat := none
  bell : Nat := 0
  /-- Its age: the order number of its fetch (R180). -/
  ord : Nat := 0
  deriving DecidableEq, Repr, Inhabited

/-- Entries fetched before their stream was enabled again, which are still completed (R44): the counts from `next` up to `stop` of
that earlier run, those read so far, and the count below which a CANCEL completes them. -/
structure OldRun where
  ep : Nat
  next : Word
  stop : Word
  entries : List Fetched := []
  cancelTo : Option Word := none
  deriving DecidableEq, Repr, Inhabited

/-- A generation descriptor under expansion (R48): its bytes, its count S, its shot block and the next n. -/
structure GenExp where
  desc : Nat := 0
  s : Word := 0
  shot : Nat := 0
  /-- The shot block has been read. -/
  ready : Bool := false
  n : Nat := 0
  count : Nat := 0
  /-- The age of its next query: the order number of the last that was generated (R180). -/
  ord : Nat := 0
  /-- The queries not yet built are completed with CANCELLED (R67). -/
  cancelled : Bool := false
  deriving DecidableEq, Repr, Inhabited

/-- A group of records of one query that the Hem holds for delivery (R249, R251): its slot, the records left, whether
the last of them is terminal, and the terminal status. -/
structure HemItem where
  slot : Nat
  seq : Word
  recs : List Rec
  terminal : Bool
  status : Nat
  /-- Position among the queries of its descriptor: 8 × n + 1 + CIDX, or 8 × n for a query that is no continuation (R264). -/
  pos : Nat := 0
  /-- Sent to the fallback ring whatever DEST is (R494). -/
  fallback : Bool := false
  /-- The query's slot is freed when its terminal record is delivered. -/
  frees : Bool := true
  /-- The records occupy result-buffer pages (R249); until then the query waits with the Hem. -/
  paged : Bool := false
  /-- The handle, while the query counts in flight without its slot (R97). -/
  handle : Option Nat := none
  /-- S mod 4,096 of its generation descriptor (R48). -/
  genS : Option Nat := none
  /-- Ring count of its descriptor (R43), and its place among the descriptors of its stream (R264). -/
  desc : Word := 0
  dord : Nat := 0
  /-- GEN, ISCONT and CIDX of the query, for its operand (R275). -/
  flags : Nat := 0
  deriving DecidableEq, Repr, Inhabited

/-- An open or closed slot fill (R254 to R262). -/
structure Fill where
  number : Nat := 0
  addr : Nat := 0
  /-- SCTRL and PITCH as read. -/
  sctrl : Nat := 0
  pitch : Nat := 0
  ready : Bool := false
  badHdr : Bool := false
  /-- The queries placed, in order, each with all its records. -/
  placed : List HemItem := []
  opened : Nat := 0
  closed : Bool := false
  flushed : Bool := false
  failed : Bool := false
  /-- Writes of the fill still outstanding, FLAG excluded. -/
  writes : Nat := 0
  flagSent : Bool := false
  deriving DecidableEq, Repr, Inhabited

/-- One stream of a context beyond its dictionary objects: R39, R43, R181, R251 to R264, R346. -/
structure StreamSt where
  tail : Word := 0
  head : Word := 0
  fetched : Word := 0
  /-- HEAD as last reported (R43), PROD as last reported (R252). -/
  headRep : Word := 0
  prodRep : Word := 0
  entries : List Fetched := []
  /-- Fetch reads in flight: first count and entries not yet in (R181). -/
  inFlight : List (Word × Nat) := []
  /-- Count of the next entry to be admitted (R42). -/
  next : Word := 0
  gen : Option GenExp := none
  /-- Entries below this count are completed with CANCELLED (R67). -/
  cancelTo : Option Word := none
  /-- Doorbells that cover entries not yet fetched: the TAIL each gave and its time (R195). -/
  bells : List (Word × Nat) := []
  /-- How often the stream has been enabled, what is left of earlier runs, and the place of the next descriptor (R264). -/
  ep : Nat := 0
  old : List OldRun := []
  dord : Nat := 0
  rcons : Word := 0
  scred : Word := 0
  prod : Word := 0
  /-- Ring entries issued; those not yet completed are issued - prod. -/
  issued : Word := 0
  /-- Issued ring entries whose write has completed, above prod (R252). -/
  ringDone : List Word := []
  fills : Word := 0
  hem : List HemItem := []
  pages : Nat := 0
  /-- At RB_FULL (R249), and the pages that were in use when they last grew during this wait. -/
  rbFull : Bool := false
  rbMark : Nat := 0
  open_ : Option Fill := none
  closing : List Fill := []
  /-- Ring entries issued and not yet passed by PROD: count, and the record with what its delivery does (R248, R252). -/
  ringOut : List (Word × HemItem) := []
  /-- The entry whose write failed, and the entries to write again (R253). -/
  ringFail : Option Word := none
  retry : List Word := []
  deriving DecidableEq, Repr, Inhabited

/-- A command or post waiting in the Bodkin (R270, R277). -/
structure BdkPost where
  key : Nat
  status : Nat
  ctx : Nat
  deriving DecidableEq, Repr, Inhabited

/-- One context beyond its dictionary objects: R65, R201, R270, R272, R286. -/
structure CtxSt where
  /-- CTX_STATUS OVER_PARK and OVER_EXT (R66). -/
  overPark : Bool := false
  overExt : Bool := false
  cmds : List BdkWords := []
  bcred : Word := 0
  replies : Word := 0
  /-- Spilled slots in the order written, with their sequence in the ring of the window (R199). -/
  spill : List Nat := []
  spillTail : Nat := 0
  spillFailed : Bool := false
  reloading : Bool := false
  postStop : Bool := false
  readyStop : Bool := false
  replyFull : Bool := false
  /-- Tile to answer with MAINT_ACK when the index command ends, and the frame's MIGID (R364). -/
  maintFrom : Option (Nat × Nat) := none
  aborting : Bool := false
  deriving DecidableEq, Repr, Inhabited

/-! ## Handles, pinned copies, caches (R96, R304, R308, R312) -/

/-- One index handle (R96, R97, R187, R304). -/
structure Handle where
  state : Nat := 0
  owner : Nat := 0
  inflight : Nat := 0
  /-- The 128-byte index-table entry (R69). -/
  entry : Nat := 0
  /-- Root recorded under R187: type, ORIGIN as three F32 and exponents; rootBox false means cell 0. -/
  rootBox : Bool := false
  origin : Nat := 0
  exps : Nat := 0
  rlen : Nat := 0
  units : Nat := 0
  copying : Bool := false
  /-- The number of the copy in flight (R304), and whether this round of extensions has had the handle (R305). -/
  copyJob : Option Nat := none
  extended : Bool := false
  low : Bool := false
  /-- The context whose LOAD is reading an image for this handle. -/
  loading : Option Nat := none
  /-- 1: a LOAD, 2: a REFIT_END, 3: an extension (R305) waits for the copy; 0: none. -/
  phase : Nat := 0
  /-- The number of the root read in flight (R187). -/
  rootJob : Option Nat := none
  deriving DecidableEq, Repr, Inhabited

/-- One way of a node-cache set (R308). -/
structure NcWay where
  way : Nat
  port : Nat := 0
  line : Nat := 0
  /-- Valid bit per sector. -/
  valid : Nat := 0
  data : Nat := 0
  locked : Bool := false
  filling : Bool := false
  /-- The fill must not be kept (R320). -/
  noKeep : Bool := false
  deriving DecidableEq, Repr, Inhabited

/-- A node-cache set: the ways that are not plain invalid, and the pseudo-LRU bits. -/
structure NcSet where
  ways : List NcWay := []
  plru : Nat := 0
  deriving DecidableEq, Repr, Inhabited

/-- One way of a Lining-cache set (R312). -/
structure LcWay where
  way : Nat
  port : Nat := 0
  line : Nat := 0
  valid : Nat := 0
  dirty : Bool := false
  data : Nat := 0
  /-- Bytes written while the line is being fetched (R313). -/
  wmask : Nat := 0
  filling : Bool := false
  /-- The fill must not be kept (R320). -/
  noKeep : Bool := false
  /-- It is to be written back once its fill is in (R318, R319). -/
  back : Bool := false
  deriving DecidableEq, Repr, Inhabited

/-- A Lining-cache set. -/
structure LcSet where
  ways : List LcWay := []
  plru : Nat := 0
  deriving DecidableEq, Repr, Inhabited

/-- A line in the eviction buffer of a Lining controller (R315). -/
structure EvLine where
  port : Nat
  line : Nat
  data : Nat
  /-- The controller. -/
  ctl : Nat := 0
  /-- It must not be installed again (R320). -/
  noKeep : Bool := false
  deriving DecidableEq, Repr, Inhabited

/-- An access of up to 64 bytes to a cached window that waits for an eligible victim (R315): a piece of a read job (job, offset),
or a spill write of context ctx. -/
structure LcReq where
  port : Nat
  pa : Nat
  ctx : Nat
  job : Option (Nat × Nat) := none
  data : Nat := 0
  mask : Nat := 0
  deriving DecidableEq, Repr, Inhabited

/-- What a translation gives (R296). -/
structure Trans where
  port : Nat
  pa : Nat
  cache : Bool
  ctrl : Nat
  deriving DecidableEq, Repr

/-! ## Ports (R338 to R351) -/

/-- What a read of several pieces is for; it is handed to this purpose when every piece is in. -/
inductive Purp where
  | fetch (c st ep bell : Nat) (first cnt : Word)
  | shot (c st : Nat)
  | cont (slot uid : Nat)
  | idxImage (c h : Nat)
  | rootRead (h id : Nat)
  | pinCopy (h off id : Nat)
  | bstHeader
  | bstImage (len : Nat)
  | slotHdr (c st ep : Nat)
  | spillRd (c slot uid : Nat)
  | keyVec (slot uid : Nat)
  | qVec (slot uid : Nat)
  | migVec (slot uid : Nat)
  | redesc (slot uid : Nat)
  | reshot (slot uid desc : Nat)
  | lockWalk
  deriving DecidableEq, Repr, Inhabited

/-- A read of several 64-byte pieces in progress. err: 0 none, 1 window fault, 2 error completion. -/
structure Job where
  purp : Purp
  ctx : Nat
  addr : Nat
  len : Nat
  left : Nat := 0
  data : Nat := 0
  err : Nat := 0
  /-- The first byte offset that met an error, for RLEN (R304). -/
  errAt : Nat := 0
  deriving DecidableEq, Repr, Inhabited

/-- What a write is for. -/
inductive WPurp where
  | headWb (c st : Nat)
  | resWb (c st : Nat)
  | ringEnt (c st ep : Nat) (idx : Word)
  | slotRow (c st ep fill : Nat)
  | slotFlag (c st ep fill : Nat)
  | trace (c st : Nat)
  /-- Bytes 0x00 to 0x0B of reply n + 1 at tile-virtual address a, and its RSEQ (R272). -/
  | reply (c a : Nat) (n : Word)
  | rseq (c : Nat)
  | dispatch (e t : Nat) (d : Word)
  | dseq (e t : Nat) (d : Word)
  | spillWr (c slot uid : Nat)
  | lcBack (port line : Nat) (op : Bool)
  deriving DecidableEq, Repr, Inhabited

/-- A request on a memory or host port: a line or sector read, or a write (R339). -/
structure PReq where
  wr : Bool
  addr : Nat
  /-- The module of the port that carries it (R337). -/
  lane : Nat := 0
  /-- RD256 or WR256. -/
  big : Bool := false
  crit : Nat := 0
  rel : Bool := false
  /-- Sectors not yet returned. -/
  left : Nat := 0
  /-- Set for rerouted memory traffic: RMP. -/
  rmp : Option Nat := none
  /-- Install in the Lining cache. -/
  toLc : Bool := false
  /-- Bobbins whose node cache waits for the line. -/
  nc : List Nat := []
  /-- Jobs that wait: (job, sector, byte offset in the job's data). -/
  jobs : List (Nat × Nat × Nat) := []
  data : Nat := 0
  mask : Nat := 0
  wp : Option WPurp := none
  ctx : Nat := 0
  attempts : Nat := 0
  /-- A sector came with an error completion. -/
  err : Bool := false
  deriving DecidableEq, Repr, Inhabited

/-- The mailbox operation held by a host port (R348). -/
structure MbOp where
  write : Bool
  index : BitVec 16
  sub : BitVec 8
  deriving DecidableEq, Repr, Inhabited

/-- One port beyond its dictionary objects. -/
structure PortSt where
  /-- A retrain at x32 is under way, and the module whose lane fault began it (R338). -/
  retrain : Bool := false
  faulty : Nat := 0
  rds : Tbl PReq := []
  wrs : Tbl PReq := []
  nextRd : Nat := 0
  nextWr : Nat := 0
  waiting : List PReq := []
  forced : List (Bool × Nat) := []
  /-- The far end's REQ credits in use by the tile: headers and 64-byte data units (R343). -/
  reqHead : Nat := 0
  reqData : Nat := 0
  /-- On a host port, the tile's REQ credits in use by the host: its requests that the tile has not served yet (R343). -/
  hostHead : Nat := 0
  hostData : Nat := 0
  mbStatus : Word := 0
  mbLen : Word := 0
  mbData : BitVec 512 := 0
  mbOp : Option MbOp := none
  /-- Seam credits held (R354), in units of 64 bytes, and credits to return. -/
  credN : Nat := 0
  credE : Nat := 0
  retN : Nat := 0
  retE : Nat := 0
  /-- Frames that wait for channel credit, oldest first (R354). -/
  seamQ : List SeamFrame := []
  /-- The last frame for each home went on ALT (R353): homes so marked. -/
  alt : List Nat := []
  deriving DecidableEq, Repr, Inhabited

/-! ## Migration (R358) -/

/-- One entry of the migration table. -/
structure MigEntry where
  used : Bool := false
  ctx : Nat := 0
  slot : Nat := 0
  gen : Nat := 0
  subtrail : Nat := 0
  home : Nat := 0
  attempts : Nat := 0
  staged : List (Nat × Nat) := []
  pages : Nat := 0
  /-- A RESULT that waits for its records. -/
  res : Option SeamFrame := none
  /-- Freed at the origin; the entry waits for its RESULT or the last timeout (R365). -/
  orphan : Bool := false
  /-- BUSY was answered and MIG_BACKOFF runs. -/
  backoff : Bool := false
  deriving DecidableEq, Repr, Inhabited

/-! ## Ring interface (R402 to R426) -/

/-- A request of the tile to a peer service (R421). -/
structure PeerReq where
  tid : BitVec 8
  write : Bool
  dst : BitVec 8
  index : BitVec 16
  sub : BitVec 8
  offset : Nat := 0
  len : Nat := 0
  data : List Byte := []
  retries : Nat := 0
  /-- The set point asked for, for the regulator. -/
  mv : Nat := 0
  deriving DecidableEq, Repr, Inhabited

/-- A dictionary request waiting for the Tailor (R415). -/
inductive TReq where
  | ring (f : RingFrame)
  | mailbox (hp : Nat)
  deriving DecidableEq, Repr, Inhabited

/-- A DOMAIN write in progress (R413): source, next offset and the bytes so far. -/
structure DomWrite where
  key : Nat
  src : Nat
  next : Nat
  bytes : Nat
  deriving DecidableEq, Repr, Inhabited

/-- The ring interface. -/
structure RingSt where
  bypassOpen : Bool := false
  dup : List (Nat × Nat × RingFrame) := []
  queue : List TReq := []
  domW : List DomWrite := []
  store : Option PeerReq := none
  vreg : Option PeerReq := none
  nextTid : BitVec 8 := 0
  /-- Unacknowledged events: ESEQ and DATA. -/
  events : List (BitVec 16 × List Byte) := []
  /-- Sources already counted as denied (R417). -/
  denied : List Nat := []
  storeBad : Bool := false
  /-- Log segments still to be written. -/
  storeQ : List (Nat × List Byte) := []
  fwBytes : Nat := 0
  fwLen : Option Nat := none
  /-- RESET_CMD or RING_RST accepted: applied after the RESP. -/
  after : Nat := 0
  deriving DecidableEq, Repr, Inhabited

/-! ## Power, clocks, start (chapters 16 and 17) -/

/-- A start in progress (R467). wait: 1 EXTEST holds step 1, 4 the log read, 5 the set point's RESP, 6 VSETTLE. -/
structure StartProg where
  warm : Bool
  env : StartEnv
  wait : Nat
  seg : Nat := 0
  commanded : Bool := true
  /-- The kind asked for was warm. -/
  askedWarm : Bool := false
  deriving DecidableEq, Repr, Inhabited

/-- Pins, clocks and the margin plan beyond their dictionary objects. -/
structure PowerSt where
  vddW : Bool := true
  pwrok : Bool := false
  rstN : Bool := false
  /-- 0 none, 1 SLEEP, 2 HOLD: what the DRAIN in progress is for; and whether POWER_CMD asked for it. -/
  drainFor : Nat := 0
  drainCmd : Bool := false
  quiesced : Bool := false
  /-- The clean and the log write before HOLD are under way. -/
  holdClean : Bool := false
  waking : Bool := false
  /-- POWER_CMD HOLD was accepted in SLEEP: DRAIN follows the wake. -/
  holdAfterWake : Bool := false
  /-- An automatic or commanded ABORT that waits for RUN (R472). -/
  abortAfterWake : Nat := 0
  thermal : Nat := 800
  plan : Nat := 800
  thermalStop : Bool := false
  aPrev : Nat := 0
  nvMax : Nat := 0
  /-- The step count last confirmed. -/
  nvConf : Nat := 0
  settling : Bool := false
  frozen : Bool := false
  /-- Excluded probes, those of them excluded at birth, and last readings (R452). -/
  excluded : Nat := 0
  birthOut : Nat := 0
  lastR : Tbl Nat := []
  pwrokFell : Bool := true
  eqSaved : Bool := false
  start : Option StartProg := none
  /-- Lifetime log held by the Tailor: the 256 segments, and whether a log exists. -/
  log : Tbl Nat := []
  logExists : Bool := false
  /-- Hits and misses of the Lining cache at the last window, and windows since the last SHIFT (R460). -/
  lcHits0 : Nat := 0
  lcMiss0 : Nat := 0
  sinceShift : Nat := 16
  /-- Contexts in abort, commanded as all. -/
  abortMask : Nat := 0
  /-- Test port: 0 BYPASS, 1 IDCODE, 2 SAMPLE/PRELOAD, 3 EXTEST, 4 CLAMP, 5 HIGHZ; and the boundary register. -/
  tap : Nat := 1
  tapData : Nat := 0
  tapBoundary : Nat := 0
  deriving DecidableEq, Repr, Inhabited

/-- A maintenance operation in progress (R317). -/
structure MaintOp where
  /-- OP, and MT_OP as a whole when the operation started. -/
  op : Nat
  word : Nat := 0
  /-- For LOCK_INDEX: the handle and the levels. -/
  handle : Nat := 0
  levels : Nat := 0
  /-- The Bobbins targeted. -/
  bobs : List Nat := []
  /-- Lines still to lock: (Bobbin, address). -/
  todo : List (Nat × Nat) := []
  /-- Nodes of LOCK_INDEX still to visit, breadth first: (long reference, level); and whether the first is being read. -/
  refs : List (Nat × Nat) := []
  reading : Bool := false
  /-- Fills in flight that it reached (R320): (Bobbin, or 48 for the Lining cache; port; line). -/
  fills : List (Nat × Nat × Nat) := []
  deriving DecidableEq, Repr, Inhabited

end Sys2Proof.Machine
end

