-- ==== Sys2Proof/Machine/Unit.lean ====
section
/-! DEFINITION. The working state of the Bobbins, the Baste engines and the Bodkin. -/

namespace Sys2Proof.Machine

/-! ## Ray store (R17, R108, R117, R121) -/

/-- An entry of the short stack (R108). -/
structure StackE where
  ty : Nat
  plevel : Nat
  tkey : Nat
  addr : Nat
  deriving DecidableEq, Repr, Inhabited

/-- One instance on the current path (R121): the level of its node, the ray in its space and its marks. -/
structure Space where
  level : Nat
  inst : Nat
  flip : Bool
  opq : Bool
  /-- XFORM: twelve FP32 patterns. -/
  xf : Nat
  o : Vec3
  d : Vec3
  deriving DecidableEq, Repr, Inhabited

/-- The next item of a walk: type, address and level. -/
structure Item where
  ty : Nat
  addr : Nat
  level : Nat
  deriving DecidableEq, Repr, Inhabited

/-- A sample of a traced network leaf that waits for its release (R60). -/
structure Sample where
  t : Nat
  sample : Nat
  nout : Nat
  leaf : Nat
  outs : Nat
  /-- The hit this sample produced. -/
  key : Option Hit := none
  deriving DecidableEq, Repr, Inhabited

/-- The local copy a leaf handoff works on (R211): the query's bound, best hit and list, and what the leaf adds. -/
structure Loc where
  tmax : Nat := 0
  haveHit : Bool := false
  /-- The best register (R117): none while it is invalid. -/
  best : Option Hit := none
  /-- BEST (PRIM and GEOM), BEST_INST and the t of BEST. -/
  bestW : Nat := 0
  bestInst : Nat := 0
  bestT : Nat := 0
  list : List LEntry := []
  /-- BOUND of a metric kind (R143). -/
  bound : Nat := 0
  collected : List Hit := []
  pend : List Rec := []
  samples : List Sample := []
  /-- The main walk ends after this leaf. -/
  ended : Bool := false
  truncated : Bool := false
  extChanged : Bool := false
  /-- A fault met on the way. -/
  fault : Option Nat := none
  deriving DecidableEq, Repr, Inhabited

/-- A leaf handoff in flight (R103): unit 1 intersector, 2 leaf array, 3 Baste; its order number and what is left of it. -/
structure Handoff where
  unit : Nat
  order : Nat
  /-- The block's bytes, once read, and its map descriptor. -/
  block : Option Nat := none
  map : Nat := 0
  /-- Next primitive. -/
  step : Nat := 0
  /-- Entries of the pending-record buffer that it holds for what it may add (R116, R147, R171). -/
  hold : Nat := 0
  loc : Loc := {}
  /-- A candidate whose any-hit filter is due, with its opacity state. -/
  cand : Option (Hit × Nat) := none
  /-- The Baste engine that runs it. -/
  engine : Option Nat := none
  /-- The weight-buffer bank that it was given a slot in before the bank's change of role was pending (R174). -/
  wbank : Option Nat := none
  deriving DecidableEq, Repr, Inhabited

/-- A ray-store entry (R17) with the Needle's state for it. phase: 0 main walk, 1 waits for the finishing buffer,
2 finishing walk, 3 walk ended, 4 the repeated test of a valid best register (R119). -/
structure Entry where
  slot : Option Nat := none
  /-- Retired after an uncorrectable error (R372, R394). -/
  retired : Bool := false
  order : Nat := 0
  qr : QRec := {}
  /-- Level of the item the walk starts from: of the stub for a migrated query (R359). -/
  base : Nat := 0
  stack : List StackE := []
  dropped : Bool := false
  item : Option Item := none
  spaces : List Space := []
  phase : Nat := 0
  /-- T_lo and T_hi of the finishing walk (R118). -/
  tlo : Nat := 0
  thi : Nat := 0
  best : Option Hit := none
  /-- Of the best register: the leaf-block address, and the spaces of its path, the winner's last, with the ray there (R117). -/
  bestLeaf : Nat := 0
  bestSpaces : List Space := []
  remoteForm : Bool := false
  collected : List Hit := []
  /-- Pending records of streamed kinds (R116, R147). -/
  pend : List Rec := []
  samples : List Sample := []
  ops : Nat := 0
  op : Option Handoff := none
  /-- Terminal status decided before the walk could end. -/
  status : Option Nat := none
  truncated : Bool := false
  /-- TDEPTH of the trail it was loaded with, while it re-descends (R392). -/
  redescend : Nat := 0
  /-- A park has been asked for; a loss has been suffered (R377). -/
  parkAsked : Bool := false
  /-- A release of it waits for pages, and it does not issue (R249). -/
  relWait : Bool := false
  /-- The Needle has asked for this item's data (hit ratio of R189). -/
  counted : Bool := false
  /-- Query vector read, NQ (R141), PQ table slot (R149). -/
  vec : List Nat := []
  vecState : Nat := 0
  /-- The weight-buffer bank that holds the PQ table, 2 for both (R149), the table so far, and a wait for a slot. -/
  pqSlot : Option Nat := none
  pqTab : List Nat := []
  pqWait : Bool := false
  /-- Sectors that the item or handoff waits for: port and physical address over 64 (R103). -/
  waits : List (Nat × Nat) := []
  /-- Lines whose fill was invalidated while the item waited for it: port, line, and the bytes once they are in (R320). -/
  owed : List (Nat × Nat × Option Nat) := []
  /-- The translations under which its sectors are being read, by virtual address over 64: they stand (R298). -/
  held : List (Nat × Trans) := []
  deriving DecidableEq, Repr, Inhabited

/-- A weight slot (R173): its bank, the leaf's port and physical address, the leaf's bytes, and whether the fill has ended
and how; `used` orders slots by their last use. -/
structure WSlot where
  bank : Nat
  port : Nat
  pa : Nat
  data : Nat := 0
  ready : Bool := false
  /-- The status that the fill's checks gave, 0 for none. -/
  bad : Nat := 0
  used : Nat := 0
  /-- Context, stream, handle and tile-virtual address the fill reads through. -/
  ctx : Nat := 0
  strm : Nat := 0
  hnd : Nat := 0
  addr : Nat := 0
  size : Nat := 0
  /-- The sectors that the fill read, and the translations under which it reads (R298). -/
  secs : List (Nat × Nat) := []
  held : List (Nat × Trans) := []
  deriving DecidableEq, Repr, Inhabited

/-- A Bobbin beyond its counters. clock: 0 awake, 1 clock-stopped, 2 power-gated, 3 waking from gated, 4 waking from
clock-stopped (R447, R448). Reset gives power-gated. -/
structure BobSt where
  clock : Nat := 2
  drain : Bool := false
  needleStop : Nat := 0
  lastNeedle : Nat := 15
  /-- Node-cache line fills in flight (R309). -/
  trackers : Nat := 0
  /-- Being withdrawn (R374). -/
  wd : Bool := false
  /-- Banks in the PQ role, and banks pending to change role (R173, R174). -/
  pqBanks : Nat := 2
  pendBanks : Nat := 0
  wslots : List WSlot := []
  deriving DecidableEq, Repr, Inhabited

/-- A gated Bobbin keeps its identity and loses its contents (R448). -/
def BobSt.gated (v : BobSt) : BobSt := { clock := 2, lastNeedle := v.lastNeedle, wd := v.wd }

/-! ## Baste engines (R214 to R226) -/

/-- FLAGS (R215). -/
structure Flags where
  n : Bool := false
  z : Bool := false
  c : Bool := false
  v : Bool := false
  dz : Bool := false
  fx : Bool := false
  deriving DecidableEq, Repr, Inhabited

/-- A Baste engine: the registers of R214 and R226, its stores, and the invocation in progress. -/
structure Engine where
  /-- The ray-store entry whose handoff it runs; none while it is free. -/
  ent : Option Nat := none
  /-- INVKIND of the invocation in progress (R209), 0 between invocations; its primitive and its program. -/
  kind : Nat := 0
  prim : Nat := 0
  prog : Nat := 0
  a : Word := 0
  x : BitVec 16 := 0
  y : BitVec 16 := 0
  ct : BitVec 16 := 0
  fl : Flags := {}
  pc : Nat := 0
  /-- Return stack, the last push first. -/
  stack : List (BitVec 16) := []
  /-- Repetitions still due of the instruction at PC; 0 when it is not repeated (R236). -/
  rep : Nat := 0
  /-- In the trap state (R237). -/
  trapped : Bool := false
  ectrl : Nat := 0
  tcause : Nat := 0
  tflg : BitVec 8 := 0
  tpc : BitVec 16 := 0
  tinsn : Word := 0
  ta : Word := 0
  tx : BitVec 16 := 0
  ty : BitVec 16 := 0
  tct : BitVec 16 := 0
  trem : BitVec 16 := 0
  budget : Nat := 65536
  /-- ENGINE (R226). -/
  num : Nat := 0
  /-- Word of the instruction executed last, the trapping one of a BUDGET or PC_RANGE trap. -/
  last : Word := 0
  /-- PBASE (R224). -/
  pbase : Nat := 0
  /-- The work area in words. -/
  work : Tbl Nat := []
  /-- The bytes of the primitive, query and candidate windows. -/
  primW : Nat := 0
  queryW : Nat := 0
  candW : Nat := 0
  /-- The handoff as the engine took it (R245). -/
  loc0 : Loc := {}
  step0 : Nat := 0
  cand0 : Option (Hit × Nat) := none
  deriving DecidableEq, Repr, Inhabited

/-! ## Bodkin (R268 to R289) -/

/-- Counts of an endpoint (R288): dispatched and consumed. -/
structure Endpoint where
  disp : Word := 0
  cons : Word := 0
  /-- Dispatches whose writes have met an error completion (R285). -/
  bad : List Word := []
  deriving DecidableEq, Repr, Inhabited

/-- State of a thread descriptor (R273). -/
inductive ThrSt where
  | free | waiting | ready | dispatched
  deriving DecidableEq, Repr, Inhabited

/-- A thread descriptor (R273, R274, R277). -/
structure Thread where
  st : ThrSt := .free
  ctx : Nat := 0
  tag : Nat := 0
  nexp : Nat := 0
  group : Nat := 0
  cls : Nat := 0
  flow : Nat := 0
  flowEn : Bool := false
  ord : Bool := false
  /-- Its last endpoint. -/
  lastEp : Option Nat := none
  arm : Word := 0
  matched : Nat := 0
  registered : Nat := 0
  nbad : Nat := 0
  firstBad : Nat := 0
  /-- The CLK_F count at which it became READY, and its place in spawn order (R279). -/
  readyAt : Nat := 0
  spawnOrd : Nat := 0
  /-- READY for AGE_LIMIT (R280); its wait for its last endpoint has expired (R281); ACK_LATE has been raised (R284). -/
  aged : Bool := false
  affOver : Bool := false
  warned : Bool := false
  /-- Endpoint and dispatch count of its record, from the dispatch until it leaves DISPATCHED. -/
  sent : Option (Nat × Word) := none
  deriving DecidableEq, Repr, Inhabited

/-- An expectation (R276): its number in the order of registration, its context and thread, the operand key of its first SEQ, and the keys it still awaits. -/
structure Expect where
  id : Nat
  ctx : Nat
  thread : Nat
  key : Nat
  count : Nat
  remaining : Nat
  deriving DecidableEq, Repr, Inhabited

/-- An orphan (R277): an operand that no expectation covers yet. -/
structure Orphan where
  ctx : Nat
  key : Nat
  status : Nat
  deriving DecidableEq, Repr, Inhabited

end Sys2Proof.Machine
end

