-- ==== Sys2Proof/Machine/State.lean ====
section
/-! DEFINITION. The state of the tile, the reasons it can stop, and the state after reset. -/

namespace Sys2Proof.Machine

/-- The machine has no fault of its own: every failure the manual names is a status, a cause or a discard (R61, R433).
This reason is kept for the interface; no meaning raises it (safe). -/
inductive Fault where
  /-- Raised by no meaning. -/
  | none
  deriving DecidableEq, Repr

/-- Why a step is refused. -/
inductive Refusal where
  /-- The command has no meaning in the model (safe: the run stops). Raised by Dispatch alone. -/
  | notModelled (mnemonic : String)
  deriving DecidableEq, Repr

/-- What the tile has sent on a wire whose far end the model does not hold (log 4). -/
inductive Output where
  /-- A ring frame (R405). -/
  | ring (f : RingFrame)
  /-- A seam frame on SP.sp (R355). -/
  | seam (sp : Nat) (f : SeamFrame)
  /-- A packet on a memory or host port: the request with its tag (R339). -/
  | pkt (p tag : Nat) (r : PReq)
  deriving DecidableEq, Repr

/-- Something that has completed and waits to be handed to the unit that asked for it. -/
inductive Due where
  /-- A read job with every piece in. -/
  | job (j : Job)
  /-- A write of context c completed; bad tells an error completion or a window fault. -/
  | wrote (c : Nat) (w : WPurp) (bad : Bool)
  /-- A node-cache line fill ended in an error completion for the queries that wait for it (R310, R377). -/
  | ncError (b port line : Nat)
  /-- A Lining-cache line fill for context c ended in an error completion. -/
  | lcError (c port line : Nat)
  deriving DecidableEq, Repr

/-- The partition in force (R299, R303), in MiB. -/
structure Part where
  pin : Nat := 0
  park : Nat := 0
  bin : Nat := 0
  rb : Nat := 0
  lc : Nat := 0
  deriving DecidableEq, Repr

/-- Whole-tile stores of the Pleater, the Hem, the Bodkin and the Lining that no unit table holds. -/
structure TileSt where
  /-- The class-0 queue, oldest first (R185, R194). -/
  cl0 : List Nat := []
  /-- Bins: directory, mixed and escape (R190, R198). -/
  bins : Tbl Bin := []
  /-- Slots on the hold list, in order (R99). -/
  holds : List Nat := []
  /-- Key scheme: BEST, TRIAL, trial in force, H_best, decisions made, latched H (R189). -/
  best : Option Nat := none
  trial : Option Nat := none
  hBest : Nat := 0
  decisions : Nat := 0
  latched : Option Nat := none
  hits0 : Nat := 0
  misses0 : Nat := 0
  sinceInterval : Nat := 0
  /-- Round-robin positions of fetch, generation and class weights (R181, R48, R193). -/
  rrFetch : Nat := 0
  rrGen : Nat := 0
  /-- Release places that classes 1 to 3 are owed, in units of 2^-32 of one (R193; log 19). -/
  wCredit : List Int := [0, 0, 0]
  /-- Queries whose key is read and whose bin has no room: new admissions, oldest first (R198). -/
  keyWait : List Nat := []
  /-- Queries that were lost with their spill window (R203, R377). -/
  lossWait : List Nat := []
  /-- Spilling goes on until occupancy is at SPILL_TARGET (R199). -/
  spilling : Bool := false
  /-- Posts waiting for the Bodkin, oldest first (R277, R286). -/
  posts : List BdkPost := []
  waitPosts : List BdkPost := []
  /-- The Bodkin: the context after the one it served last (R269); the cycle of its last step, that step's phase and how many steps of
  the phase the cycle has seen (R278); flows with the cycle in which they were released (R284, R285). -/
  bdkNext : Nat := 0
  bdkClk : Nat := 0
  bdkPhase : Nat := 0
  bdkDone : Nat := 0
  flowsFreed : List (Nat × Nat) := []
  /-- Eviction buffers, oldest first (R315). -/
  evict : List EvLine := []
  /-- Accesses to cached windows that wait for room in an eviction buffer, oldest first (R315). -/
  lcWait : List LcReq := []
  maint : Option MaintOp := none
  /-- A SHIFT or APPLY that waits: the sizes asked for (R301, R302). -/
  partOp : Option (Bool × Part) := none
  /-- The sizes of a SHIFT that waits for maintenance on the Lining cache (R333). -/
  partWait : Option Part := none
  /-- Scrub positions per controller; retired lines (R328, R329). -/
  scrubPos : Tbl Nat := []
  retired : List Nat := []
  passes : Tbl Nat := []
  /-- What the regions lose to retired lines until the next cold start (R329): 64 KiB units; parking slots, each once it is free; chunks;
  the entries that a chunk must lose first; pages; the queries (slot, uid) whose records a page must lose first; and ways of the Lining
  cache (8 × set + way). -/
  lostUnits : Nat := 0
  lostSlots : List Nat := []
  lostChunks : Nat := 0
  chunkOld : List (List Nat) := []
  lostPages : Nat := 0
  pageOld : List (Nat × Nat) := []
  lcOff : List Nat := []
  /-- Disabled node-cache ways: 16,384 × b + 16 × set + way (R373, R458). -/
  waysOff : List Nat := []
  /-- Uncorrectable errors of node-cache ways since the cold start, keyed as waysOff (R373). -/
  wayErrs : Tbl Nat := []
  /-- Failed requests of mending contexts that wait for MEND_DELAY (R381). -/
  mendWait : List (Nat × PReq) := []
  /-- MIGVEC bytes held: (sender tile × 2^32 + MIGID), vector bytes so far (R357). -/
  migVec : Tbl Nat := []
  /-- First mismatches in the interval, keyed kind × 2^20 + Bobbin × 64 + number (R371). -/
  mism : Tbl Nat := []
  /-- Baste image: 0 idle, 1 waiting for the engines, 2 reading the header, 3 reading the body (R220). -/
  imgStep : Nat := 0
  /-- RAY_CLOSEST parents with CONT = 1 whose continuations are not built yet, oldest first (R51). -/
  contWait : List Nat := []
  deriving DecidableEq, Repr

/-- The state of the tile. Plain data. Dictionary registers are in `obj`, keyed by index × 256 + subindex (R13); every
other store is a table whose default is its reset contents. -/
structure State where
  /-- The commands that wait, first in first out. -/
  pending : List Instr := []
  /-- Free values drawn so far; the n-th is Config.freeValue n (log 3). -/
  free : Nat := 0
  /-- CLK_F cycles counted (R184; log 2). -/
  clkF : Nat := 0
  /-- Loads, handoffs and spawns numbered in order (R103, R277, R280). -/
  order : Nat := 0
  /-- What the tile has sent, newest first (log 4). -/
  out : List Output := []
  /-- HWRs and seam frames held in SLEEP (R441). -/
  held : List Instr := []
  /-- Every dictionary register that does not hold its reset value. -/
  obj : Tbl Nat := []
  /-- CHALLENGE (R418). -/
  challenge : BitVec 64 := 0
  ring : RingSt := {}
  pwr : PowerSt := {}
  port : Tbl PortSt := []
  job : Tbl Job := []
  nextJob : Nat := 0
  /-- Completions not yet handed on. -/
  due : List Due := []
  ctx : Tbl CtxSt := []
  /-- Keyed context × 8 + stream. -/
  strm : Tbl StreamSt := []
  /-- Dispatch and consumed counts of endpoints (R288). -/
  ep : Tbl Endpoint := []
  thr : Tbl Thread := []
  expct : List Expect := []
  orphan : List Orphan := []
  /-- Round-robin cursor per core group (R281). -/
  cursor : Tbl Nat := []
  /-- Index handles. -/
  hnd : Tbl Handle := []
  /-- Pinned copies: sectors keyed handle × 2^26 + sector (R304). -/
  pin : Tbl Nat := []
  /-- Parking slots. -/
  slot : Tbl Query := []
  /-- Ray-store entries keyed Bobbin × 8,192 + entry (R17). -/
  rs : Tbl Entry := []
  bob : Tbl BobSt := []
  /-- Node-cache sets keyed Bobbin × 1,024 + set (R308). -/
  nc : Tbl NcSet := []
  /-- Lining-cache sets (R312). -/
  lc : Tbl LcSet := []
  /-- Baste engines keyed Bobbin × 4 + engine. -/
  eng : Tbl Engine := []
  /-- Baste code words and constant bytes in 32-bit words, common to every engine (R217). -/
  code : Tbl Nat := []
  const : Tbl Nat := []
  ectrlInit : Nat := 0
  /-- Migration table keyed class × 16,384 + entry (R358). -/
  mig : Tbl MigEntry := []
  part : Part := {}
  tile : TileSt := {}
  deriving DecidableEq, Repr

/-- The tile right after reset: VDD_W has been applied, PWROK is low, RST_N asserted, and PSTATE reads HOLD (R462,
R465; log 5). Every register is at the value its table gives. -/
def State.reset : State := {}

end Sys2Proof.Machine
end

