-- ==== Sys2Proof/Machine/Ops.lean ====
section
/-! DEFINITION. The named operations on State that every family uses: dictionary registers, the stores, causes and
events (R419, R420, R431, R435), ring frames (R405, R406), windows (R294 to R297) and port requests (R339 to R349). -/

namespace Sys2Proof.Machine

/-- The outcome type of every meaning. -/
abbrev Out := Host.Outcome State Fault Refusal

/-! ## Dictionary registers -/

/-- The value of a dictionary register (R427). -/
def State.o (s : State) (idx sub : Nat) : Nat := tget (objReset (okey idx sub)) s.obj (okey idx sub)

/-- Sets a dictionary register. -/
def State.oSet (s : State) (idx sub v : Nat) : State :=
  { s with obj := tset (objReset (okey idx sub)) s.obj (okey idx sub) v }

/-- Adds to a U64 counter, which wraps at 2^64. -/
def State.oAdd (s : State) (idx sub n : Nat) : State := s.oSet idx sub ((s.o idx sub + n) % 2 ^ 64)

/-- Counts one in a U64 counter. -/
def State.oInc (s : State) (idx sub : Nat) : State := s.oAdd idx sub 1

/-- A counter of cycles may have counted: until then it reads 0 (log 2). -/
def State.began (s : State) (idx sub : Nat) : State := if s.o idx sub = 0 then s.oSet idx sub 1 else s

/-- Context-table object o of context c, subindex sub (R13). -/
def State.co (s : State) (c o : Nat) (sub : Nat := 0) : Nat := s.o (0x3000 + 64 * c + o) sub
/-- Sets a context-table object. -/
def State.coSet (s : State) (c o : Nat) (v : Nat) (sub : Nat := 0) : State := s.oSet (0x3000 + 64 * c + o) sub v

/-- CTX_CTRL.EN (R62). -/
def State.ctxEn (s : State) (c : Nat) : Bool := bit (s.co c 0) 0
/-- CTX_CTRL.MENDING (R62). -/
def State.mending (s : State) (c : Nat) : Bool := bit (s.co c 0) 1
/-- CTX_CTRL.GRAIN (R62). -/
def State.grain (s : State) (c : Nat) : Bool := bit (s.co c 0) 2
/-- RING_CTRL of a stream (R45). -/
def State.ringCtrl (s : State) (c st : Nat) : Nat := s.co c (0x19 + 5 * st)
/-- RES_CTRL of a stream (R246). -/
def State.resCtrl (s : State) (c st : Nat) : Nat := s.co c 0x12 (1 + st)
/-- SLOT_CTRL of a stream (R246). -/
def State.slotCtrl (s : State) (c st : Nat) : Nat := s.co c 0x15 (1 + st)

/-! ## Stores -/

/-- A free value: the next of the stream that nothing constrains (log 3). -/
def State.draw (s : State) : BitVec 64 × State := (Config.freeValue s.free, { s with free := s.free + 1 })

/-- A field of a result that the manual leaves open: free, but fixed by `key` in a context of grain mode (R36; log 100). -/
def State.openVal (s : State) (c : Nat) (key : List Nat) : Nat × State :=
  if s.grain c then (Config.openField key, s) else (s.draw.1.toNat, s.draw.2)

/-- The same for several fields: the i-th of those that begin with the next free value. -/
def State.openFn (s : State) (c : Nat) (key : List Nat) (i : Nat) : Nat :=
  if s.grain c then Config.openField (key ++ [i]) else (Config.freeValue (s.free + i)).toNat

/-- The next number of the order of loads, handoffs and spawns. -/
def State.tick (s : State) : Nat × State := (s.order, { s with order := s.order + 1 })

def State.portOf (s : State) (p : Nat) : PortSt := tget {} s.port p
def State.modPort (s : State) (p : Nat) (f : PortSt → PortSt) : State := { s with port := tmod {} s.port p f }
def State.ctxOf (s : State) (c : Nat) : CtxSt := tget {} s.ctx c
def State.modCtx (s : State) (c : Nat) (f : CtxSt → CtxSt) : State := { s with ctx := tmod {} s.ctx c f }
def State.st (s : State) (c st : Nat) : StreamSt := tget {} s.strm (c * 8 + st)
def State.modSt (s : State) (c st : Nat) (f : StreamSt → StreamSt) : State :=
  { s with strm := tmod {} s.strm (c * 8 + st) f }
def State.hndOf (s : State) (h : Nat) : Handle := tget {} s.hnd h
def State.modHnd (s : State) (h : Nat) (f : Handle → Handle) : State := { s with hnd := tmod {} s.hnd h f }
def State.q (s : State) (k : Nat) : Query := tget {} s.slot k
def State.modQ (s : State) (k : Nat) (f : Query → Query) : State := { s with slot := tmod {} s.slot k f }
def State.ent (s : State) (b e : Nat) : Entry := tget {} s.rs (b * 8192 + e)
def State.modEnt (s : State) (b e : Nat) (f : Entry → Entry) : State :=
  { s with rs := tmod {} s.rs (b * 8192 + e) f }
def State.bobOf (s : State) (b : Nat) : BobSt := tget {} s.bob b
def State.modBob (s : State) (b : Nat) (f : BobSt → BobSt) : State := { s with bob := tmod {} s.bob b f }
def State.engOf (s : State) (b e : Nat) : Engine := tget {} s.eng (b * 4 + e)
def State.modEng (s : State) (b e : Nat) (f : Engine → Engine) : State := { s with eng := tmod {} s.eng (b * 4 + e) f }
def State.epOf (s : State) (e : Nat) : Endpoint := tget {} s.ep e
def State.modEp (s : State) (e : Nat) (f : Endpoint → Endpoint) : State := { s with ep := tmod {} s.ep e f }
def State.thrOf (s : State) (t : Nat) : Thread := tget {} s.thr t
def State.modThr (s : State) (t : Nat) (f : Thread → Thread) : State := { s with thr := tmod {} s.thr t f }
def State.migOf (s : State) (e : Nat) : MigEntry := tget {} s.mig e
def State.modMig (s : State) (e : Nat) (f : MigEntry → MigEntry) : State := { s with mig := tmod {} s.mig e f }
def State.modTile (s : State) (f : TileSt → TileSt) : State := { s with tile := f s.tile }
def State.modRing (s : State) (f : RingSt → RingSt) : State := { s with ring := f s.ring }
def State.modPwr (s : State) (f : PowerSt → PowerSt) : State := { s with pwr := f s.pwr }

/-! ## Power state (R439) -/

/-- PSTATE: 0 OFF, 1 HOLD, 2 SLEEP, 3 RUN, 4 DRAIN. -/
def State.pstate (s : State) : Nat := if s.pwr.vddW then s.o 0x4000 1 else 0
/-- In RUN. -/
def State.run (s : State) : Bool := s.pstate == 3
/-- The main domains are clocked: RUN or DRAIN. -/
def State.live (s : State) : Bool := s.pstate == 3 || s.pstate == 4

/-! ## Ring frames (R405, R406) -/

/-- One bit step of CRC-16/CCITT. -/
def crcBit (c : Nat) : Nat := if bit c 15 then (c * 2 % 65536) ^^^ 0x1021 else c * 2 % 65536
/-- One byte, most significant bit first. -/
def crcByte (c : Nat) (b : Byte) : Nat :=
  crcBit (crcBit (crcBit (crcBit (crcBit (crcBit (crcBit (crcBit (c ^^^ (b.toNat * 256)))))))))
/-- CRC-16/CCITT from 0xFFFF (R406). -/
def crc16 (bs : List Byte) : Nat := bs.foldl crcByte 0xFFFF

/-- The bytes of a frame from DST to the last DATA byte (R405). -/
def frameBytes (f : RingFrame) : List Byte :=
  [f.dst, f.src, f.ftype, f.tid] ++ toBytes 2 f.index.toNat ++ [f.sub, f.stat] ++ toBytes 4 f.offset.toNat ++
    toBytes 2 f.len.toNat ++ [f.fflags, f.res] ++ f.data

/-- The frame with its CRC computed. -/
def sealFrame (f : RingFrame) : RingFrame := { f with crc := BitVec.ofNat 16 (crc16 (frameBytes f)) }

/-- Own ring address: RING_ADDR (R425). -/
def State.addr (s : State) : Nat := s.o 0x1100 1

/-- Sends a frame of the tile's own, counted in FRAMES_TX (R400, R425); a closed bypass sends nothing (R402). -/
def State.sendRing (s : State) (f : RingFrame) : State :=
  if s.ring.bypassOpen then { s.oInc 0x1100 5 with out := .ring (sealFrame f) :: s.out } else s

/-- Relays a frame without counting it as the tile's own. -/
def State.relayRing (s : State) (f : RingFrame) : State :=
  if s.ring.bypassOpen then { s with out := .ring f :: s.out } else s

/-! ## Events and causes -/

/-- The frame of a held event (R419, R420). Its TID is not stated: a free value. -/
def eventFrame (s : State) (ev : BitVec 16 × List Byte) : RingFrame :=
  { dst := BitVec.ofNat 8 (s.o 0x1120 1), src := BitVec.ofNat 8 s.addr, ftype := 5,
    tid := BitVec.truncate 8 (Config.freeValue s.free), index := ev.1, sub := 0, stat := 0, offset := 0,
    len := BitVec.ofNat 16 ev.2.length, fflags := 0, res := 0, data := ev.2, crc := 0 }

/-- Sends one held event if the tile is addressed (R420). -/
def State.sendEvent (s : State) (ev : BitVec 16 × List Byte) : State :=
  if s.addr = 0xFE ∨ s.o 0x1120 1 = 0xFF then s
  else { s.sendRing (eventFrame s ev) with free := s.free + 1 }

/-- Sends every held event in ESEQ order (R420). -/
def State.sendHeld (s : State) : State := s.ring.events.foldl State.sendEvent s

/-- Queues one event: gives it the next ESEQ, drops the oldest of sixteen, holds and sends it. The answer tells the
ESEQ dropped (R419, R420). -/
def State.pushEvent (s : State) (data : List Byte) : State × Option Nat :=
  if s.o 0x1120 1 = 0xFF then (s, none)
  else
    let n := if s.o 0x1120 3 = 0xFFFF then 1 else s.o 0x1120 3 + 1
    let ev := (BitVec.ofNat 16 n, data)
    let dropped := if s.ring.events.length < 16 then none else s.ring.events.head?.map (fun e => e.1.toNat)
    let keep := if s.ring.events.length < 16 then s.ring.events else s.ring.events.drop 1
    let s1 := (s.oSet 0x1120 3 n).modRing (fun r => { r with events := keep ++ [ev] })
    let s2 := match dropped with
      | some _ => s1.oSet 0x1120 5 ((s1.o 0x1120 5 + 1) % 2 ^ 32)
      | none => s1
    (s2.sendEvent ev, dropped)

/-- GROUP and INSTANCE of a leaf index (R429). -/
def leafGroup (leaf : Nat) : Nat × Nat :=
  let g := (leaf - 0x5100) / 0x100
  (g, leaf - 0x5100 - 0x100 * g)

/-- DATA of an ECLASS 0x01 event (R435). -/
def causeData (leaf n rec : Nat) : List Byte :=
  [1, BitVec.ofNat 8 (leafGroup leaf).1] ++ toBytes 2 (leafGroup leaf).2 ++ [BitVec.ofNat 8 n, 0, 0, 0] ++ toBytes 4 rec

/-- Sets a cause bit and its record; tells whether the bit was 0 (R431). -/
def State.setCause (s : State) (leaf n what : Nat) : State × Bool :=
  let rec0 := s.o leaf (0x10 + n)
  if bit (s.o leaf 1) n then
    (s.oSet leaf (0x10 + n) (rec0 % 2 ^ 24 + min 255 (rec0 / 2 ^ 24 + 1) * 2 ^ 24), false)
  else
    ((s.oSet leaf 1 (s.o leaf 1 + 2 ^ n)).oSet leaf (0x10 + n) (what % 2 ^ 24 + 2 ^ 24), true)

/-- Raises RNG.EVT_LOST for a dropped ESEQ; the event of that raise can itself drop one (R420, R438). -/
def State.raiseLost (s : State) (eseq : Nat) : State :=
  match s.setCause 0x5800 3 eseq with
  | (s1, false) => s1
  | (s1, true) =>
    if bit (s1.o 0x5800 4) 3 then
      match s1.pushEvent (causeData 0x5800 3 (s1.o 0x5800 0x13)) with
      | (s2, some q) => (s2.setCause 0x5800 3 q).1
      | (s2, none) => s2
    else s1

/-- Queues an event frame and handles what it drops (R420). -/
def State.event (s : State) (data : List Byte) : State :=
  match s.pushEvent data with
  | (s1, some q) => s1.raiseLost q
  | (s1, none) => s1

/-- Raises cause n of a leaf object (R431, R435). -/
def State.raise (s : State) (leaf n what : Nat) : State :=
  match s.setCause leaf n what with
  | (s1, true) => if bit (s1.o leaf 4) n then s1.event (causeData leaf n (s1.o leaf (0x10 + n))) else s1
  | (s1, false) => s1

/-- WHAT where the listed item does not apply (R430). -/
def noWhat : Nat := 0xFFFFFF

/-- PEND of a leaf object (R430). -/
def State.pend (s : State) (leaf : Nat) : Nat := s.o leaf 1 &&& s.o leaf 2

/-- Instances of group g (R429). -/
def groupSize (g : Nat) : Nat := match g with | 0 => 48 | 2 => 48 | 8 => 64 | _ => 1

/-- The group register of group g: bit i is set while PEND of instance i is nonzero (R429, R432). -/
def State.groupReg (s : State) (g : Nat) : Nat :=
  (List.range (groupSize g)).foldl (fun a i => a + b2n (s.pend (0x5100 + 0x100 * g + i) != 0) * 2 ^ i) 0

/-- IRQ_SUM (R429). -/
def State.irqSum (s : State) : Nat :=
  (List.range 9).foldl (fun a g => a + b2n (s.groupReg g != 0) * 2 ^ g) 0

/-- IRQ_N is driven low (R434). -/
def State.irqLow (s : State) : Bool := s.pwr.vddW && (s.irqSum &&& s.o 0x5000 2) != 0

/-- A state or margin event (R463). -/
def State.stateEvent (s : State) : State :=
  s.event ([2, BitVec.ofNat 8 s.pstate] ++ toBytes 2 s.pwr.plan ++ toBytes 2 (s.o 0x4000 6) ++
    [BitVec.ofNat 8 (s.o 0x6000 5), BitVec.ofNat 8 (s.o 0x6000 8)] ++ toBytes 4 (s.o 0x6000 9))

/-- Enters a power state: PSTATE, the STATE cause and the state event (R440, R463). -/
def State.enter (s : State) (p : Nat) : State :=
  if s.o 0x4000 1 = p then s else ((s.oSet 0x4000 1 p).raise 0x5700 0 p).stateEvent

/-! ## Windows (R294 to R297) -/

/-- Register i (0 WVBASE, 1 WPBASE, 2 WCTRL) of window w of context c. -/
def State.win (s : State) (c w i : Nat) : Nat := s.o (0x2600 + c) (1 + 3 * w + i)

/-- Whether window w of context c is enabled and covers a (R296). -/
def State.winCovers (s : State) (c w a : Nat) : Bool :=
  bit (s.win c w 2) 0 && decide (s.win c w 0 ≤ a) && decide (a < s.win c w 0 + 4096 * fld (s.win c w 2) 32 32)

/-- Translates a tile-virtual address by the lowest-numbered enabled covering window (R296). -/
def State.translate (s : State) (c a : Nat) : Option Trans :=
  (firstIdx 64 (fun w => s.winCovers c w a)).map (fun w =>
    { port := fld (s.win c w 2) 8 5, pa := s.win c w 1 + (a - s.win c w 0), cache := bit (s.win c w 2) 4,
      ctrl := s.win c w 2 })

/-- The right an access needs (R297): the WCTRL bit. -/
inductive Right where
  | rd | wr | xi | rw | any
  deriving DecidableEq, Repr

def Right.holds (r : Right) (ctrl : Nat) : Bool :=
  match r with | .rd => bit ctrl 1 | .wr => bit ctrl 2 | .xi => bit ctrl 3 | .rw => bit ctrl 1 && bit ctrl 2 | .any => true

/-- A translation that has the right, or a window fault (R297). -/
def State.reach (s : State) (c a : Nat) (r : Right) : Option Trans :=
  match s.translate c a with
  | some t => if r.holds t.ctrl then some t else none
  | none => none

/-- A window fault of a context: counted, and WIN_FAULT raised (R297, R331). -/
def State.windowFault (s : State) (c what : Nat) : State :=
  (s.oInc 0x4330 0x0C).raise (0x5900 + c) 7 what

/-- Where the next enabled window of a context begins or ends above address p, at most e. -/
def State.nextEdge (s : State) (c p e : Nat) : Nat :=
  (List.range 64).foldl (fun m w =>
    if bit (s.win c w 2) 0 then
      let b := s.win c w 0
      let z := b + 4096 * fld (s.win c w 2) 32 32
      let m1 := if p < b ∧ b < m then b else m
      if p < z ∧ z < m1 then z else m1
    else m) e

/-- Whether every byte from p up to e is covered with the right: one step for each window edge. -/
def State.coverWalk (s : State) (c e : Nat) (r : Right) : (fuel : Nat) → Nat → Bool
  | 0, p => decide (e ≤ p)
  | f + 1, p => decide (e ≤ p) || ((s.reach c p r).isSome && State.coverWalk s c e r f (s.nextEdge c p e))

/-- Whether a range of bytes is covered with the right (R47, R296). -/
def State.coversRange (s : State) (c a len : Nat) (r : Right) : Bool := s.coverWalk c (a + len) r 160 a

/-! ## Port requests (R338 to R349) -/

/-- LSTATE of a port (R351). -/
def State.lstate (s : State) (p : Nat) : Nat := s.o (0x4400 + p) 1

/-- Reads outstanding over all memory and host ports (R341). -/
def State.readsOut (s : State) : Nat := (List.range 24).foldl (fun a p => a + (s.portOf p).rds.length) 0

/-- Bytes of a request. -/
def PReq.size (r : PReq) : Nat := if r.big then 256 else 64

/-- REQ data credits that a request takes: one for each 64 bytes of a write (R343). -/
def PReq.units (r : PReq) : Nat := if r.wr then r.size / 64 else 0

/-- Whether the far end's REQ credits allow a request: it has advertised 256 headers and 1,024 data units, or more (R343). -/
def State.reqCredit (s : State) (p : Nat) (r : PReq) : Bool :=
  let ps := s.portOf p
  let d := ps.reqData + r.units
  (decide (ps.reqHead < 256) || decide (ps.reqHead < 256 + Config.moreReqHead p)) &&
  (decide (d ≤ 1024) || decide (d ≤ 1024 + Config.moreReqData p))

/-- The packet that completes a request, or its forced completion, gives its REQ credits back (R343; log 117). -/
def PortSt.reqBack (ps : PortSt) (r : PReq) : PortSt := { ps with reqHead := ps.reqHead - 1, reqData := ps.reqData - r.units }

/-- Whether two byte ranges meet. -/
def meets (a n b m : Nat) : Bool := decide (a < b + m) && decide (b < a + n)

/-- Whether a request takes bytes of another: of the same memory, its own port's or that of the port it is rerouted for (R342, R349). -/
def PReq.meets (r w : PReq) : Bool := r.rmp == w.rmp && Machine.meets r.addr r.size w.addr w.size

/-- Whether a request can be issued now: link up, no retrain, within the limits and the far end's credits, and no outstanding write of
the bytes of a read (R338, R341 to R343). -/
def State.canIssue (s : State) (p : Nat) (r : PReq) : Bool :=
  let ps := s.portOf p
  (s.lstate p == 1 || s.lstate p == 2) && !ps.retrain && s.reqCredit p r &&
  (if r.wr then decide (ps.wrs.length < 1024)
   else decide (ps.rds.length < 4096) && decide (s.readsOut < 65536) &&
     !ps.wrs.any (fun w => r.meets w.2))

/-- A tag that is not outstanding, from `from` upward; one that was forced only if no other is left (R341, R344). -/
def pickTag (out : Tbl PReq) (forced : List Nat) (start : Nat) : Nat :=
  let free := fun i => (out.find? (fun e => e.1 == (start + i) % 4096)).isNone
  match firstIdx 4096 (fun i => free i && !forced.contains ((start + i) % 4096)) with
  | some i => (start + i) % 4096
  | none => match firstIdx 4096 free with
    | some i => (start + i) % 4096
    | none => start % 4096

/-- The module of port p that carries an address: PA[9:8] on a memory port, PA[8] on a host port (R337). -/
def portLane (p a : Nat) : Nat := if p < 16 then a / 256 % 4 else a / 256 % 2

/-- Puts a request on the wire (R337, R339, R341, R343). -/
def State.issue (s : State) (p : Nat) (r : PReq) : State :=
  let r := { r with lane := portLane p r.addr }
  let ps := s.portOf p
  let forced := (ps.forced.filter (fun f => f.1 == r.wr)).map (fun f => f.2)
  let tag := if r.wr then pickTag ps.wrs forced ps.nextWr else pickTag ps.rds forced ps.nextRd
  let s1 := s.modPort p (fun ps =>
    let ps := { ps with reqHead := ps.reqHead + 1, reqData := ps.reqData + r.units }
    if r.wr then { ps with wrs := tins ps.wrs tag r, nextWr := (tag + 1) % 4096 }
    else { ps with rds := tins ps.rds tag r, nextRd := (tag + 1) % 4096 })
  let s2 := if r.wr then s1.oAdd (0x4400 + p) 6 r.size else s1
  { s2 with out := .pkt p tag r :: s2.out }

/-- Whether a failed request of a mending context is issued again (R378, R381): a read, a spill write, or a result-ring, slot or trace
write that met no EOFF. -/
def PReq.retried (r : PReq) (eoff : Bool) : Bool :=
  match r.wp with
  | none | some (.spillWr _ _ _) => true
  | some (.ringEnt _ _ _ _) | some (.trace _ _) | some (.slotRow _ _ _ _) | some (.slotFlag _ _ _ _) => !eoff
  | some _ => false

/-- What an error completion of a request means for the units that wait on it. A request of a mending context is kept
for another attempt while MEND_RETRY allows (R381). -/
def State.failReq (s : State) (p : Nat) (r : PReq) (eoff : Bool := false) : State :=
  let s0 := s.oInc (0x4400 + p) 7
  if s.mending r.ctx && r.retried eoff && decide (r.attempts < s.o 0x7000 1) && (s.ctxOf r.ctx).aborting == false then
    s0.modTile (fun t => { t with mendWait := t.mendWait ++ [(p, { r with attempts := r.attempts + 1, left := if r.wr then 0 else if r.big then 15 else 1, err := false })] })
  else
    let dj := r.jobs.foldl (fun (s : State) (j : Nat × Nat × Nat) =>
      let job := tget { purp := .lockWalk, ctx := 0, addr := 0, len := 0 } s.job j.1
      let job := { job with left := job.left - 1, errAt := if job.err = 0 then j.2.2 else min job.errAt j.2.2,
                            err := 2 }
      if job.left = 0 then { s with job := tdel s.job j.1, due := s.due ++ [.job job] }
      else { s with job := tins (tdel s.job j.1) j.1 job }) s0
    let mp := r.rmp.getD p
    let dn := { dj with due := dj.due ++ r.nc.map (fun b => Due.ncError b mp (r.addr / 256)) ++ (if r.toLc then [.lcError r.ctx mp (r.addr / 256)] else []) }
    match r.wp with
    | some w => { dn with due := dn.due ++ [.wrote r.ctx w true] }
    | none => dn

/-- Sends a request: waits at the port where it must, follows REROUTE, and completes at once with an error on a failed
port (R338, R341, R349). -/
def State.send (s : State) (p : Nat) (r : PReq) : State :=
  let st := s.lstate p
  if st = 4 then
    let hp := 16 + fld (s.o (0x2800 + p) 1) 8 3
    let r' := { r with rmp := some p }
    if s.lstate hp = 1 ∨ s.lstate hp = 2 then
      if s.canIssue hp r' && (s.portOf hp).waiting.isEmpty then s.issue hp r'
      else s.modPort hp (fun ps => { ps with waiting := ps.waiting ++ [r'] })
    else s.failReq hp r'
  else if st = 1 ∨ st = 2 then
    if s.canIssue p r && (s.portOf p).waiting.isEmpty then s.issue p r
    else s.modPort p (fun ps => { ps with waiting := ps.waiting ++ [r] })
  else s.failReq p r

/-- Issues the requests that wait at a port and can go now, oldest first: no write passes a write, and no read a write of its bytes (R341,
R342). -/
def State.drainPort (s : State) (p : Nat) : State :=
  let ws := (s.portOf p).waiting
  let s0 := s.modPort p (fun ps => { ps with waiting := [] })
  ws.foldl (fun (s : State) r =>
    if s.canIssue p r && (s.portOf p).waiting.all (fun w => !(w.wr && (r.wr || r.meets w))) then s.issue p r
    else s.modPort p (fun ps => { ps with waiting := ps.waiting ++ [r] })) s0

/-- A request on port p of state old has completed: what waits at the port goes on, and at every port where the tile's limit of reads has
held requests back (R341). -/
def State.drainAfter (s old : State) (p : Nat) : State :=
  if old.readsOut < 65536 then s.drainPort p else (List.range 24).foldl (fun (s : State) k => s.drainPort k) s

/-! ## Parking units (R65) -/

/-- Units of parking in the partition: PARK_MB × 16,384 (R299), less the slots on retired lines that are free (R329). -/
def State.parkUnits (s : State) : Nat := s.part.park * 16384 - (s.tile.lostSlots.filter (fun k => (s.q k).place == .none)).length

/-- Sum of RESERVE_PARK over enabled contexts (R64, R65). -/
def State.reserves (s : State) : Nat :=
  (List.range 64).foldl (fun a c => a + (if s.ctxEn c then s.co c 3 else 0)) 0

/-- Units in use of the reserves and in all, migration pool apart. -/
def State.unitsUsed (s : State) : Nat :=
  s.slot.foldl (fun a e => a + (if e.2.place == .none || e.2.served.isSome then 0 else 1 + e.2.extBlocks)) 0
/-- Units of the reserve of context c in use (R65). -/
def State.resUsed (s : State) (c : Nat) : Nat :=
  s.slot.foldl (fun a e => if e.2.qr.ctx = c then a + e.2.fromReserve else a) 0
/-- Units in use that the reserves of enabled contexts hold. -/
def State.reserveUsed (s : State) : Nat :=
  (List.range 64).foldl (fun a c => a + (if s.ctxEn c then min (s.resUsed c) (s.co c 3) else 0)) 0
/-- USAGE_PARK: slots charged to context c (R62). -/
def State.usagePark (s : State) (c : Nat) : Nat :=
  (s.slot.filter (fun e => e.2.place != .none && e.2.qr.ctx == c && e.2.served.isNone)).length
/-- USAGE_EXT: extension blocks held by context c (R62). -/
def State.usageExt (s : State) (c : Nat) : Nat :=
  s.slot.foldl (fun a e => if e.2.qr.ctx = c ∧ e.2.served = none then a + e.2.extBlocks else a) 0

/-- Free units of the shared pool: every unit outside the reserves and the migration pool (R65, R366). -/
def State.poolFree (s : State) : Nat :=
  s.parkUnits - s.reserves - 4 * s.o 0x2700 2 - (s.unitsUsed - s.reserveUsed)

/-- The lowest free slot number. -/
def State.freeSlot (s : State) : Nat :=
  (firstIdx (s.slot.length + s.tile.lostSlots.length + 1) (fun i => (s.q i).place == .none && !s.tile.lostSlots.contains i)).getD s.slot.length

end Sys2Proof.Machine
end

