-- ==== Sys2Proof/Machine/Lining.lean ====
section
/-! DEFINITION. The caches and the reads that go through them: pseudo-LRU, the Lining cache with its eviction buffers
(R312 to R316), the node caches (R308 to R310), pinned copies (R304, R307) and read jobs (R296, R297). -/

namespace Sys2Proof.Machine

/-- NC_EN (R323). -/
def State.ncOn (s : State) : Bool := bit (s.o 0x2310 0) 0

/-! ## Tree pseudo-LRU (R308, R312; log 12) -/

/-- Marks a way as most recently used: every node on its path points away from it. -/
def plruTouch : (k node bits way : Nat) → Nat
  | 0, _, bits, _ => bits
  | k + 1, node, bits, way =>
    let right := bit way k
    plruTouch k (2 * node + b2n right) (setFld bits node 1 (b2n (!right))) way

/-- The way the tree points at among the eligible ones. -/
def plruVictim (ok : Nat → Bool) : (k node bits base : Nat) → Option Nat
  | 0, _, _, base => if ok base then some base else none
  | k + 1, node, bits, base =>
    let l := plruVictim ok k (2 * node) bits base
    let r := plruVictim ok k (2 * node + 1) bits (base + 2 ^ k)
    if bit bits node then (match r with | some w => some w | none => l)
    else (match l with | some w => some w | none => r)

/-! ## The Lining cache -/

/-- Number of sets as a power of two: LC_MB × 512 (R312). -/
def State.lcLog (s : State) : Nat := bitLen 20 (s.part.lc * 512) - 1

/-- LC_EN and a nonzero size, and no clean of a SHIFT running (R302, R312, R326). -/
def State.lcOn (s : State) : Bool :=
  bit (s.o 0x2310 0) 1 && s.part.lc != 0 && !(match s.tile.partOp with | some _ => true | none => false)

/-- The set of a line (R312). -/
def State.lcSet (s : State) (port line : Nat) : Nat :=
  (line % 2 ^ s.lcLog) ^^^ (line / 2 ^ s.lcLog % 2 ^ s.lcLog) ^^^ port

def State.lcGet (s : State) (k : Nat) : LcSet := tget {} s.lc k
def State.modLc (s : State) (k : Nat) (f : LcSet → LcSet) : State := { s with lc := tmod {} s.lc k f }

/-- The way that holds a line, or is being filled with it. -/
def LcSet.look (x : LcSet) (port line : Nat) : Option LcWay :=
  x.ways.find? (fun w => w.port == port && w.line == line)

/-- Replaces the way of the same number, or adds it. -/
def LcSet.put (x : LcSet) (w : LcWay) : LcSet := { x with ways := x.ways.filter (fun v => v.way != w.way) ++ [w] }

/-- Drops a way. -/
def LcSet.drop (x : LcSet) (way : Nat) : LcSet := { x with ways := x.ways.filter (fun v => v.way != way) }

/-- Whether way i of set k is disabled (R329). -/
def State.lcWayOff (s : State) (k i : Nat) : Bool := s.tile.lcOff.contains (8 * k + i)

/-- The victim way of set k: the lowest-numbered invalid one, else pseudo-LRU over the ways that are not filling (R312), disabled
ways apart (R329). -/
def State.lcVictim (s : State) (k : Nat) : Option Nat :=
  let x := s.lcGet k
  match firstIdx 8 (fun i => !x.ways.any (fun w => w.way == i) && !s.lcWayOff k i) with
  | some i => some i
  | none => plruVictim (fun i => x.ways.any (fun w => w.way == i && !w.filling) && !s.lcWayOff k i) 3 1 x.plru 0

/-- The Lining controller of way i of set k: lines go to the 48 controllers in turn (R21; log 70). -/
def lcCtl (k i : Nat) : Nat := (8 * k + i) % 48
/-- Whether the eviction buffer of a controller is full (R315). -/
def State.evFull (s : State) (ctl : Nat) : Bool := decide (32 ≤ (s.tile.evict.filter (fun e => e.ctl == ctl)).length)

/-- Sends the write-back of a line; `op`: a maintenance operation waits for it (R315, R319). -/
def State.writeBack (s : State) (port line data : Nat) (op : Bool) : State :=
  s.send port { wr := true, addr := line * 256, big := true, data := data, mask := 2 ^ 256 - 1,
                wp := some (.lcBack port line op) }

/-- Moves a dirty victim, way i of set k, to the eviction buffer of its controller and issues its write-back (R315). -/
def State.evictLine (s : State) (k : Nat) (w : LcWay) : State :=
  if w.dirty then
    (s.modTile (fun t => { t with evict := t.evict ++ [{ port := w.port, line := w.line, data := w.data, ctl := lcCtl k w.way }] })).writeBack
      w.port w.line w.data false
  else s

/-- The way that a miss in set k takes: none while every way is filling, or while the victim is dirty and its eviction buffer is
full (R312, R315). -/
def State.lcRoom (s : State) (k : Nat) : Option Nat :=
  match s.lcVictim k with
  | none => none
  | some i => if (s.lcGet k).ways.any (fun w => w.way == i && w.dirty) && s.evFull (lcCtl k i) then none else some i

/-- Allocates a way for a line; answers the state with the way marked, or none when no way is eligible. -/
def State.lcAlloc (s : State) (port line : Nat) (mk : Nat → LcWay) : Option State :=
  let k := s.lcSet port line
  match s.lcRoom k with
  | none => none
  | some i =>
    let s1 := match (s.lcGet k).ways.find? (fun w => w.way == i) with
      | some w => s.evictLine k w
      | none => s
    some (s1.modLc k (fun x => { x.put (mk i) with plru := plruTouch 3 1 x.plru i }))

/-- A request that is the write-back of this line. -/
def PReq.isBack (port line : Nat) (r : PReq) : Bool :=
  match r.wp with | some (.lcBack p l _) => p == port && l == line | _ => false
/-- Whether the write-back of a line still waits at a port (R315). -/
def State.backWaits (s : State) (port line : Nat) : Bool := (List.range 24).any (fun p => (s.portOf p).waiting.any (PReq.isBack port line))
/-- Cancels a write-back that has not been issued: its line leaves the eviction buffer (R315, R320). -/
def State.cancelBack (s : State) (port line : Nat) : State :=
  (List.range 24).foldl (fun (s : State) p =>
    if (s.portOf p).waiting.any (PReq.isBack port line) then
      s.modPort p (fun ps => { ps with waiting := ps.waiting.filter (fun r => !PReq.isBack port line r) }) else s)
    (s.modTile (fun t => { t with evict := t.evict.filter (fun e => !(e.port == port && e.line == line)) }))

/-- Takes a line back from the eviction buffer (R315): a write-back not yet issued is cancelled and the line is dirty; else it is clean,
or dirty for a write. -/
def State.rescue (s : State) (port line : Nat) (dirty : Bool) : Option State :=
  match s.tile.evict.find? (fun e => e.port == port && e.line == line && !e.noKeep) with
  | none => none
  | some e =>
    let waits := s.backWaits port line
    let s1 := if waits then s.cancelBack port line
      else s.modTile (fun t => { t with evict := t.evict.map (fun x => if x.port == port && x.line == line then { x with noKeep := true } else x) })
    (s1.lcAlloc port line (fun i => { way := i, port := port, line := line, valid := 15, dirty := dirty || waits, data := e.data })).map
      (fun s => s.oInc 0x4330 4)

/-- Adds waiters to the read of a line that is being filled; none if there is no such read. -/
def State.joinRead (s : State) (p line : Nat) (f : PReq → PReq) : Option State :=
  let hit := fun (r : PReq) => !r.wr && r.big && r.toLc && r.addr == line * 256
  let ps := s.portOf p
  if ps.rds.any (fun e => hit e.2) then
    some (s.modPort p (fun ps => { ps with rds := ps.rds.map (fun e => if hit e.2 then (e.1, f e.2) else e) }))
  else if ps.waiting.any hit then
    some (s.modPort p (fun ps => { ps with waiting := ps.waiting.map (fun r => if hit r then f r else r) }))
  else none

/-- A job sector that has arrived (or failed with err): hands the job on when it was the last (R296). -/
def State.jobSector (s : State) (id off : Nat) (v : Nat) (err : Nat) : State :=
  match s.job.find? (fun e => e.1 == id) with
  | none => s
  | some e =>
    let j := e.2
    let j1 := { j with left := j.left - 1, data := if err = 0 then putBytes j.data off 64 v else j.data,
                       errAt := if err = 0 then j.errAt else if j.err = 0 then off else min j.errAt off,
                       err := max j.err err }
    if j1.left = 0 then { s with job := tdel s.job id, due := s.due ++ [.job j1] }
    else { s with job := tins (tdel s.job id) id j1 }

/-- Reads one sector of a cached window for a job, or with `full` the line for a node cache (R313). `want` adds the waiter to the
line read; `got` is what to do with the sectors that the Lining cache holds, and whether they are all that is asked for. A line whose
fill is in flight is joined (R309). -/
def State.lcRead (s : State) (port line sec : Nat) (c : Nat) (full : Bool)
    (want : PReq → PReq) (got : LcWay → Bool → State → State) : State :=
  let k := s.lcSet port line
  match (s.lcGet k).look port line with
  | some w =>
    if (if full then w.valid == 15 else bit w.valid sec) then
      got w true ((s.modLc k (fun x => { x with plru := plruTouch 3 1 x.plru w.way })).oInc 0x4330 1)
    else
      let s1 := (if full then got w false s else s).oInc 0x4330 2
      (match s1.joinRead port line want with
       | some s2 => s2
       | none => s1.send port (want { wr := false, addr := line * 256, big := true, crit := sec, left := 15, toLc := true, ctx := c }))
  | none =>
    match s.rescue port line false with
    | some s1 =>
      (match (s1.lcGet k).look port line with
       | some w => got w true (s1.oInc 0x4330 1)
       | none => s1)
    | none =>
      let s1 := s.oInc 0x4330 2
      match s1.lcAlloc port line (fun i => { way := i, port := port, line := line, filling := true }) with
      | some s2 => s2.send port (want { wr := false, addr := line * 256, big := true, crit := sec, left := 15, toLc := true, ctx := c })
      | none => s1.send port (want { wr := false, addr := line * 256, big := true, crit := sec, left := 15, ctx := c })

/-- The bytes of a sector that a line fetched has in the Lining cache: those written while it was fetched stay (R313). -/
def State.lcMerged (s : State) (port line sec v : Nat) : Nat :=
  match (s.lcGet (s.lcSet port line)).look port line with
  | none => v
  | some w => mergeBytes v (bytesAt w.data (64 * sec) 64) (fld w.wmask (64 * sec) 64)

/-- Installs a sector in the line that is being filled (R309). When the fill is in, a line that a maintenance operation reached is written
back if that was asked, and kept unless it was invalidated (R318 to R320). -/
def State.lcSector (s : State) (port line sec v : Nat) (last : Bool) : State :=
  let k := s.lcSet port line
  match (s.lcGet k).look port line with
  | none => s
  | some w =>
    let w1 := { w with data := putBytes w.data (64 * sec) 64 v, valid := w.valid ||| 2 ^ sec }
    if last then
      let s1 := if w.back then s.writeBack port line w1.data true else s
      if w.noKeep then s1.modLc k (fun x => x.drop w.way)
      else s1.modLc k (fun x => x.put { w1 with filling := false, wmask := 0, dirty := w.dirty && !w.back, back := false })
    else s.modLc k (fun x => x.put w1)

/-- A spill write of up to 64 bytes through a cached window: write-allocate, dirty (R313). -/
def State.lcWrite (s : State) (port pa data mask c : Nat) : State :=
  let line := pa / 256
  let sec := pa / 64 % 4
  let k := s.lcSet port line
  let upd := fun (w : LcWay) =>
    { w with data := putBytes w.data (64 * sec) 64 (mergeBytes (bytesAt w.data (64 * sec) 64) data mask), dirty := true,
             wmask := if w.filling then w.wmask ||| (mask * 2 ^ (64 * sec)) else 0 }
  match (s.lcGet k).look port line with
  | some w => (s.modLc k (fun x => { x.put (upd w) with plru := plruTouch 3 1 x.plru w.way })).oInc 0x4330 1
  | none =>
    match s.rescue port line true with
    | some s1 =>
      match (s1.lcGet k).look port line with
      | some w => (s1.modLc k (fun x => x.put (upd w))).oInc 0x4330 1
      | none => s1
    | none =>
      let s1 := s.oInc 0x4330 2
      match s1.lcAlloc port line (fun i => upd { way := i, port := port, line := line, filling := true }) with
      | some s2 => s2.send port { wr := false, addr := line * 256, big := true, crit := sec, left := 15, toLc := true, ctx := c }
      | none => s1.send port { wr := true, addr := pa / 64 * 64, data := data, mask := mask, ctx := c, wp := some (.spillWr c 0 0) }

/-- A spill takes a whole line, which needs no fetch (R313): the line is allocated, and the writes that follow give all its bytes. -/
def State.lcWholeLine (s : State) (port line : Nat) : State :=
  if ((s.lcGet (s.lcSet port line)).look port line).isSome || s.tile.evict.any (fun e => e.port == port && e.line == line) then s
  else (s.lcAlloc port line (fun i => { way := i, port := port, line := line, valid := 15, dirty := true })).getD s

/-- Updates a line that is present, for write-through writes (R313). One in an eviction buffer is rescued as for a write, or, where its set
has no room for it, updated there (R315; log 108). -/
def State.lcTouchWrite (s : State) (port pa data mask : Nat) : State :=
  let line := pa / 256
  let sec := pa / 64 % 4
  let k := s.lcSet port line
  let put := fun (d : Nat) => putBytes d (64 * sec) 64 (mergeBytes (bytesAt d (64 * sec) 64) data mask)
  let upd := fun (w : LcWay) => { w with data := put w.data, wmask := if w.filling then w.wmask ||| (mask * 2 ^ (64 * sec)) else w.wmask }
  match (s.lcGet k).look port line with
  | some w => s.modLc k (fun x => x.put (upd w))
  | none =>
    match s.rescue port line true with
    | some s1 =>
      (match (s1.lcGet k).look port line with
       | some w => s1.modLc k (fun x => x.put (upd w))
       | none => s1)
    | none =>
      if s.tile.evict.any (fun e => e.port == port && e.line == line) then
        s.modTile (fun t => { t with evict := t.evict.map (fun e => if e.port == port && e.line == line then { e with data := put e.data } else e) })
      else s

/-- Whether an access to a line can go on now: the line is present, and its fill is to be kept; or a way can be taken for it, or every way
of its set is disabled; and no earlier access to it waits (R312, R315, R320). -/
def State.lcReady (s : State) (port line : Nat) : Bool :=
  let k := s.lcSet port line
  !s.tile.lcWait.any (fun r => r.port == port && r.pa / 256 == line) &&
  (match (s.lcGet k).look port line with
   | some w => !w.noKeep
   | none => (s.lcRoom k).isSome || (List.range 8).all (fun i => s.lcWayOff k i))

/-- Whether a line holds bytes that are to be written back once its fill is in: an access that goes to the port waits for them (R302). -/
def State.lcOwes (s : State) (port line : Nat) : Bool :=
  match (s.lcGet (s.lcSet port line)).look port line with | some w => w.back | none => false

/-- An access to a cached window: it waits while its miss finds the eviction buffer full (R313, R315). -/
def State.lcPiece (s : State) (r : LcReq) : State :=
  let sec := r.pa / 64 % 4
  if s.lcOn then
    if s.lcReady r.port (r.pa / 256) then
      match r.job with
      | some (id, off) => s.lcRead r.port (r.pa / 256) sec r.ctx false (fun q => { q with jobs := q.jobs ++ [(id, sec, off)] })
          (fun w _ s => s.jobSector id off (bytesAt w.data (64 * sec) 64) 0)
      | none => s.lcWrite r.port r.pa r.data r.mask r.ctx
    else s.modTile (fun t => { t with lcWait := t.lcWait ++ [r] })
  else if s.lcOwes r.port (r.pa / 256) then s.modTile (fun t => { t with lcWait := t.lcWait ++ [r] })
  else match r.job with
    | some (id, off) => s.send r.port { wr := false, addr := r.pa / 64 * 64, left := 1, jobs := [(id, 0, off)], ctx := r.ctx }
    | none => s.send r.port { wr := true, addr := r.pa / 64 * 64, data := r.data, mask := r.mask, ctx := r.ctx, wp := some (.spillWr r.ctx 0 0) }

/-- The accesses that wait try again, oldest first. -/
def State.lcRetry (s : State) : State :=
  if s.tile.lcWait.isEmpty then s
  else s.tile.lcWait.foldl (fun (s : State) r => s.lcPiece r) (s.modTile (fun t => { t with lcWait := [] }))

/-! ## Read jobs -/

/-- Starts a read of `len` bytes at a tile-virtual address: one piece per 64-byte block (R296), each with its right.
`what` is the WHAT of the window fault that each piece without it is (R297); `direct` reads never enter the Lining cache (R304). -/
def State.startJob (s : State) (purp : Purp) (c addr len : Nat) (r : Right) (what : Nat) (direct : Bool := false) : State :=
  let base := addr / 64 * 64
  let n := max 1 ((addr % 64 + len + 63) / 64)
  let id := s.nextJob
  let s0 := { s with nextJob := id + 1, job := tins s.job id { purp := purp, ctx := c, addr := addr, len := len, left := n } }
  (List.range n).foldl (fun (s : State) i =>
    let a := base + 64 * i
    match s.reach c a r with
    | none => (s.windowFault c what).jobSector id (64 * i) 0 1
    | some t =>
      if t.cache && !direct then s.lcPiece { port := t.port, pa := t.pa, ctx := c, job := some (id, 64 * i) }
      else s.send t.port { wr := false, addr := t.pa, left := 1, jobs := [(id, 0, 64 * i)], ctx := c }) s0

/-- Writes up to 64 bytes inside one 64-byte block at a tile-virtual address for the Hem or the Bodkin: write-through
(R313). A window fault completes the write as bad (R297, R493). -/
def State.writeOut (s : State) (c addr data mask : Nat) (rel : Bool) (wp : WPurp) (what : Nat) : State :=
  let a := addr / 64 * 64
  match s.reach c a .wr with
  | none => let s1 := s.windowFault c what; { s1 with due := s1.due ++ [.wrote c wp true] }
  | some t =>
    let s1 := if t.cache && s.lcOn then s.lcTouchWrite t.port t.pa data mask else s
    s1.send t.port { wr := true, addr := t.pa, data := data, mask := mask, rel := rel, wp := some wp, ctx := c }

/-! ## Node caches -/

def State.ncGet (s : State) (b k : Nat) : NcSet := tget {} s.nc (b * 1024 + k)
def State.modNc (s : State) (b k : Nat) (f : NcSet → NcSet) : State := { s with nc := tmod {} s.nc (b * 1024 + k) f }

/-- The node-cache set of a line: PA[17:8] XOR PA[27:18] (R308). -/
def ncSetOf (line : Nat) : Nat := (line % 1024) ^^^ (line / 1024 % 1024)

def NcSet.look (x : NcSet) (port line : Nat) : Option NcWay :=
  x.ways.find? (fun w => w.port == port && w.line == line && (w.valid != 0 || w.filling))
def NcSet.put (x : NcSet) (w : NcWay) : NcSet := { x with ways := x.ways.filter (fun v => v.way != w.way) ++ [w] }
/-- A way without contents: gone, or kept as locked-empty (R322). -/
def NcSet.clear (x : NcSet) (w : NcWay) : NcSet :=
  if w.locked then x.put { way := w.way, locked := true }
  else { x with ways := x.ways.filter (fun v => v.way != w.way) }

/-- The victim way of R308 in set k of Bobbin b: invalid, not locked, not filling; else pseudo-LRU over unlocked ways not filling. A
disabled way is never allocated (R373). -/
def State.ncVictim (s : State) (b k : Nat) : Option Nat :=
  let x := s.ncGet b k
  let off := fun i => s.tile.waysOff.contains (16384 * b + 16 * k + i)
  match firstIdx 16 (fun i => !x.ways.any (fun w => w.way == i) && !off i) with
  | some i => some i
  | none => plruVictim (fun i => x.ways.any (fun w => w.way == i && !w.filling && !w.locked) && !off i) 4 1 x.plru 0

/-- The residency data of a handle from its table entry (R69): PIN_ADDR and PIN_LEN. -/
def Handle.pinAddr (h : Handle) : Nat := bytesAt h.entry 0x18 8
def Handle.pinLen (h : Handle) : Nat := bytesAt h.entry 0x20 4

/-- Whether the 256-byte line at virtual address a lies in the resident part of the pinned copy (R304, R307). -/
def Handle.holds (h : Handle) (a : Nat) : Bool :=
  h.state != 0 && decide (h.pinAddr ≤ a / 256 * 256) && decide (a / 256 * 256 + 256 ≤ h.pinAddr + h.rlen)

/-- The 256 bytes of a pinned line. -/
def State.pinLine (s : State) (h a : Nat) : Nat :=
  let o := (a / 256 * 256 - (s.hndOf h).pinAddr) / 64
  (List.range 4).foldl (fun v i => v + tget 0 s.pin (h * 2 ^ 26 + o + i) * 2 ^ (512 * i)) 0

/-- Installs a whole line. -/
def State.ncInstall (s : State) (b port line way data : Nat) (locked : Bool) : State :=
  s.modNc b (ncSetOf line) (fun x => { x.put { way := way, port := port, line := line, valid := 15, data := data, locked := locked } with
    plru := plruTouch 4 1 x.plru way })

/-- The sectors of a line of the Lining cache go to a way that is being filled; with `all` the fill is complete (R309). -/
def State.ncFromLc (s : State) (b port line : Nat) (w : LcWay) (all : Bool) : State :=
  let k := ncSetOf line
  match (s.ncGet b k).ways.find? (fun v => v.port == port && v.line == line && v.filling) with
  | none => s
  | some v =>
    let d := (List.range 4).foldl (fun d i => if bit w.valid i then putBytes d (64 * i) 64 (bytesAt w.data (64 * i) 64) else d) v.data
    let s1 := s.modNc b k (fun x => x.put { v with data := d, valid := v.valid ||| w.valid, filling := !all })
    if all then (s1.modBob b (fun y => { y with trackers := y.trackers - 1 })).oInc (0x4340 + b) 4 else s1

/-- Starts the fill of a line into a way: from the pinned copy, the Lining cache or the port, where each fill that goes direct is a read of
its own (R32, R309, R330). -/
def State.ncFill (s : State) (b c h a : Nat) (t : Trans) (way : Nat) (locked : Bool) : State :=
  let line := t.pa / 256
  let sec := t.pa / 64 % 4
  if (s.hndOf h).holds a then (s.ncInstall b t.port line way (s.pinLine h a) locked).oInc (0x4340 + b) 3
  else
    let old := (s.ncGet b (ncSetOf line)).look t.port line
    let w : NcWay := { way := way, port := t.port, line := line, filling := true, locked := locked,
                       valid := (old.map (fun w => w.valid)).getD 0, data := (old.map (fun w => w.data)).getD 0 }
    let s1 := (s.modNc b (ncSetOf line) (fun x => { x.put w with
      plru := plruTouch 4 1 x.plru way })).modBob b (fun v => { v with trackers := v.trackers + 1 })
    let want := fun (q : PReq) => { q with nc := q.nc ++ [b] }
    if t.cache && s.lcOn then
      let s2 := s1.lcRead t.port line sec c true want (fun w all s => s.ncFromLc b t.port line w all)
      if (s2.ncGet b (ncSetOf line)).ways.any (fun v => v.way == way && v.filling) then s2.oInc (0x4340 + b) 5 else s2
    else (s1.send t.port (want { wr := false, addr := line * 256, big := true, crit := sec, left := 15, ctx := c })).oInc (0x4340 + b) 5

/-- What a Needle or a leaf unit gets for one sector. -/
inductive Got where
  | bytes (v : Nat)
  | wait
  | fault
  deriving DecidableEq, Repr

/-- Whether the fill of a line can start: it does not go through the Lining cache, or an access to the line there can go on (R315). -/
def State.fillReady (s : State) (h a : Nat) (t : Trans) : Bool :=
  (s.hndOf h).holds a || !t.cache || (if s.lcOn then s.lcReady t.port (t.pa / 256) else !s.lcOwes t.port (t.pa / 256))

/-- The translation of a piece of an index read: the one under which it is being read already, else as the windows stand (R298). -/
def State.reachHeld (s : State) (c a : Nat) (held : List (Nat × Trans)) : Option Trans :=
  match held.find? (fun e => e.1 == a / 64) with
  | some e => some e.2
  | none => s.reach c a .xi

/-- Reads the sector at a tile-virtual address through the node cache of Bobbin b for a query of context c on handle h
(R71, R307 to R309). On a miss the fill is started and the answer is wait; a fill in flight is joined, one that is not to be kept is
waited out. `owed` are lines whose invalidated fill the reader had been waiting for (R320), `held` the translations that stand (R298). -/
def State.ncSector (s : State) (b c st h a : Nat) (owed : List (Nat × Nat × Option Nat) := []) (held : List (Nat × Trans) := []) : Got × State :=
  match s.reachHeld c a held with
  | none => (.fault, s.windowFault c st)
  | some t =>
    let line := t.pa / 256
    let sec := t.pa / 64 % 4
    let k := ncSetOf line
    match owed.find? (fun o => o.1 == t.port && o.2.1 == line) with
    | some (_, _, some d) => (.bytes (bytesAt d (64 * sec) 64), s)
    | some (_, _, none) => (.wait, s)
    | none =>
      match (s.ncGet b k).look t.port line with
      | some w =>
        if w.noKeep then (.wait, s)
        else if bit w.valid sec then
          (.bytes (bytesAt w.data (64 * sec) 64), s.modNc b k (fun x => { x with plru := plruTouch 4 1 x.plru w.way }))
        else if w.filling || !s.fillReady h a t then (.wait, s)
        else (.wait, s.ncFill b c h a t w.way w.locked)
      | none =>
        if decide ((s.bobOf b).trackers ≥ 1536) || !s.fillReady h a t then (.wait, s)
        else match s.ncVictim b k with
          | none => (.wait, s)
          | some i => (.wait, s.ncFill b c h a t i false)

/-- Reads n sectors from a 64-byte-aligned address; waits if any is missing, having asked for all. Each sector that does not translate is a
window fault (R297). -/
def State.ncRead (s : State) (b c st h a : Nat) (n : Nat) (owed : List (Nat × Nat × Option Nat) := []) (held : List (Nat × Trans) := []) : Got × State :=
  match n with
  | 0 => (.bytes 0, s)
  | n + 1 =>
    match s.ncRead b c st h a n owed held with
    | (.bytes v, s1) =>
      (match s1.ncSector b c st h (a + 64 * n) owed held with
       | (.bytes w, s2) => (.bytes (v + w * 2 ^ (512 * n)), s2)
       | r => r)
    | (.wait, s1) =>
      (match s1.ncSector b c st h (a + 64 * n) owed held with
       | (.fault, s2) => (.fault, s2)
       | (_, s2) => (.wait, s2))
    | (.fault, s1) => (.fault, if (s1.reachHeld c (a + 64 * n) held).isSome then s1 else s1.windowFault c st)

/-- The line of an invalidated fill reaches the items that had been waiting for it (R320). -/
def State.payOwed (s : State) (b port line data : Nat) : State :=
  ((s.rs.filter (fun e => e.1 / 8192 == b && e.2.owed.any (fun o => o.1 == port && o.2.1 == line))).map (fun e => e.1)).foldl
    (fun (s : State) k => { s with rs := tmod {} s.rs k (fun x => { x with owed := x.owed.map (fun o =>
      if o.1 == port && o.2.1 == line then (o.1, o.2.1, some data) else o) }) }) s
/-- The items of Bobbin b that wait for a line whose fill is invalidated are owed its bytes (R320). -/
def State.oweLine (s : State) (b port line : Nat) : State :=
  ((s.rs.filter (fun e => e.1 / 8192 == b && e.2.waits.any (fun w => w.1 == port && w.2 / 4 == line) &&
      !e.2.owed.any (fun o => o.1 == port && o.2.1 == line))).map (fun e => e.1)).foldl
    (fun (s : State) k => { s with rs := tmod {} s.rs k (fun x => { x with owed := x.owed ++ [(port, line, none)] }) }) s

/-- Installs a returned sector in the node caches that wait for it (R309). -/
def State.ncSectorIn (s : State) (b port line sec v : Nat) (last : Bool) : State :=
  let k := ncSetOf line
  match (s.ncGet b k).ways.find? (fun w => w.port == port && w.line == line && w.filling) with
  | none => s
  | some w =>
    let w1 := { w with data := putBytes w.data (64 * sec) 64 v, valid := if w.noKeep then 0 else w.valid ||| 2 ^ sec }
    if last then
      (if w.noKeep then (s.modNc b k (fun x => x.clear w)).payOwed b port line w1.data
       else s.modNc b k (fun x => x.put { w1 with filling := false })).modBob b (fun v => { v with trackers := v.trackers - 1 })
    else s.modNc b k (fun x => x.put w1)

/-- LOCK_DROPPED counts a locked line lost; LOCK_DROP is raised on the first after the cause was cleared (R322, R332). -/
def State.lockDrop (s : State) (b : Nat) : State :=
  let s1 := s.oInc (0x4340 + b) 8
  if bit (s1.o 0x5200 1) 2 then s1 else s1.raise 0x5200 2 b

/-- Invalidates the node-cache lines of Bobbin b that satisfy p; fills in flight are not kept (R318, R320, R322).
Answers the number of lines. -/
def State.ncInvalidate (s : State) (b : Nat) (p : (key : Nat) → NcWay → Bool) : State × Nat :=
  (s.nc.filter (fun e => e.1 / 1024 == b)).foldl (fun (acc : State × Nat) e =>
    e.2.ways.foldl (fun (acc : State × Nat) w =>
      if p (e.1 % 1024) w && (w.valid != 0 || w.filling) then
        let s1 := if w.filling then (acc.1.oweLine b w.port w.line).modNc b (e.1 % 1024) (fun x => x.put { w with noKeep := true, valid := 0 })
                  else acc.1.modNc b (e.1 % 1024) (fun x => x.clear w)
        (if w.locked && !w.noKeep then s1.lockDrop b else s1, acc.2 + b2n (w.valid != 0))
      else acc) acc) (s, 0)

/-- Whether a Bobbin's node cache holds a locked line (R311). -/
def State.ncLocked (s : State) (b : Nat) : Bool :=
  s.nc.any (fun e => e.1 / 1024 == b && e.2.ways.any (fun w => w.locked && w.valid != 0))

/-- A maintenance operation waits for the write-back of a line that is in an eviction buffer (R320). -/
def State.backOp (s : State) (port line : Nat) : State :=
  let mk := fun (r : PReq) => if r.isBack port line then { r with wp := some (.lcBack port line true) } else r
  (List.range 24).foldl (fun (s : State) p =>
    if (s.portOf p).waiting.any (PReq.isBack port line) || (s.portOf p).wrs.any (fun e => PReq.isBack port line e.2) then
      s.modPort p (fun ps => { ps with waiting := ps.waiting.map mk, wrs := ps.wrs.map (fun e => (e.1, mk e.2)) })
    else s) s

/-- Cleans the Lining-cache lines that satisfy p: dirty ones are written back; with `inv` every one becomes invalid,
and with `wb` false dirty data are discarded. A line whose fill is in flight is written back once it is in, and is not kept with `inv`
(R318, R320). Eviction-buffer lines follow R320. Answers lines reached (R318). -/
def State.lcSweep (s : State) (p : (key : Nat) → LcWay → Bool) (ev : EvLine → Bool) (wb inv : Bool) : State × Nat :=
  let r := s.lc.foldl (fun (acc : State × Nat) e =>
    e.2.ways.foldl (fun (acc : State × Nat) w =>
      if p e.1 w && (w.valid != 0 || w.filling) then
        let s1 := if wb && w.dirty && !w.filling then acc.1.writeBack w.port w.line w.data true else acc.1
        let s2 :=
          if w.filling then
            s1.modLc e.1 (fun x => x.put { w with
              noKeep := w.noKeep || inv, back := wb && (w.back || w.dirty), dirty := wb && w.dirty, wmask := if wb then w.wmask else 0 })
          else if inv then s1.modLc e.1 (fun x => x.drop w.way)
          else s1.modLc e.1 (fun x => x.put { w with dirty := false })
        (s2, acc.2 + b2n (if wb && !inv then w.dirty else w.valid != 0))
      else acc) acc) (s, 0)
  let s1 := if inv && !wb then (r.1.tile.evict.filter (fun e => ev e && r.1.backWaits e.port e.line)).foldl (fun (s : State) e => s.cancelBack e.port e.line) r.1
    else (r.1.tile.evict.filter ev).foldl (fun (s : State) e => s.backOp e.port e.line) r.1
  (s1.modTile (fun t => { t with evict := t.evict.map (fun e => if ev e then { e with noKeep := true } else e) }), r.2)

/-- Cleans and invalidates the whole Lining cache (R301, R302). -/
def State.lcFlush (s : State) : State := (s.lcSweep (fun _ _ => true) (fun _ => true) true true).1

/-- Write-backs outstanding; with `op` those that a maintenance operation waits for (R319). -/
def State.lcBacksOut (s : State) (op : Bool := false) : Nat :=
  (List.range 24).foldl (fun a p =>
    let ps := s.portOf p
    let isB := fun (r : PReq) => match r.wp with | some (.lcBack _ _ o) => o || !op | _ => false
    a + (ps.wrs.filter (fun e => isB e.2)).length + (ps.waiting.filter isB).length) 0

end Sys2Proof.Machine
end

