-- ==== Sys2Proof/Machine/IndexFmt.lean ====
section
/-! DEFINITION. The index formats as numbers (chapter Index formats): table entries (R69, R70), references (R72, R73),
box, instance and metric nodes (R75, R78, R90), and the residency of pinned copies (R304, R306). -/

namespace Sys2Proof.Machine

/-! ## Index-table entries (R69) -/

/-- Fields of an index-table entry. -/
def Handle.metric (h : Handle) : Bool := bit h.entry 0
def Handle.distrib (h : Handle) : Bool := bit h.entry 1
def Handle.self (h : Handle) : Nat := fld h.entry 8 8
def Handle.defFilter (h : Handle) : Nat := fld h.entry 16 8
def Handle.defProc (h : Handle) : Nat := fld h.entry 24 8
def Handle.typeMask (h : Handle) : Nat := bytesAt h.entry 4 2
def Handle.root (h : Handle) : Nat := bytesAt h.entry 8 8
def Handle.share (h : Handle) : Nat := bytesAt h.entry 0x10 8
def Handle.minResid (h : Handle) : Nat := fld (bytesAt h.entry 0x24 4) 0 9
def Handle.mctrl (h : Handle) : Nat := bytesAt h.entry 0x28 4
def Handle.metricKind (h : Handle) : Nat := fld h.mctrl 0 2
def Handle.vfmt (h : Handle) : Nat := fld h.mctrl 2 3
/-- ACC: true for FP32 accumulation. -/
def Handle.accF (h : Handle) : Bool := bit h.mctrl 5
def Handle.pqM (h : Handle) : Nat := fld h.mctrl 8 8
def Handle.dim (h : Handle) : Nat := fld h.mctrl 16 13
def Handle.codebook (h : Handle) : Nat := bytesAt h.entry 0x30 8
/-- Bytes of a vector element (R69). -/
def Handle.elemSize (h : Handle) : Nat := if h.vfmt < 3 then 1 else if h.vfmt < 5 then 2 else 4
/-- Whether tile t holds part of the index. -/
def Handle.home (h : Handle) (t : Nat) : Bool := bit (bytesAt h.entry 0x40 32) t

/-- Whether context c may submit queries to the handle (R69, R71). -/
def Handle.reachable (h : Handle) (c : Nat) : Bool := h.state != 0 && (h.owner == c || bit h.share c)

/-- Whether node type t is a root type of the class (R72). -/
def rootType (metric : Bool) (t : Nat) : Bool :=
  if metric then t == 9 || t == 0xA else t == 1 || t == 2

/-- The checks of LOAD on an entry image (R70). -/
def imageOk (v : Nat) : Bool :=
  let h : Handle := { entry := v }
  let ty := fld h.root 0 4
  let z := fun o n => bytesAt v o n == 0
  fld v 2 6 == 0 && (h.distrib || h.self == 0) && !bit h.typeMask 0 && fld h.typeMask 12 4 == 0 && z 6 2 && z 0x2C 4 && z 0x38 8 &&
  z 0x60 32 && fld h.root 4 2 == 0 && fld (bytesAt v 0x24 4) 9 23 == 0 && (h.metric || (z 0x28 4 && z 0x30 8)) &&
  (h.distrib || z 0x40 32) &&
  (!h.metric || (fld h.mctrl 6 2 == 0 && fld h.mctrl 29 3 == 0 && h.metricKind != 3 && decide (h.vfmt < 6) && (h.accF || h.vfmt == 0) &&
    [0, 8, 16, 32, 64, 128].contains h.pqM && decide (1 ≤ h.dim) && decide (h.dim ≤ 4096) &&
    (if h.pqM = 0 then h.codebook == 0 else h.dim % h.pqM == 0 && h.codebook % 64 == 0))) &&
  rootType h.metric ty && bit h.typeMask ty && (!h.distrib || h.home h.self) && h.pinAddr % 256 == 0 && h.pinLen % 256 == 0 &&
  decide (h.minResid ≤ 256)

/-! ## References (R72, R73) -/

/-- A reference: node type and tile-virtual address. -/
structure Ref where
  ty : Nat
  addr : Nat
  deriving DecidableEq, Repr, Inhabited

/-- A long reference; none when res0 bits are set. -/
def longRef (v : Nat) : Option Ref := if fld v 4 2 = 0 then some { ty := fld v 0 4, addr := v / 64 * 64 } else none

/-- The reference of a child word; none when the address passes 2^64 − 1 (R73). -/
def childRef (base cw : Nat) : Option Ref :=
  let a := base + 64 * fld cw 0 28
  if a < 2 ^ 64 then some { ty := fld cw 28 4, addr := a } else none

/-- Where a reference stands (R72). -/
inductive From where
  | geoRoot | metricRoot | box | inst | metricNode | stub
  deriving DecidableEq, Repr

/-- Whether a type may be referenced from there, is allowed by TYPEMASK and is aligned (R72). -/
def refOk (h : Handle) (w : From) (r : Ref) : Bool :=
  let place := match w with
    | .geoRoot => r.ty == 1 || r.ty == 2
    | .metricRoot => r.ty == 9 || r.ty == 0xA
    | .box => (decide (1 ≤ r.ty) && decide (r.ty ≤ 8)) || r.ty == 0xB
    | .inst => decide (1 ≤ r.ty) && decide (r.ty ≤ 8)
    | .metricNode => r.ty == 9 || r.ty == 0xA || r.ty == 0xB
    | .stub => if h.metric then r.ty == 9 || r.ty == 0xA else r.ty == 1 || r.ty == 2
  place && bit h.typeMask r.ty && r.addr % (if r.ty = 9 then 256 else 64) == 0

/-! ## Nodes -/

/-- The 32-bit word at byte offset o. -/
def w32 (v o : Nat) : Nat := bytesAt v o 4
/-- A finite FP32 pattern. -/
def f32Finite (x : Nat) : Bool := fld x 23 8 != 255
/-- A NaN pattern. -/
def f32Nan (x : Nat) : Bool := fld x 23 8 == 255 && fld x 0 23 != 0

/-- Child i of a box node is present (R75). -/
def boxPresent (v i : Nat) : Bool := bit (bytesAt v 0x18 2) i
/-- Child reference i of a box node. -/
def boxChild (v i : Nat) : Option Ref := childRef (bytesAt v 0x10 8) (w32 v (0x80 + 4 * i))
/-- LOCK_HINT of a box node. -/
def boxHint (v : Nat) : Bool := bit (bytesAt v 0x0F 1) 0

/-- The checks made at a box-node visit (R74, R75, R77). -/
def boxOk (h : Handle) (v : Nat) : Bool :=
  (List.range 3).all (fun a => f32Finite (w32 v (4 * a)) && bytesAt v (0xC + a) 1 != 0 && bytesAt v (0xC + a) 1 != 255) &&
  fld (bytesAt v 0x0F 1) 1 7 == 0 && bytesAt v 0x10 1 % 64 == 0 && bytesAt v 0x1A 6 == 0 &&
  (List.range 16).all (fun i => !boxPresent v i || (match boxChild v i with | some r => refOk h .box r | none => false))

/-- The checks of an instance node (R74, R78). -/
def instOk (h : Handle) (v : Nat) : Bool :=
  (List.range 12).all (fun i => f32Finite (w32 v (4 * i))) && fld (w32 v 0x30) 0 24 != 0xFFFFFF && fld (w32 v 0x34) 2 30 == 0 &&
  (match longRef (bytesAt v 0x38 8) with | some r => refOk h .inst r | none => false)

/-- Child i of a metric node: presence, reference, centroid address and radius (R90). -/
def metPresent (v i : Nat) : Bool := bit (bytesAt v 0 2) i
def metChild (v i : Nat) : Option Ref := childRef (bytesAt v 8 8) (w32 v (0xA0 + 4 * i))
def metCentroid (v i : Nat) : Nat := bytesAt v 0x10 8 + 64 * w32 v (0x60 + 4 * i)
def metRad (v i : Nat) : Nat := w32 v (0x20 + 4 * i)
def metHint (v : Nat) : Bool := bit (bytesAt v 2 1) 0

/-- The checks of a metric node (R74, R90). DESIGN CHOICE: a present child whose centroid address passes 2^64 − 1, for which no outcome is stated, is
among them (log 112). -/
def metOk (h : Handle) (v : Nat) : Bool :=
  fld (bytesAt v 2 1) 1 7 == 0 && bytesAt v 3 5 == 0 && bytesAt v 8 1 % 64 == 0 && bytesAt v 0x10 1 % 64 == 0 && bytesAt v 0x18 8 == 0 &&
  bytesAt v 0xE0 32 == 0 &&
  (List.range 16).all (fun i => !metPresent v i ||
    ((match metChild v i with | some r => refOk h .metricNode r | none => false) && decide (metCentroid v i < 2 ^ 64) &&
     (if h.accF then !f32Nan (metRad v i) && (!bit (metRad v i) 31 || metRad v i == 0x80000000) else !bit (metRad v i) 31)))

/-- A remote stub (R93): HOME and ROOT; none when malformed. -/
def stubOf (h : Handle) (v : Nat) : Option (Nat × Ref) :=
  if bytesAt v 1 7 = 0 ∧ bytesAt v 0x10 48 = 0 ∧ h.home (bytesAt v 0 1) then
    match longRef (bytesAt v 8 8) with
    | some r => if refOk h .stub r then some (bytesAt v 0 1, r) else none
    | none => none
  else none

/-! ## Pinned copies (R304 to R306) -/

/-- Free 64 KiB units of the pinned region (R300). -/
def State.pinFree (s : State) : Nat := 16 * s.part.pin - 17 - s.tile.lostUnits - s.hnd.foldl (fun a e => a + e.2.units) 0

/-- RESID of a handle (R306). -/
def Handle.resid (h : Handle) : Nat := if h.pinLen = 0 then 256 else 256 * h.rlen / h.pinLen

/-- LOW of a handle, and RESID_LOW raised when it becomes 1 on a handle that is not FREE (R306). -/
def State.residCheck (s : State) (h : Nat) : State :=
  let x := s.hndOf h
  let low := x.minResid != 0 && decide (x.resid < x.minResid) && x.state != 0
  if low == x.low then s
  else
    let s1 := s.modHnd h (fun x => { x with low := low })
    if low then s1.raise 0x5200 3 h else s1

/-- Gives units back: bytes beyond the units kept are dropped (R305). -/
def State.pinTrim (s : State) (h units : Nat) : State :=
  let s1 := s.modHnd h (fun x => { x with units := units, rlen := min x.rlen (65536 * units) })
  let keep := (s1.hndOf h).rlen / 64
  ({ s1 with pin := s1.pin.filter (fun e => e.1 / 2 ^ 26 != h || decide (e.1 % 2 ^ 26 < keep)) }).residCheck h

/-- Starts the copy of a handle's pinned range from byte `o` for n bytes, read directly through the owner's windows with
the XI right (R297, R304). -/
def State.pinCopy (s : State) (h o n : Nat) : State :=
  if n = 0 then s
  else
    let x := s.hndOf h
    (s.modHnd h (fun x => { x with copying := true, copyJob := some s.nextJob })).startJob (.pinCopy h o s.nextJob) x.owner (x.pinAddr + o) n .xi noWhat true

/-- A copy has been read: the bytes before the first bad piece become resident (R304, R305). A copy that was given up meanwhile counts for
nothing. -/
def State.pinCopied (s : State) (h o id : Nat) (j : Job) : State :=
  if (s.hndOf h).copyJob ≠ some id then s
  else
  let good := if j.err = 0 then j.len else j.errAt
  let n := good / 64
  let s1 := { s with pin := (List.range n).foldl (fun t i => tset 0 t (h * 2 ^ 26 + o / 64 + i) (bytesAt j.data (64 * i) 64)) s.pin }
  (s1.modHnd h (fun x => { x with copying := false, copyJob := none, rlen := max x.rlen (min (o + good) (65536 * x.units)) })).residCheck h

/-- The 64-bit residency object of a handle (R306). -/
def State.residObj (s : State) (h : Nat) : Nat :=
  let x := s.hndOf h
  if x.state = 0 ∧ x.phase = 0 then 0 else x.resid + b2n x.low * 512 + b2n x.copying * 1024 + x.rlen * 2 ^ 32

end Sys2Proof.Machine
end

