-- ==== Sys2Proof/Machine/Query.lean ====
section
/-! DEFINITION. Query records and result records (R53 to R58), parking charges (R52, R54, R65, R66), and a query's way
to the Hem and out of the tile (R58, R97). -/

namespace Sys2Proof.Machine

/-! ## Kinds and statuses (R38, R61) -/

def kRayClosest : Nat := 1
def kRayAny : Nat := 2
def kKhit : Nat := 3
def kRayAll : Nat := 4
def kKnn : Nat := 5
def kRadius : Nat := 6
def kOverlap : Nat := 7
def kPoint : Nat := 8
def stDone : Nat := 0x00
def stNoHit : Nat := 0x01
def stTruncated : Nat := 0x02
def stBadKind : Nat := 0x03
def stAborted : Nat := 0x10
def stCancelled : Nat := 0x11
def stWindow : Nat := 0x20
def stFormat : Nat := 0x21
def stBaste : Nat := 0x22
def stMigration : Nat := 0x23
def stUnrecovered : Nat := 0x30
def stDelivery : Nat := 0x31

/-- The place of a status in the table of R61. -/
def statusRank (st : Nat) : Nat :=
  (firstIdx 12 (fun i => [stUnrecovered, stAborted, stCancelled, stWindow, stFormat, stBaste, stMigration, stDelivery, stBadKind, stTruncated, stDone, stNoHit].getD i 0 == st)).getD 12

/-- Ray kinds 1 to 4. -/
def isRay (k : Nat) : Bool := decide (1 ≤ k) && decide (k ≤ 4)
/-- Metric kinds 5 and 6: neighbour records. -/
def isMetric (k : Nat) : Bool := k == 5 || k == 6
/-- Kinds whose results are streamed: RAY_ALL, RADIUS, OVERLAP, POINT. -/
def isStreamed (k : Nat) : Bool := k == 4 || k == 6 || k == 7 || k == 8
/-- Kinds that use EXTW and an extension (R53, R54). -/
def QRec.usesExt (r : QRec) : Bool := r.kind == 3 || r.kind == 5 || (r.kind == 1 && r.trace)

/-- Blocks of the extension: ⌈(64 + 16 L) / 64⌉ (R54). -/
def QRec.extSize (r : QRec) : Nat :=
  if r.usesExt then (64 + 16 * (if r.kind = 1 then 0 else r.km1 + 1) + 63) / 64 else 0

/-- QCTRL (R53). -/
def QRec.qctrl (r : QRec) : Nat :=
  r.kind % 16 + r.cls % 4 * 2 ^ 4 + r.ctx % 64 * 2 ^ 6 + r.stream % 8 * 2 ^ 12 + b2n r.trace * 2 ^ 15 + b2n r.forceOpaque * 2 ^ 16 +
  b2n r.shape * 2 ^ 17 + b2n r.gen * 2 ^ 18 + b2n r.haveHit * 2 ^ 19 + r.vismask % 256 * 2 ^ 20 + b2n r.cont * 2 ^ 28 +
  b2n r.isCont * 2 ^ 29 + r.cidx % 4 * 2 ^ 30

/-- The 64 bytes of a record (R53). -/
def QRec.bytes (r : QRec) : Nat :=
  r.qctrl + r.handle % 65536 * 2 ^ 32 + r.filter % 256 * 2 ^ 48 + r.km1 % 256 * 2 ^ 56 + r.seq.toNat * 2 ^ 64 + r.w0c % 2 ^ 32 * 2 ^ 96 +
  r.body % 2 ^ 256 * 2 ^ 128 + r.trail % 2 ^ 64 * 2 ^ 384 + r.w38 % 2 ^ 64 * 2 ^ 448

/-- A record from its 64 bytes. -/
def QRec.ofBytes (v : Nat) : QRec :=
  { kind := fld v 0 4, cls := fld v 4 2, ctx := fld v 6 6, stream := fld v 12 3, trace := bit v 15, forceOpaque := bit v 16,
    shape := bit v 17, gen := bit v 18, haveHit := bit v 19, vismask := fld v 20 8, cont := bit v 28, isCont := bit v 29,
    cidx := fld v 30 2, handle := fld v 32 12, filter := fld v 48 8, km1 := fld v 56 8, seq := BitVec.ofNat 32 (fld v 64 32),
    w0c := fld v 96 32, body := fld v 128 256, trail := fld v 384 64, w38 := fld v 448 64 }

/-- The bytes of BODY at record offset o (0x10 to 0x2F), four bytes. -/
def QRec.b32 (r : QRec) (o : Nat) : Nat := bytesAt r.body (o - 0x10) 4
/-- tmax of a ray kind (R53). -/
def QRec.tmax (r : QRec) : Nat := r.b32 0x2C
/-- BOUND of a metric kind (R53). -/
def QRec.bound (r : QRec) : Nat := r.b32 0x20
def QRec.setB32 (r : QRec) (o v : Nat) : QRec := { r with body := putBytes r.body (o - 0x10) 4 v }

/-! ## Result records -/

/-- +∞ as F32. -/
def f32Inf : Nat := 0x7F800000

/-- RFLAGS of a query's records without LAST and HIT (R55). -/
def QRec.rflags (r : QRec) : Nat := b2n r.gen * 4 + b2n r.isCont * 8 + r.cidx % 4 * 16

/-- A hit record (R55). -/
def hitBytes (seq : Word) (t prim inst u v status rflags ord : Nat) : Nat :=
  seq.toNat + t % 2 ^ 32 * 2 ^ 32 + prim % 2 ^ 64 * 2 ^ 64 + inst % 2 ^ 32 * 2 ^ 128 + u % 2 ^ 32 * 2 ^ 160 + v % 2 ^ 32 * 2 ^ 192 +
  status % 256 * 2 ^ 224 + rflags % 256 * 2 ^ 232 + ord % 65536 * 2 ^ 240

/-- A neighbour record (R57). -/
def nbrBytes (seq : Word) (dist id rank : Nat) (last hit : Bool) (status : Nat) : Nat :=
  seq.toNat + dist % 2 ^ 32 * 2 ^ 32 + id % 2 ^ 44 * 2 ^ 64 + rank % 256 * 2 ^ 108 + b2n last * 2 ^ 116 + b2n hit * 2 ^ 117 + status % 256 * 2 ^ 120

/-- A terminal record with HIT = 0 (R55, R57, R58). In the neighbour format RANK of a RADIUS query is its release number; DIST, ID and
the RANK of a KNN query are not stated: `fv` supplies them (log 16). -/
def terminalRec (r : QRec) (status fv : Nat) : Rec :=
  if isMetric r.kind then .nbr (nbrBytes r.seq fv (fv / 2 ^ 8) (if r.kind = kRadius then r.w38 / 2 ^ 32 else fv / 2 ^ 52) true false status)
  else .hit (hitBytes r.seq f32Inf 0 0 0 0 status (1 + r.rflags) 0)

/-- The record of an entry that cannot be read: SEQ, STATUS and LAST, every other field zero (R44). -/
def unreadRec (seq : Word) (status : Nat) : Rec := .hit (hitBytes seq 0 0 0 0 0 status 1 0)

/-- Marks a result record as the last one, with the status (R58). -/
def Rec.last (status : Nat) : Rec → Rec
  | .hit b => .hit (setFld (setFld b 224 8 status) 232 1 1)
  | .nbr b => .nbr (setFld (setFld b 120 8 status) 116 1 1)
  | .trc b => .trc b

/-- STATUS and LAST of a record. -/
def Rec.status : Rec → Nat | .hit b => fld b 224 8 | .nbr b => fld b 120 8 | .trc _ => 0
def Rec.isLast : Rec → Bool | .hit b => bit b 232 | .nbr b => bit b 116 | .trc _ => false
def Rec.isHit : Rec → Bool | .hit b => bit b 233 | .nbr b => bit b 117 | .trc _ => false
def Rec.seq : Rec → Word | .hit b => BitVec.ofNat 32 b | .nbr b => BitVec.ofNat 32 b | .trc b => BitVec.ofNat 32 b

/-- The records of a query that takes a new terminal status after they were formed (R494). -/
def restatus (recs : List Rec) (status : Nat) : List Rec :=
  match recs.getLast? with
  | none => recs
  | some l =>
    if l.isHit then
      let clear := match l with
        | .hit b => Rec.hit (setFld (setFld b 224 8 0) 232 1 0)
        | .nbr b => Rec.nbr (setFld (setFld b 120 8 0) 116 1 0)
        | .trc b => Rec.trc b
      let n := (recs.filter (fun r => match r with | .trc _ => false | _ => true)).length
      let term := match l with
        | .hit b => Rec.hit (hitBytes (BitVec.ofNat 32 b) f32Inf 0 0 0 0 status (1 + fld b 234 4 * 4) n)
        | .nbr b => Rec.nbr (nbrBytes (BitVec.ofNat 32 b) 0 0 n true false status)
        | .trc b => Rec.trc b
      recs.dropLast ++ [clear, term]
    else recs.dropLast ++ [match l with
      | .hit b => .hit (setFld b 224 8 status)
      | .nbr b => .nbr (setFld b 120 8 status)
      | .trc b => .trc b]

/-! ## Charges (R52, R54, R65) -/

/-- Whether the units for a charge of n are free for context c: first in its reserve, then in the shared pool, of which
admission leaves `keep` units (R65). -/
def State.unitsFree (s : State) (c n keep : Nat) : Bool :=
  let r := s.co c 3 - s.resUsed c
  decide (n ≤ r) || decide (n - r + keep ≤ s.poolFree)

/-- Sets OVER bits after usage or a quota changed, and raises QUOTA_CLEAR when one clears (R66). -/
def State.quotaCheck (s : State) (c : Nat) : State :=
  let x := s.ctxOf c
  let clrP := x.overPark && decide (s.usagePark c < s.co c 1)
  let clrE := x.overExt && decide (s.usageExt c < s.co c 2)
  if clrP || clrE then
    (s.modCtx c (fun x => { x with overPark := x.overPark && !clrP, overExt := x.overExt && !clrE })).raise (0x5900 + c) 2
      (b2n clrP + 2 * b2n clrE)
  else s

/-- The units of a charge that come from the reserve. -/
def State.takeReserve (s : State) (c n : Nat) : Nat := min n (s.co c 3 - s.resUsed c)

/-- Frees a slot with its extension and everything charged with it (R52, R54, R65). -/
def State.freeQuery (s : State) (k : Nat) : State :=
  let q := s.q k
  if q.place = .none then s
  else
    let s1 := q.contSlots.foldl (fun (s : State) j => { s with slot := tdel s.slot j }) { s with slot := tdel s.slot k }
    s1.quotaCheck q.qr.ctx

/-- What a stream holds of its queries and has not delivered: with the Hem, in ring entries, and in fills. -/
def StreamSt.items (x : StreamSt) : List HemItem :=
  x.hem ++ x.ringOut.map (fun y => y.2) ++ x.closing.flatMap (fun f => f.placed) ++ x.open_.toList.flatMap (fun f => f.placed)

/-- Queries of handle h in flight (R97): admitted here, terminal record not written, not held. -/
def State.inflight (s : State) (h : Nat) : Nat :=
  (s.slot.filter (fun e => e.2.qr.handle == h && e.2.served.isNone && e.2.place != .none && e.2.place != .held && e.2.place != .charged &&
    e.2.place != .parent)).length +
  s.strm.foldl (fun a e => a + (e.2.items.filter (fun i => i.terminal && i.handle == some h)).length) 0

/-! ## Hits and their trace records (R60, R132, R172) -/

/-- The key order of R132. -/
def pathCmp : (n : Nat) → List Nat → List Nat → Option Bool
  | 0, _, _ => none
  | _, [], [] => none
  | _, [], _ :: _ => some true
  | _, _ :: _, [] => some false
  | n + 1, a :: x, b :: y => if a < b then some true else if b < a then some false else pathCmp n x y
def keyLt (a b : Hit) : Bool :=
  if fLt a.t b.t then true
  else if fLt b.t a.t then false
  else match pathCmp 4 a.path b.path with
    | some r => r
    | none => decide (a.geom < b.geom) || (a.geom == b.geom && decide (a.prim < b.prim))
def keyEq (a b : Hit) : Bool := fEq a.t b.t && a.path == b.path && a.geom == b.geom && a.prim == b.prim

/-- An instance that a RESULT does not tell: it stands for any (log 38). -/
def anyInst : Nat := 2 ^ 24
/-- The PRIM kept with a trace record that came back from another tile: only its t tells which hit its sample produced (R360; log 111). -/
def anyPrim : Nat := 2 ^ 44
/-- Whether a delivered hit has the key kept with a trace record; the key of a hit that came back in a list tells only its innermost
instance (R172, R360). -/
def keyFits (h kept : Hit) : Bool :=
  if kept.prim = anyPrim then h.ptype == 8 && fEq h.t kept.t
  else keyEq h { kept with path := h.path } && h.path.length == kept.path.length && (h.path.zip kept.path).all (fun p => p.1 == p.2 || p.2 == anyInst)

/-- Writes n bytes of the trace area, which count in BYTES (R172, R265). -/
def State.traceWrite (s : State) (k o n data : Nat) : State :=
  let q := s.q k
  let a := q.traceAddr + o
  (s.writeOut q.qr.ctx a (data * 2 ^ (8 * (a % 64))) ((2 ^ n - 1) * 2 ^ (a % 64)) false (.trace q.qr.ctx q.qr.stream) q.qr.stream).oAdd 0x4310 9 n

/-- Marks the trace records of the hits delivered, and the last record (R172). -/
def State.traceFlags (s : State) (k : Nat) (hits : List Hit) : State :=
  let q := s.q k
  if !q.qr.trace || q.traceWritten == 0 then s
  else
    let last := q.traceWritten - 1
    let idx := (q.trcHits.filter (fun p => hits.any (fun h => keyFits h p.1))).map (fun p => p.2)
    let s1 := idx.foldl (fun (s : State) n => s.traceWrite k (32 * n + 0x0B) 1 (2 + b2n (n == last))) s
    if idx.contains last then s1 else s1.traceWrite k (32 * last + 0x0B) 1 1

/-! ## To the Hem -/

/-- A mark that ends the query at its next boundary: the status that R61 puts first stands. -/
def Query.killBy (q : Query) (st : Nat) : Query :=
  { q with kill := some (match q.kill with | some y => if statusRank y < statusRank st then y else st | none => st) }

/-- Position of a query among those of its descriptor (R264): within a generated query the continuations follow it. -/
def QRec.grainPos (r : QRec) (n : Nat) : Nat := n * 8 + (if r.isCont then 1 + r.cidx else 0)

/-- Appends an item to the delivery queue of a stream. -/
def State.hemPut (s : State) (c st : Nat) (i : HemItem) : State :=
  ((s.began 0x4310 6).began 0x4310 7).modSt c st (fun x => { x with hem := x.hem ++ [i] })

/-- The S of the generation descriptor of a query: SEQ[31:20] (R48). -/
def QRec.genS (r : QRec) : Option Nat := if r.gen then some (r.seq.toNat / 2 ^ 20) else none

/-- The finished query of slot k goes to the Hem with its records, the last of them terminal (R58). A traced query's
samples precede. A RAY_CLOSEST parent that is DONE keeps its slots for its continuations (R51, R52). -/
def State.toHem (s : State) (k status : Nat) (recs : List Rec) : State :=
  let q := s.q k
  let r := q.qr
  let parent := r.cont && status == stDone
  let item : HemItem := { slot := k, seq := r.seq, recs := recs, terminal := true, status := status, pos := r.grainPos q.genN,
                          frees := !parent, handle := if parent then some r.handle else none, genS := r.genS, desc := q.desc, dord := q.dord, flags := r.rflags / 4 }
  let s1 := (s.modQ k (fun q => { q with place := if parent then .parent else .hem })).hemPut r.ctx r.stream item
  if parent then s1.modTile (fun t => { t with contWait := t.contWait ++ [k] }) else s1

/-- What fixes the open fields of a query's records in grain mode (R36): its descriptor and position, its index entry, and its status. -/
def State.openKey (s : State) (r : QRec) (body0 : Nat) (desc : Word) (n status : Nat) : List Nat :=
  [{ r with body := body0, trail := 0, w38 := 0, w0c := if isRay r.kind then 0 else r.w0c, haveHit := false }.bytes, desc.toNat, n, (s.hndOf r.handle).entry, status]

/-- Completes the query of slot k with a fault, a cancellation or no result: one terminal record with HIT = 0 (R58), after the last trace
record is marked (R172). -/
def State.completeEmpty (s : State) (k status : Nat) : State :=
  let q := s.q k
  let d := s.openVal q.qr.ctx (s.openKey q.qr q.body0 q.desc q.genN status)
  (d.2.traceFlags k []).toHem k status [terminalRec q.qr status d.1]

/-- A terminal record for something that holds no slot goes to the Hem (R44). -/
def State.slotlessRec (s : State) (r : QRec) (status : Nat) (cnt : Word) (n : Nat) (y : Rec) : State :=
  s.hemPut r.ctx r.stream { slot := 0, seq := r.seq, recs := [y], terminal := true, status := status, pos := r.grainPos n, frees := false,
                            genS := r.genS, desc := cnt, dord := (s.st r.ctx r.stream).dord, flags := r.rflags / 4 }

/-- A terminal record for a refused descriptor or a query refused at admission (R44, R47, R50). -/
def State.slotless (s : State) (r : QRec) (status : Nat) (cnt : Word) (n : Nat) : State :=
  let d := s.openVal r.ctx (s.openKey r r.body cnt n status)
  d.2.slotlessRec r status cnt n (terminalRec r status d.1)

/-- Streamed records released before the query completes (R59). -/
def State.releaseRecs (s : State) (k : Nat) (recs : List Rec) : State :=
  if recs.isEmpty then s
  else
    let q := s.q k
    let r := q.qr
    s.hemPut r.ctx r.stream { slot := k, seq := r.seq, recs := recs, terminal := false, status := 0, pos := r.grainPos q.genN, frees := false, desc := q.desc, dord := q.dord, paged := true }

end Sys2Proof.Machine
end

