-- ==== Sys2Proof/Machine/Seam0.lean ====
section
/-! DEFINITION. Sending seam frames: routes (R353), channels and credits (R354), the header (R355). -/

namespace Sys2Proof
open Machine

/-! ## The header (R355) -/

def SeamFrame.h (f : SeamFrame) : Nat := f.hdr.toNat
def SeamFrame.ftype (f : SeamFrame) : Nat := bytesAt f.h 0 1
def SeamFrame.fflags (f : SeamFrame) : Nat := bytesAt f.h 1 1
def SeamFrame.src (f : SeamFrame) : Nat := bytesAt f.h 2 1
def SeamFrame.dst (f : SeamFrame) : Nat := bytesAt f.h 3 1
def SeamFrame.plen (f : SeamFrame) : Nat := bytesAt f.h 4 2
def SeamFrame.crn (f : SeamFrame) : Nat := bytesAt f.h 6 1
def SeamFrame.cre (f : SeamFrame) : Nat := bytesAt f.h 7 1
def SeamFrame.migid (f : SeamFrame) : Nat := bytesAt f.h 8 4
def SeamFrame.routew (f : SeamFrame) : Nat := bytesAt f.h 12 4
def SeamFrame.arg0 (f : SeamFrame) : Nat := bytesAt f.h 16 8
def SeamFrame.arg1 (f : SeamFrame) : Nat := bytesAt f.h 24 8

/-- Credits a frame takes: one for each 64 bytes (R354). CREDIT frames take none. -/
def SeamFrame.credits (f : SeamFrame) : Nat := if f.ftype = 6 then 0 else (32 + f.plen + 63) / 64

end Sys2Proof

namespace Sys2Proof.Machine

/-- A frame to tile dst with this payload of n content bytes, padded to 32 (R355). -/
def mkSeam (src ftype dst n migid routew arg0 arg1 payload : Nat) : SeamFrame :=
  { hdr := BitVec.ofNat 256 (ftype + src * 2 ^ 16 + dst * 2 ^ 24 + roundUp n 32 * 2 ^ 32 + migid % 2 ^ 32 * 2 ^ 64 + routew % 2 ^ 32 * 2 ^ 96 +
      arg0 % 2 ^ 64 * 2 ^ 128 + arg1 % 2 ^ 64 * 2 ^ 192),
    payload := payload }

/-- TILE_NO (R353). -/
def State.tileNo (s : State) : Nat := s.o 0x2700 1

/-- The route-table entry of a home (R353). -/
def State.route (s : State) (h : Nat) : Nat := if h < 128 then s.o 0x2710 (1 + h) else s.o 0x2711 (1 + (h - 128))

/-- Whether SP.k carries frames. -/
def State.seamUp (s : State) (k : Nat) : Bool := decide (k < 24) && (s.lstate (24 + k) == 1 || s.lstate (24 + k) == 2)

/-- The seam port for a home: PRI while it is FULL or HALF, else ALT; true marks ALT (R353). -/
def State.seamPort (s : State) (h : Nat) : Option (Nat × Bool) :=
  let r := s.route h
  if bit r 5 && s.seamUp (fld r 0 5) then some (fld r 0 5, false)
  else if bit r 13 && s.seamUp (fld r 8 5) then some (fld r 8 5, true)
  else none

/-- Whether a type may use ESCAPE: RESULT, RECS, MAINT_ACK (R354). -/
def mayEscape (t : Nat) : Bool := t == 2 || t == 3 || t == 5

/-- A RESULT has been sent back, or cannot be: the slot of the query that was served is free (R29). -/
def State.resultSent (s : State) (f : SeamFrame) : State :=
  if f.ftype ≠ 2 then s
  else ((s.slot.filter (fun e => e.2.place == .hem && (match e.2.served with | some v => v.tile == f.dst && v.migid == f.migid | none => false))).map (fun e => e.1)).foldl
    (fun (s : State) k => s.freeQuery k) s

/-- Puts a frame on the wire of SP.k on a channel, returning what credits are due (R354, R355). -/
def State.seamOut (s : State) (k : Nat) (f : SeamFrame) (esc : Bool) : State :=
  let ps := s.portOf (24 + k)
  let rn := min 255 ps.retN
  let re := min 255 ps.retE
  let h := f.h + b2n esc * 2 ^ 8 + rn * 2 ^ 48 + re * 2 ^ 56
  let s1 := s.modPort (24 + k) (fun p => { p with
    retN := p.retN - rn, retE := p.retE - re, credN := if esc then p.credN else p.credN - f.credits,
    credE := if esc then p.credE - f.credits else p.credE })
  let s2 := if esc then s1.oInc 0x4440 7 else s1
  { s2 with out := .seam k { f with hdr := BitVec.ofNat 256 h } :: s2.out }.resultSent f

/-- Sends a frame on SP.k if a channel has the credits, else queues it there. Frames that travel only on NORMAL keep their order; the others go
on NORMAL when it holds credit for them, and on ESCAPE otherwise (R354). -/
def State.seamTry (s : State) (k : Nat) (f : SeamFrame) : State :=
  let ps := s.portOf (24 + k)
  if ps.retrain then s.modPort (24 + k) (fun p => { p with seamQ := p.seamQ ++ [f] })
  else if (ps.seamQ.isEmpty || mayEscape f.ftype) && decide (f.credits ≤ ps.credN) then s.seamOut k f false
  else if mayEscape f.ftype && decide (f.credits ≤ ps.credE) then s.seamOut k f true
  else s.modPort (24 + k) (fun p => { p with seamQ := p.seamQ ++ [f] })

/-- Sends a frame to a home. None: no usable route (R353, R363). SEAM_ALT is raised once per change to ALT. -/
def State.sendSeam (s : State) (home : Nat) (f : SeamFrame) : Option State :=
  match s.seamPort home with
  | none => none
  | some (k, alt) =>
    let pri := 24 + fld (s.route home) 0 5
    let was := (s.portOf pri).alt.contains home
    let s1 := if alt && !was then
        (s.modPort pri (fun p => { p with alt := p.alt ++ [home] })).raise (0x5300 + 24 + k) 7 home
      else if !alt && was then s.modPort pri (fun p => { p with alt := p.alt.filter (fun x => x != home) })
      else s
    some (s1.seamTry k f)

/-- Sends the frames that wait for credit on SP.k, in order, as far as credits go (R354). -/
def State.seamDrain (s : State) (k : Nat) : State :=
  let q := (s.portOf (24 + k)).seamQ
  q.foldl (fun (s : State) f => s.seamTry k f) (s.modPort (24 + k) (fun p => { p with seamQ := [] }))

/-- A frame of a served query to its origin; one that finds no route is lost, and the origin's timeout applies (R353, R363). -/
def State.answer (s : State) (v : Served) (ftype arg0 arg1 n payload handle : Nat) : State :=
  let f := mkSeam s.tileNo ftype v.tile n v.migid (handle + v.baseLevel * 2 ^ 12 + v.hops * 2 ^ 16) arg0 arg1 payload
  (s.sendSeam v.tile f).getD (s.resultSent f)

/-- A served query has its RESULT to send, and keeps its slot until that is sent back (R29). -/
def State.toAnswer (s : State) (k : Nat) : State := s.modQ k (fun q => { q with place := .hem })

/-- A served query ends without a change of its record: RESULT with RSTATUS st (R356, R359, R360). -/
def State.answerEnd (s : State) (k st : Nat) : State :=
  let q := s.q k
  match q.served with
  | some v => (s.toAnswer k).answer v 2 (st + v.sent * 2 ^ 32) (q.qr.trail) 0x70 q.qr.bytes q.qr.handle
  | none => s

/-- Counts and raises UNRECOVERED (R377, R395). -/
def State.unrecovered (s : State) (c st : Nat) : State := (s.oInc 0x7020 8).raise (0x5900 + c) 8 st

/-- The query of a slot ends with a fault or without a result, wherever it was: here it goes to the Hem, a served one is
answered (R58, R359), and an aborted query leaves no record (R476). -/
def State.endSlot (s : State) (k st : Nat) : State :=
  let q := s.q k
  if q.served.isSome then s.answerEnd k st
  else if st = stAborted then s.freeQuery k
  else
    let s1 := s.completeEmpty k st
    if st = stUnrecovered then s1.unrecovered q.qr.ctx q.qr.stream else s1

/-- An index command of context c ends with a status; a MAINT that started it is answered (R96, R364). -/
def State.idxDone (s : State) (c status : Nat) : State :=
  let s1 := s.coSet c 8 status
  match (s1.ctxOf c).maintFrom with
  | none => s1
  | some (tile, migid) =>
    let s2 := s1.modCtx c (fun x => { x with maintFrom := none })
    (s2.sendSeam tile (mkSeam s2.tileNo 5 tile 0 migid 0 status 0 0)).getD s2

end Sys2Proof.Machine
end

