-- ==== Sys2Proof/Machine/Index.lean ====
section
/-! DEFINITION. The index commands and what continues them (R96 to R99, R187, R304, R305). -/

namespace Sys2Proof.Machine

/-- Reads the root node of a handle for the key cells (R187): with the XI right, directly, through context c. -/
def State.readRoot (s : State) (h c : Nat) : State :=
  let r := (s.hndOf h).root
  (s.modHnd h (fun x => { x with rootJob := some s.nextJob, rootBox := false })).startJob (.rootRead h s.nextJob) c (r / 64 * 64)
    (if fld r 0 4 = 1 then 192 else 64) .xi noWhat true

/-- Puts the held queries of a handle back into bins as source 1 of R180: they start from the root (R99, R207). The
caller bins them; here they leave the hold list. -/
def State.heldOf (s : State) (h : Nat) : List Nat :=
  s.tile.holds.filter (fun k => (s.q k).qr.handle == h)

/-- The units and bytes of a copy of n bytes with what is free (R304): all of PIN_LEN or as many units as there are. -/
def State.pinTake (s : State) (h : Nat) : State × Nat :=
  let x := s.hndOf h
  let need := (x.pinLen + 65535) / 65536
  let have_ := min need (x.units + s.pinFree)
  ((s.modHnd h (fun x => { x with units := have_, rlen := 0, copying := false, copyJob := none })).residCheck h, min x.pinLen (65536 * have_))

/-- Starts the copy and the root read of a handle for a LOAD (phase 1) or a REFIT_END (phase 2). -/
def State.startCopy (s : State) (h c phase : Nat) : State :=
  let t := (s.modHnd h (fun x => { x with phase := phase })).pinTake h
  let s1 := { t.1 with pin := t.1.pin.filter (fun e => e.1 / 2 ^ 26 != h) }
  (s1.readRoot h c).pinCopy h 0 t.2

/-- LOAD, DROP, REFIT_BEGIN and REFIT_END (R98). The refusals stand in the order 0x84, 0x80, 0x81, 0x83 (R98). The
answer is the STAT of the write (R414, R492). `rebin` bins a released slot. -/
def State.idxCmd (s : State) (c code : Nat) : Nat × State :=
  let h := s.co c 9 % 4096
  let x := s.hndOf h
  let refuse := fun st => (0, s.idxDone c st)
  if s.co c 8 = 1 then (0x83, s)
  else if code = 0 ∨ 4 < code then refuse 0x84
  else if ((x.state ≠ 0 ∨ x.phase ≠ 0) ∧ x.owner ≠ c) ∨ (x.loading.isSome ∧ x.loading ≠ some c) then refuse 0x80
  else if code = 1 then
    if x.state = 1 ∨ x.state = 2 then refuse 0x81
    else if s.co c 0xA % 64 ≠ 0 then refuse 0x83
    else (0, ((s.coSet c 8 1).modHnd h (fun x => { x with loading := some c })).startJob (.idxImage c h) c (s.co c 0xA) 128 .rd noWhat)
  else if code = 2 then
    if x.state ≠ 3 then refuse 0x81
    else
      let ks := s.heldOf h
      let s1 := ks.foldl (fun (s : State) k => s.completeEmpty k stFormat) (s.modTile (fun t => { t with holds := t.holds.filter (fun k => !ks.contains k) }))
      let s2 := s1.pinTrim h 0
      (0, (s2.modHnd h (fun _ => {})).idxDone c 0)
  else if code = 3 then
    if x.state ≠ 1 then refuse 0x81 else (0, (s.coSet c 8 1).modHnd h (fun x => { x with state := 2 }))
  else
    if x.state ≠ 3 then refuse 0x81
    else if s.co c 0xA % 256 ≠ 0 ∨ s.co c 0xB % 256 ≠ 0 then refuse 0x83
    else
      let a := s.co c 0xA
      let n := s.co c 0xB
      let inr := fun (port line : Nat) => (List.range 64).any (fun w =>
        let va := s.win c w 0 + line * 256 - s.win c w 1
        fld (s.win c w 2) 8 5 == port && decide (s.win c w 1 ≤ line * 256) && decide (a ≤ va) && decide (va < a + n) &&
        firstIdx 64 (fun v => s.winCovers c v va) == some w)
      let s1 := (List.range 48).foldl (fun (s : State) b => (s.ncInvalidate b (fun _ w => inr w.port w.line)).1) (s.coSet c 8 1)
      let s2 := (s1.lcSweep (fun _ w => inr w.port w.line) (fun e => inr e.port e.line) false true).1
      (0, s2.startCopy h c 2)

/-- The image of a LOAD has been read (R70, R98), for the handle that was named as the command was accepted. -/
def State.idxImage (s : State) (c h : Nat) (j : Job) : State :=
  let s0 := s.modHnd h (fun x => { x with loading := none })
  let x := s0.hndOf h
  let img := j.data % 2 ^ 1024
  if j.err ≠ 0 ∨ imageOk img = false then s0.idxDone c 0x82
  else if x.state = 3 then
    let same := bytesAt img 0x18 8 == x.pinAddr
    let s1 := s0.modHnd h (fun x => { x with entry := img, rlen := if same then min x.rlen (bytesAt img 0x20 4) else 0, phase := 0,
                                             copying := false, copyJob := none })
    ((s1.residCheck h).readRoot h c).idxDone c 0
  else (s0.modHnd h (fun _ => { entry := img, owner := c })).startCopy h c 1

/-- A LOAD or REFIT_END whose copy is done and whose root is recorded (R187; log 46): the handle becomes LIVE (R98). For a
REFIT_END the answer also lists the held slots that go back to the bins. -/
def State.idxProgress (s : State) (h : Nat) : State × List Nat :=
  let x := s.hndOf h
  if x.copying ∨ (x.phase ≠ 3 ∧ x.rootJob.isSome) then (s, [])
  else if x.phase = 1 then (((s.modHnd h (fun x => { x with state := 1, phase := 0 })).residCheck h).idxDone x.owner 0, [])
  else if x.phase = 2 then
    let ks := s.heldOf h
    let s1 := (s.modHnd h (fun x => { x with state := 1, phase := 0 })).modTile (fun t => { t with holds := t.holds.filter (fun k => !ks.contains k) })
    ((s1.residCheck h).idxDone x.owner 0, ks)
  else (s.modHnd h (fun x => { x with phase := 0 }), [])

/-- The root node has been read: a box node with a finite ORIGIN and exponents of 1 to 254 is recorded (R187). -/
def State.rootRead (s : State) (h id : Nat) (j : Job) : State :=
  if (s.hndOf h).rootJob ≠ some id then s
  else
  let v := j.data
  let good := j.err == 0 && fld (s.hndOf h).root 0 4 == 1 &&
    (List.range 3).all (fun a => f32Finite (w32 v (4 * a)) && bytesAt v (0xC + a) 1 != 0 && bytesAt v (0xC + a) 1 != 255)
  s.modHnd h (fun x => { x with rootJob := none, rootBox := good, origin := bytesAt v 0 12, exps := bytesAt v 12 3 })

/-- INFLIGHT of a HOLDING handle is 0: it becomes HELD and REFIT_BEGIN is done (R97, R98). -/
def State.refitHeld (s : State) (h : Nat) : State :=
  let x := s.hndOf h
  if x.state = 2 ∧ s.inflight h = 0 then (s.modHnd h (fun x => { x with state := 3 })).idxDone x.owner 0 else s

/-- Whether a handle can be extended now: it is LIVE or HELD and short of PIN_LEN, in a unit that it has or in a free one (R305). -/
def State.canExtend (s : State) (x : Handle) : Bool :=
  (x.state == 1 || x.state == 3) && decide (x.rlen < x.pinLen) && !x.copying && x.phase == 0 && (decide (x.rlen < 65536 * x.units) || s.pinFree != 0)

/-- Extends one short LIVE or HELD handle up to the end of a unit (R305). A round takes every such handle once, in ascending number. -/
def State.pinExtend (s : State) : State :=
  let find := fun (p : Handle → Bool) => s.hnd.find? (fun e => s.canExtend e.2 && p e.2)
  let next : State × Option (Nat × Handle) := match find (fun x => !x.extended) with
    | some e => (s, some e)
    | none => (s.hnd.foldl (fun (s : State) (e : Nat × Handle) => s.modHnd e.1 (fun x => { x with extended := false })) s, find (fun _ => true))
  match next.2 with
  | none => s
  | some e =>
    let units := if e.2.rlen < 65536 * e.2.units then e.2.units else e.2.units + 1
    let upTo := min e.2.pinLen (65536 * (e.2.rlen / 65536 + 1))
    (next.1.modHnd e.1 (fun x => { x with units := units, phase := 3, extended := true })).pinCopy e.1 e.2.rlen (upTo - e.2.rlen)

/-- Takes units from handles for a growing Lining cache: one at a time from the end of the handle with the largest RLEN,
ties to the higher number (R305). -/
def State.takeUnits : (n : Nat) → State → State
  | 0, s => s
  | n + 1, s =>
    match s.hnd.foldl (fun (b : Option (Nat × Nat)) e =>
        if e.2.units = 0 then b else match b with
          | none => some (e.1, e.2.rlen)
          | some (h, r) => if r ≤ e.2.rlen then some (e.1, e.2.rlen) else some (h, r)) none with
    | none => s
    | some (h, _) => State.takeUnits n (s.pinTrim h ((s.hndOf h).units - 1))

end Sys2Proof.Machine
end

