-- ==== Sys2Proof/Machine/Power.lean ====
section
/-! DEFINITION. The Tailor: peer requests (R421 to R424), the lifetime log (R458, R459), the margin plan (R453 to
R457), power states (R439 to R444), Bobbin gating (R447, R448), temperature and probes (R450 to R452). -/

namespace Sys2Proof.Machine

/-! ## Peer requests (R421) -/

/-- The frame of a peer request. -/
def peerFrame (s : State) (q : PeerReq) : RingFrame :=
  { dst := q.dst, src := BitVec.ofNat 8 s.addr, ftype := if q.write then 3 else 2, tid := q.tid, index := q.index,
    sub := q.sub, stat := 0, offset := BitVec.ofNat 32 q.offset, len := BitVec.ofNat 16 q.len,
    fflags := if q.write && q.data.length == 256 then 1 else 0, res := 0, data := q.data, crc := 0 }

/-- Sends a peer request if the tile is addressed; otherwise it goes out when an ENUM gives an address (R404). -/
def State.sendPeer (s : State) (q : PeerReq) : State :=
  if s.addr = 0xFE then s else s.sendRing (peerFrame s q)

/-- Index and subindex named by STORE_OBJ or VREG_OBJ (R421). -/
def objName (v : Nat) : BitVec 16 × BitVec 8 := (BitVec.ofNat 16 v, BitVec.ofNat 8 (v / 65536))

/-- Starts a storage access: one segment of 256 bytes (R422). -/
def State.askStore (s : State) (seg : Nat) (data : Option (List Byte)) : State :=
  let n := objName (s.o 0x1110 2)
  let q : PeerReq := {
    tid := s.ring.nextTid, write := data.isSome, dst := BitVec.ofNat 8 (s.o 0x1110 1), index := n.1,
    sub := n.2, offset := 256 * seg, len := 256, data := data.getD [] }
  (s.modRing (fun r => { r with store := some q, nextTid := r.nextTid + 1 })).sendPeer q

/-- Starts a set-point request (R423). -/
def State.askVreg (s : State) (mv : Nat) : State :=
  let n := objName (s.o 0x1110 4)
  let q : PeerReq := {
    tid := s.ring.nextTid, write := true, dst := BitVec.ofNat 8 (s.o 0x1110 3), index := n.1, sub := n.2,
    len := 2, data := toBytes 2 mv, mv := mv }
  (s.modRing (fun r => { r with vreg := some q, nextTid := r.nextTid + 1 })).sendPeer q

/-- Sends the outstanding peer requests again with new TIDs, after an ENUM (R404, R428). -/
def State.resendPeers (s : State) : State :=
  let s1 := match s.ring.store with
    | some q =>
      let q' := { q with tid := s.ring.nextTid, dst := BitVec.ofNat 8 (s.o 0x1110 1) }
      (s.modRing (fun r => { r with store := some q', nextTid := r.nextTid + 1 })).sendPeer q'
    | none => s
  match s1.ring.vreg with
  | some q =>
    let q' := { q with tid := s1.ring.nextTid, dst := BitVec.ofNat 8 (s1.o 0x1110 3) }
    (s1.modRing (fun r => { r with vreg := some q', nextTid := r.nextTid + 1 })).sendPeer q'
  | none => s1

/-! ## The lifetime log (R458) -/

/-- One bit step of CRC-32 as in IEEE 802.3, reflected. -/
def crc32Bit (c : Nat) : Nat := if c % 2 = 1 then (c / 2) ^^^ 0xEDB88320 else c / 2
/-- One byte of CRC-32. -/
def crc32Byte (c : Nat) (b : Byte) : Nat :=
  crc32Bit (crc32Bit (crc32Bit (crc32Bit (crc32Bit (crc32Bit (crc32Bit (crc32Bit (c ^^^ b.toNat))))))))
/-- CRC-32 of a list of bytes. -/
def crc32 (bs : List Byte) : Nat := (bs.foldl crc32Byte 0xFFFFFFFF) ^^^ 0xFFFFFFFF

/-- A segment with its CRC in bytes 0xFC to 0xFF. -/
def sealSeg (v : Nat) : Nat := putBytes v 0xFC 4 (crc32 (toBytes 0xFC v))

/-- Segment g of the Tailor's copy, without regard to the CRC. -/
def State.seg (s : State) (g : Nat) : Nat := tget 0 s.pwr.log g

/-- The header copy in force: the valid one with the higher GEN (R458). -/
def State.hdrSeg (s : State) : Nat :=
  let ok := fun g => bytesAt (s.seg g) 0 4 == 0x54474C31
  if ok 1 && (!ok 0 || decide (bytesAt (s.seg 0) 4 4 < bytesAt (s.seg 1) 4 4)) then 1 else 0

/-- Sends the next queued segment if storage is free. -/
def State.storeNext (s : State) : State :=
  match s.ring.store, s.ring.storeQ with
  | none, (g, d) :: r => (s.modRing (fun x => { x with storeQ := r })).askStore g (some d)
  | _, _ => s

/-- Writes changed segments to the log, then the header copy that is not current with GEN + 1 (R459). Without storage
nothing is written. -/
def State.logWrite (s : State) (segs : List (Nat × Nat)) (jhead : Nat) : State :=
  if s.ring.storeBad then s
  else
    let cur := s.hdrSeg
    let h0 := s.seg cur
    let h := putBytes (putBytes (putBytes (putBytes (putBytes 0 0 4 0x54474C31) 4 4 (bytesAt h0 4 4 + 1)) 8 8 Config.serial.toNat)
      0x10 4 (s.o 0x6000 9 / 64)) 0x14 2 jhead
    let all := segs ++ [(1 - cur, h)]
    let s1 := s.modPwr (fun p => { p with log := all.foldl (fun t e => tset 0 t e.1 e.2) p.log, logExists := true })
    (s1.modRing (fun r => { r with storeQ := r.storeQ ++ all.map (fun e => (e.1, toBytes 256 (sealSeg e.2))) })).storeNext

/-- The next journal entry number (R458). -/
def State.jhead (s : State) : Nat := bytesAt (s.seg s.hdrSeg) 0x14 2

/-- Writes changed segments with one journal entry of this KIND (R458, R459). What its DATA holds is not stated: a free value
(log 37). -/
def State.logJournal (s : State) (kind : Nat) (segs : List (Nat × Nat)) : State :=
  let j := s.jhead
  let g := 64 + j / 15
  let o := 16 * (j % 15)
  let v := putBytes (putBytes (putBytes (s.seg g) o 4 (s.o 0x6000 9 / 64)) (o + 4) 4 kind) (o + 8) 8 s.draw.1.toNat
  s.draw.2.logWrite (segs ++ [(g, v)]) ((j + 1) % 2880)

/-- Segment 2 as the margin state stands. -/
def State.marginSeg (s : State) : Nat :=
  putBytes (putBytes (putBytes (putBytes 0 0 1 (s.o 0x6000 4)) 1 1 s.pwr.nvMax) 4 4 (s.o 0x6000 0x0C / 64)) 8 12 s.pwr.birthOut

/-- Segment 4: the partition as it stands, and the withdrawals that the log holds. -/
def State.partSeg (s : State) : Nat :=
  s.seg 4 / 2 ^ 192 * 2 ^ 192 + s.part.pin + s.part.park * 2 ^ 32 + s.part.bin * 2 ^ 64 + s.part.rb * 2 ^ 96 + s.part.lc * 2 ^ 128 +
  bytesAt (s.seg 4) 0x14 4 * 2 ^ 160

/-- Segment 4 with the bits of Bobbin b in BOB_WD, ARRAY_WD and BASTE_WD replaced (R394, R458). -/
def State.wdSeg (s : State) (b bob arr bst : Nat) : Nat :=
  let v := s.partSeg
  setFld (setFld (setFld v (0x18 * 8 + b) 1 bob) (0x20 * 8 + b) 1 arr) (0x28 * 8 + 4 * b) 4 bst

/-- The withdrawals of Bobbin b and its units go into the log (R394, R459). -/
def State.logWithdrawal (s : State) (b : Nat) : State :=
  let old := s.seg 4
  s.logJournal 5 [(4, s.wdSeg b (fld (s.o 0x7010 1) b 1) (fld (s.o 0x7010 2) b 1) (fld old (0x28 * 8 + 4 * b) 4 ||| fld (s.o 0x7010 3) (4 * b) 4))]

/-- The entries of n log segments from g on that are not empty (R458). -/
def State.logList (s : State) (g n : Nat) : List Nat :=
  (List.range n).flatMap (fun i => (List.range 63).filterMap (fun j =>
    let e := bytesAt (s.seg (g + i)) (4 * j) 4
    if e = 0 then none else some e))
/-- Entries as log segments from g on, 63 in each, as far as n segments hold them (R458). -/
def logSegs (g n : Nat) (l : List Nat) : List (Nat × Nat) :=
  (List.range (min n ((l.length + 62) / 63))).map (fun i => (g + i, ((l.drop (63 * i)).take 63).foldr (fun e v => e % 2 ^ 32 + v * 2 ^ 32) 0))
/-- Retired Lining lines as segments 5 to 44 (R458). -/
def State.retiredSegs (s : State) : List (Nat × Nat) := logSegs 5 40 (s.tile.retired.map (fun l => l + 1))
/-- Pass counts of corrected errors as segments 45 to 52 (R329, R458). -/
def State.passSegs (s : State) : List (Nat × Nat) := logSegs 45 8 (s.tile.passes.map (fun e => e.1 % 2 ^ 24 + min 15 e.2 * 2 ^ 24))

/-! ## The margin plan (R453 to R457) -/

/-- NV, NF in force. -/
def State.nv (s : State) : Nat := s.o 0x6000 6
def State.nf (s : State) : Nat := s.o 0x6000 7

/-- CLK_A in force: min(plan, thermal, CLK_A_CAP), never above 800 (R446). -/
def State.clkTarget (s : State) : Nat := min 800 (min s.pwr.plan (min s.pwr.thermal (s.o 0x2120 2)))

/-- CLK_A is on its way to another frequency (R446). -/
def State.slewing (s : State) : Bool := s.live && s.clkTarget != s.o 0x4000 5

/-- The plan is frozen, by too few valid probes or by PLAN_FREEZE (R452, R457). -/
def State.frozen (s : State) : Bool := s.pwr.frozen || bit (s.o 0x2120 3) 0

/-- MSTATUS (R457): DERATED, EXHAUSTED, NOSTORE, FROZEN. -/
def State.setMstatus (s : State) : State :=
  let n := s.o 0x6000 4 + s.o 0x6000 5
  let nf := n - min n s.pwr.nvMax
  s.oSet 0x6000 8 (b2n (s.nf != 0) + 2 * b2n (decide (800 < 500 + 25 * nf)) + 4 * b2n s.ring.storeBad +
    8 * b2n s.frozen)

/-- A change of N_AGE, NV or NF: status, log and margin event (R454, R463). -/
def State.marginChanged (s : State) : State :=
  let s1 := s.setMstatus
  (s1.logJournal 1 [(2, s1.marginSeg)]).stateEvent

/-- Moves one step toward the targets, if no step is under way (R446, R454, R464); in a frozen plan NV goes to its maximum (R452). -/
def State.planStep : (fuel : Nat) → State → State
  | 0, s => s
  | f + 1, s =>
    if s.ring.vreg.isSome || s.pwr.settling || s.slewing then s
    else
      let n := s.o 0x6000 4 + s.o 0x6000 5
      let nvT := if s.frozen then s.pwr.nvMax else min n s.pwr.nvMax
      let nfT := n - min n s.pwr.nvMax
      let clocked := s.live
      let freq := fun (nf : Nat) =>
        let s1 := (s.oSet 0x6000 7 nf).modPwr (fun p => { p with plan := max 500 (800 - 25 * nf) })
        State.planStep f (s1.marginChanged.raise 0x5700 2 s1.pwr.plan)
      if s.nv < nvT then s.askVreg (Config.vf + 5 * (s.nv + 1))
      else if s.nf < nfT then (if clocked then freq (s.nf + 1) else s)
      else if nfT < s.nf then (if clocked then freq (s.nf - 1) else s)
      else if nvT < s.nv then s.askVreg (Config.vf + 5 * (s.nv - 1))
      else s

/-- Takes the next steps of the plan. -/
def State.plan (s : State) : State := State.planStep 64 s

/-- An override has changed: in operation the plan follows at once (R455, R457). -/
def State.replan (s : State) : State := if 2 ≤ s.pstate ∧ s.pwr.start.isNone then s.plan else s

/-- Recomputes GUARD := 2 × NOSTORE + GUARD_EXTRA and, on a change, raises GUARD (R455). -/
def State.reguard (s : State) : State :=
  let g := 2 * b2n s.ring.storeBad + s.o 0x2120 1
  if s.o 0x6000 5 = g then s.setMstatus
  else ((s.oSet 0x6000 5 g).setMstatus.raise 0x5700 3 g).stateEvent

/-- Storage becomes unavailable: STORE_FAIL, NOSTORE and the guard rule (R424, R455). -/
def State.storeFail (s : State) (offset : Nat) : State :=
  let s1 := (s.modRing (fun r => { r with storeBad := true, store := none, storeQ := [] })).raise 0x5800 5 offset
  s1.reguard

/-- The journal entry of an excluded probe (R458, R459); the birth measurement writes the log afresh after it (R456). -/
def State.probeLog (s : State) (birth : Bool) : State := if birth then s else s.logJournal 4 []

/-- A probe reading: R := ⌊65,536 × S / U⌋ for each probe, exclusions, N_AGE and the plan (R451 to R453). `first` is a
reading made at a start: accepted alone (R453); `birth` is the birth measurement (R456). -/
def State.probe (s : State) (su : List (Nat × Nat)) (first birth : Bool) : State :=
  let rs := (List.range 96).map (fun p => match su[p]? with | some (a, u) => if u = 0 then 0 else 65536 * a / u | none => 0)
  let r0 := fun p => (Config.probeR0 p).toNat
  let far := fun (x y : Nat) => decide (256 < x - y) || decide (256 < y - x)
  let s1 := (List.range 96).foldl (fun (s : State) p =>
    let r := rs.getD p 0
    let prev := tget 0 s.pwr.lastR p
    let bad := decide (r0 p + 256 < r) || (!first && prev != 0 && far r prev) || (birth && far r (r0 p))
    let s2 := if bad && !bit s.pwr.excluded p then
        ((s.modPwr (fun w => { w with excluded := w.excluded + 2 ^ p, birthOut := if birth then w.birthOut + 2 ^ p else w.birthOut })).raise 0x5700 4 p).probeLog birth
      else s
    let s3 := s2.modPwr (fun w => { w with lastR := tset 0 w.lastR p r })
    let s4 := if birth then s3.oSet 0x6020 (1 + p) (r0 p + r % 65536 * 65536) else s3
    s4.oSet 0x6010 (1 + p) (r % 65536 + b2n (!bit s4.pwr.excluded p) * 65536)) s
  let valid := ((List.range 96).filter (fun p => !bit s1.pwr.excluded p)).length
  let dmax := (List.range 96).foldl (fun a p => if bit s1.pwr.excluded p then a else max a (r0 p - rs.getD p 0)) 0
  let s2 := (s1.oSet 0x6000 0x0A valid).oSet 0x6000 0x0B (dmax % 65536)
  if valid < 48 || s2.frozen then
    let s3 := (s2.modPwr (fun p => { p with frozen := p.frozen || decide (valid < 48) })).setMstatus
    if valid < 48 then s3.plan else s3
  else
    let a := (dmax - Config.dFree.toNat + Config.stepD - 1) / Config.stepD
    let lim := if first then a else min a s2.pwr.aPrev
    let nOld := s2.o 0x6000 4
    let nNew := max nOld lim
    let s3 := (s2.modPwr (fun p => { p with aPrev := a })).oSet 0x6000 4 nNew
    let s4 := if nNew = nOld then s3.setMstatus else s3.marginChanged
    if first then s4 else s4.plan

/-! ## Entering HOLD (R440, R465) -/

/-- The bypass closes: what waits on the ring is lost, and the peer requests are abandoned (R402, R404). -/
def State.closeBypass (s : State) : State := s.modRing (fun r => { r with bypassOpen := false })

/-- Clears what a ring-interface reset clears: address, duplicate table, vendor unlock, queued requests (R411). -/
def State.ringClear (s : State) : State :=
  ((s.oSet 0x1100 1 0xFE).oSet 0x1220 3 0xFF).modRing (fun r =>
    { r with dup := [], queue := r.queue.filter (fun q => match q with | .mailbox _ => true | .ring _ => false), domW := [] })

/-- A ring-interface reset (R411). -/
def State.ringReset (s : State) : State :=
  (s.closeBypass.ringClear.oSet 0x1100 0x0A ((s.o 0x1100 0x0A + 1) % 2 ^ 32)).raise 0x5800 0 noWhat

/-- Draws a new CHALLENGE (R418). -/
def State.newChallenge (s : State) : State := { s.draw.2 with challenge := s.draw.1 }

/-- Every main-domain store at its reset contents; always-on objects, ring and power state kept (R416, R439, R440), and what lasts until
the next cold start: retired lines and ray-store entries, disabled ways and their counts (R329, R331, R372, R373). -/
def State.loseMain (s : State) : State :=
  { State.reset with
    rs := (s.rs.filter (fun e => e.2.retired)).map (fun e => (e.1, { retired := true })),
    pending := s.pending, free := s.free, clkF := s.clkF, order := s.order, out := s.out, challenge := s.challenge,
    obj := s.obj.filter (fun e => alwaysOn (e.1 / 256) || e.1 == okey 0x4330 0x0A || e.1 == okey 0x4330 0x0B || e.1 == okey 0x2300 8), part := s.part,
    tile := { retired := s.tile.retired, passes := s.tile.passes, waysOff := s.tile.waysOff, wayErrs := s.tile.wayErrs, lostUnits := s.tile.lostUnits,
              lostSlots := s.tile.lostSlots, lostChunks := s.tile.lostChunks + s.tile.chunkOld.length, lostPages := s.tile.lostPages + s.tile.pageOld.length, lcOff := s.tile.lcOff },
    ring := { s.ring with queue := s.ring.queue.filter (fun q => match q with | .mailbox _ => false | .ring _ => true) },
    pwr := { s.pwr with
      drainFor := 0, drainCmd := false, quiesced := false, holdClean := false, waking := false,
      holdAfterWake := false, abortAfterWake := 0, abortMask := 0, thermalStop := false,
      start := none } }

/-- Enters HOLD: main-domain state is lost, clocks stop; an abort in progress ends with no write (R440, R465, R479). -/
def State.toHold (s : State) : State :=
  if s.o 0x4000 1 = 1 then s.loseMain
  else
    let s1 := s.loseMain
    let s2 := ((s1.oSet 0x4000 5 0).oSet 0xF002 2 0).oSet 0xF002 3 0
    (s2.oSet 0x2100 1 0).enter 1

/-! ## POWER_CMD and the state machine (R440 to R444) -/

/-- Idle in the sense of R301: no context enabled, every handle FREE. -/
def State.idle (s : State) : Bool :=
  (List.range 64).all (fun c => !s.ctxEn c) && s.hnd.all (fun e => e.2.state == 0)

/-- Whether nothing is outstanding or waiting on any port (R442). -/
def State.portsQuiet (s : State) : Bool :=
  (List.range 24).all (fun p => (s.portOf p).rds.isEmpty && (s.portOf p).wrs.isEmpty && (s.portOf p).waiting.isEmpty)

/-- The conditions of automatic sleep (R443). -/
def State.idleAuto (s : State) : Bool :=
  (List.range 64).all (fun c => s.usagePark c == 0) && s.strm.all (fun e => e.2.fetched == e.2.tail || !bit (s.ringCtrl (e.1 / 8) (e.1 % 8)) 0) &&
  s.strm.all (fun e => e.2.hem.isEmpty && e.2.ringOut.isEmpty && e.2.closing.isEmpty && (match e.2.open_ with | some f => f.placed.isEmpty | none => true)) && s.tile.posts.isEmpty && s.tile.waitPosts.isEmpty &&
  s.thr.all (fun e => e.2.st != .ready) && s.mig.all (fun e => !e.2.used) && s.slot.all (fun e => e.2.served.isNone || e.2.place == .none) &&
  (List.range 64).all (fun c => s.co c 8 != 1) && s.o 0xF010 1 != 1 && s.o 0x2300 6 != 1 && s.o 0x2500 3 != 1 && s.o 0xF020 2 != 1

/-- Starts DRAIN for SLEEP (1) or HOLD (2). -/
def State.startDrain (s : State) (what : Nat) (cmd : Bool) : State :=
  (s.modPwr (fun p => { p with drainFor := what, drainCmd := cmd, quiesced := false, holdClean := false })).enter 4

/-- Back to RUN out of DRAIN; a SLEEP command that was under way has ended (R440). -/
def State.leaveDrain (s : State) : State :=
  ((if s.pwr.drainCmd then s.oSet 0x2100 1 0 else s).modPwr (fun p => { p with drainFor := 0, drainCmd := false, quiesced := false })).enter 3

/-- A wake event (R441): out of DRAIN without a pending HOLD at once, out of SLEEP by a wake. -/
def State.wakeEvent (s : State) : State :=
  if s.pstate = 4 ∧ s.pwr.drainFor = 1 then s.leaveDrain
  else if s.pstate = 2 then s.modPwr (fun p => { p with waking := true })
  else s

/-- A write of POWER_CMD; the answer is the STAT of the write (R444, R492). -/
def State.powerCmd (s : State) (code : Nat) : Nat × State :=
  let set := fun v => (0, s.oSet 0x2100 1 v)
  if s.o 0x2100 1 = 1 then (0x83, s)
  else if code = 1 then
    (if s.pstate = 3 then (0, (s.oSet 0x2100 1 1).startDrain 1 true) else if s.pstate = 2 then set 0 else set 0x81)
  else if code = 2 then
    (if s.pstate = 2 then (0, (s.oSet 0x2100 1 1).modPwr (fun p => { p with waking := true }))
     else if s.pstate = 4 then (0, (s.oSet 0x2100 1 0).wakeEvent) else if s.pstate = 3 then set 0 else set 0x81)
  else if code = 3 then
    (if s.pstate = 3 then (if s.idle then (0, (s.oSet 0x2100 1 1).startDrain 2 true) else set 0x80)
     else if s.pstate = 2 then
       (if s.idle then (0, (s.oSet 0x2100 1 1).modPwr (fun p => { p with waking := true, holdAfterWake := true })) else set 0x80)
     else set 0x81)
  else set 0x84

/-- The end of DRAIN for HOLD, once the Lining cache is clean and the log written (R440, R442). -/
def State.holdDone (s : State) : State :=
  if s.pstate = 4 ∧ s.pwr.holdClean ∧ s.portsQuiet ∧ s.ring.store = none ∧ s.ring.storeQ = [] then s.toHold else s

/-- Quiesce done (R442). -/
def State.quiesce (s : State) : State :=
  if s.pstate = 4 ∧ s.portsQuiet ∧ s.pwr.abortMask = 0 ∧ s.pwr.drainFor ≠ 0 then
    if s.pwr.drainFor = 1 then s.modPwr (fun p => { p with quiesced := true })
    else
      let s1 := (s.lcSweep (fun _ _ => true) (fun _ => true) true false).1
      ((s1.modPwr (fun p => { p with quiesced := true, holdClean := true })).logWrite [(2, s1.marginSeg), (4, s1.partSeg)] s1.jhead).holdDone
  else s

/-- The clocks stop and SLEEP is entered (R440). -/
def State.sleepEntry (s : State) : State :=
  if s.pstate = 4 ∧ s.pwr.quiesced ∧ s.pwr.drainFor = 1 then
    let s1 := if s.pwr.drainCmd then s.oSet 0x2100 1 0 else s
    (((s1.modPwr (fun p => { p with drainFor := 0, drainCmd := false, quiesced := false })).oSet 0x4000 5 0).began 0x4000 9).enter 2
  else s

/-- The wake ends: RUN, or DRAIN at once for a pending HOLD (R440). What was held is applied by the caller. -/
def State.wakeDone (s : State) : State :=
  if s.pstate = 2 ∧ s.pwr.waking then
    let s1 := (s.modPwr (fun p => { p with waking := false })).oInc 0x4000 8
    let s2 := (s1.oSet 0x4000 5 s1.clkTarget).enter 3
    if s2.pwr.holdAfterWake then (s2.modPwr (fun p => { p with holdAfterWake := false })).startDrain 2 true
    else (if s2.o 0x2100 1 = 1 then s2.oSet 0x2100 1 0 else s2).plan
  else s

/-! ## Bobbins: clocks and gating (R447, R448) -/

/-- In service: not withdrawn (R394). -/
def State.inService (s : State) (b : Nat) : Bool := decide (b < 48) && !bit (s.o 0x7010 1) b && !(s.bobOf b).wd
/-- Awake: its clock runs. -/
def State.awake (s : State) (b : Nat) : Bool := (s.bobOf b).clock == 0
/-- Bobbins in a clock state, as a mask (R462). -/
def State.bobMask (s : State) (p : Nat → Bool) : Nat :=
  (List.range 48).foldl (fun a b => a + b2n (p (s.bobOf b).clock) * 2 ^ b) 0
/-- Awake Bobbins in service. -/
def State.awakeList (s : State) : List Nat := (List.range 48).filter (fun b => s.awake b && s.inService b)
/-- Occupied ray-store entries of a Bobbin. -/
def State.occupied (s : State) (b : Nat) : Nat := (s.rs.filter (fun e => e.1 / 8192 == b && e.2.slot.isSome)).length
/-- Occupied entries of one Needle. -/
def State.needleOcc (s : State) (b n : Nat) : Nat :=
  (s.rs.filter (fun e => e.1 / 8192 == b && e.1 % 8192 / 512 == n && e.2.slot.isSome)).length

/-- Asks for the wake of a Bobbin (R192, R448): 6 µs from gated, 40 cycles from clock-stopped. -/
def State.wakeBob (s : State) (b : Nat) : State :=
  match (s.bobOf b).clock with
  | 1 => s.modBob b (fun v => { v with clock := 4 })
  | 2 => s.modBob b (fun v => { v with clock := 3 })
  | _ => if (s.bobOf b).drain then s.modBob b (fun v => { v with drain := false }) else s

/-- What a node-cache set holds after power gating: its locked ways, empty (R311, R322). -/
def NcSet.gated (x : NcSet) : NcSet := { ways := (x.ways.filter (fun w => w.locked)).map (fun w => { way := w.way, locked := true }) }

/-- Power-gates a Bobbin: the node cache, ray store, weight buffers and work memories lose their contents (R448); its locked lines are lost and
their ways stay locked-empty (R311, R322). -/
def State.gateBob (s : State) (b : Nat) : State :=
  let lost := ((s.nc.filter (fun e => e.1 / 1024 == b)).flatMap (fun e => e.2.ways.filter (fun w => w.locked && (w.valid != 0 || w.filling) && !w.noKeep))).length
  let s := (List.range lost).foldl (fun (s : State) _ => s.lockDrop b) s
  ({ s with
    nc := (s.nc.map (fun (e : Nat × NcSet) => if e.1 / 1024 = b then (e.1, e.2.gated) else e)).filter (fun e => e.2 != ({} : NcSet)), rs := s.rs.filter (fun e => e.1 / 8192 != b || e.2.retired),
    eng := s.eng.filter (fun e => e.1 / 4 != b) }.modBob b (fun v => v.gated)).oInc 0x4000 0x0A

/-- Whether gating one more Bobbin keeps MIN_AWAKE (R448). -/
def State.mayGate (s : State) (b : Nat) : Bool :=
  bit (s.o 0x2110 1) 0 && !s.ncLocked b &&
  decide (s.o 0x2110 2 < ((List.range 48).filter (fun i => s.inService i && (s.bobOf i).clock != 2 && (s.bobOf i).clock != 3)).length)

/-- The 1 ms decision of R448. -/
def State.consolidate (s : State) : State :=
  if !s.live then s
  else if !bit (s.o 0x2110 1) 0 then
    (List.range 48).foldl (fun (s : State) b => if s.inService b && (s.bobOf b).clock == 2 then s.wakeBob b else s) s
  else
    let aw := s.awakeList
    let n := aw.length
    let u := aw.foldl (fun a b => a + s.occupied b) 0
    if u * 256 < s.o 0x2110 5 * 8192 * (n - 1) then
      match aw.getLast? with
      | some b => if s.mayGate b && !(List.range 48).any (fun i => (s.bobOf i).drain) then s.modBob b (fun v => { v with drain := true }) else s
      | none => s
    else if s.o 0x2110 6 * 8192 * n < u * 256 then
      match firstIdx 48 (fun b => s.inService b && (s.bobOf b).clock == 2) with
      | some b => s.wakeBob b
      | none => s
    else s

/-! ## Temperature (R450) -/

/-- The 1 ms reading. -/
def State.thermal (s : State) (tj : Int) : State :=
  if s.pwr.vddW && s.pstate != 0 then
    let s0 := s.oSet 0x4000 7 (ofInt 32 tj)
    if !s0.live then s0
    else
      let lim : Int := s0.o 0x2130 1
      let s1 := if lim ≤ tj then (s0.modPwr (fun p => { p with thermal := max 500 (p.thermal - 25) })).raise 0x5700 5 (ofInt 24 tj)
        else if tj ≤ lim - 3 then s0.modPwr (fun p => { p with thermal := min 800 (p.thermal + 25) })
        else s0
      let s2 := if 105 ≤ tj then (s1.modPwr (fun p => { p with thermalStop := true })).raise 0x5700 5 (ofInt 24 tj)
        else if tj ≤ lim then s1.modPwr (fun p => { p with thermalStop := false }) else s1
      s2
  else s

/-- A slew of 25 MHz ends (R446); the plan goes on. -/
def State.clkStep (s : State) : State :=
  if s.live ∧ s.o 0x4000 5 ≠ s.clkTarget then
    let cur := s.o 0x4000 5
    let s1 := s.oSet 0x4000 5 (if cur < s.clkTarget then min s.clkTarget (cur + 25) else max s.clkTarget (cur - 25))
    s1.plan
  else s

/-- Bobbin clocks run: not stopped by temperature (R450). -/
def State.bobRuns (s : State) (b : Nat) : Bool := s.live && s.awake b && !s.pwr.thermalStop

end Sys2Proof.Machine
end

