-- ==== Sys2Proof/Machine/Start.lean ====
section
/-! DEFINITION. Reset inputs and starts (R465 to R471), and what a RESP, a timeout or a settled voltage continues (R421,
R423, R454, R467). -/

namespace Sys2Proof.Machine

/-- Lining lines in all: 3 GiB of 256 bytes (R20). -/
def liningLines : Nat := 12582912

/-- USABLE_MB: the lines that are not retired, in whole MiB (R299, R329; log 13). -/
def State.usable (s : State) : Nat := (liningLines - Config.factoryLines - s.tile.retired.length) / 4096

/-- Whether a partition keeps the ranges of R299 and R185 and fits USABLE_MB. The answer is 0, or the code of R300. -/
def partCheck (p : Part) (usable : Nat) : Nat :=
  if p.pin < 2 ∨ p.park < 8 ∨ 1024 < p.park ∨ p.rb < 8 ∨ ¬ (p.lc = 0 ∨ p.lc = 64 ∨ p.lc = 128 ∨ p.lc = 256 ∨ p.lc = 512 ∨ p.lc = 1024) ∨
     p.bin * 1048576 < 4 * (p.park * 16384) + 8192 * 2048 then 0x81
  else if usable < p.pin + p.park + p.bin + p.rb + p.lc then 0x82 else 0

/-- The factory default partition (R299). -/
def factoryPart (usable : Nat) : Part := { pin := usable - 2016, park := 1024, bin := 256, rb := 224, lc := 512 }

/-- The five staged sizes set to the partition in force (R300). -/
def State.stagePart (s : State) : State :=
  ((((s.oSet 0x2300 1 s.part.pin).oSet 0x2300 2 s.part.park).oSet 0x2300 3 s.part.bin).oSet 0x2300 4 s.part.rb).oSet 0x2300 5 s.part.lc

/-- START_STATUS with its fields (R471). -/
def startStatus (step kind fails force detail : Nat) : Nat :=
  step % 256 + kind * 256 + fails * 1024 + force * 4096 + detail % 65536 * 65536

/-- A start fails at a step (R470). -/
def State.startFail (s : State) (step detail : Nat) : State :=
  match s.pwr.start with
  | none => s
  | some g =>
    let old := s.o 0xF000 3
    let fails := if g.warm then min 3 (fld old 10 2 + 1) else fld old 10 2
    let force := if fails = 3 then 1 else fld old 12 1
    let s1 := if step = 2 ∧ s.o 0xF020 3 ≠ 0 then s.oSet 0xF020 3 0 else s
    let s2 := ((s1.oSet 0xF000 3 (startStatus step (if g.warm then 2 else 1) fails force detail)).oSet 0xF000 1 0x82).raise 0x5700 6 step
    let s3 := if s2.pwr.logExists then s2.logJournal 3 [] else s2
    s3.loseMain

/-- Step 11: RUN (R467, R470); a_prev is 0 after each start (R453). -/
def State.startRun (s : State) (g : StartProg) : State :=
  let s1 := (List.range 48).foldl (fun (s : State) b => if s.inService b then s.modBob b (fun v => { v with clock := 0 }) else s) s
  let s2 := ((s1.oSet 0x4000 5 s1.clkTarget).oSet 0xF000 1 0).oSet 0xF000 3 (startStatus 0 (if g.warm then 2 else 1) 0 0 0)
  let s3 := (s2.modPwr (fun p => { p with start := none, pwrokFell := false, aPrev := 0 })).enter 3
  let s4 := if g.env.badLines.isEmpty then s3 else s3.logWrite s3.retiredSegs s3.jhead
  s4.plan

/-- Step 10: partition, withdrawals, Bobbin check pattern (R303, R467). -/
def State.start10 (s : State) (g : StartProg) : State :=
  let us := s.usable
  let p := if g.warm then s.part
    else
      let v := s.seg 4
      let lp : Part := { pin := bytesAt v 0 4, park := bytesAt v 4 4, bin := bytesAt v 8 4, rb := bytesAt v 12 4, lc := bytesAt v 16 4 }
      if s.pwr.logExists ∧ partCheck lp us = 0 then lp else factoryPart us
  let s1 := ({ s with part := p }).stagePart
  let bad := (List.range 48).filter (fun b => g.env.badBobbins.getLsbD b && s1.inService b)
  let s2 := bad.foldl (fun (s : State) b =>
    (s.oSet 0x7010 1 (s.o 0x7010 1 + 2 ^ b)).logWithdrawal b) s1
  if (List.range 48).all (fun b => !s2.inService b) then s2.startFail 10 0 else s2.startRun g

/-- Step 9: the probe check or the birth measurement (R456). -/
def State.start9 (s : State) (g : StartProg) : State :=
  let stale := decide (3600 < s.o 0x6000 9 - s.o 0x6000 0x0C)
  if g.warm && !stale then s.start10 g
  else if g.env.probes.isEmpty then s.startFail 9 0
  else
    let birth := !g.warm && !s.ring.storeBad && !s.pwr.logExists
    let s1 := (s.oSet 0x6000 0x0C (s.o 0x6000 9)).probe g.env.probes true birth
    let s2 := if birth then
        ((List.range 96).filter (fun p => bit s1.pwr.excluded p)).foldl (fun (s : State) _ => s.logJournal 4 []) <| s1.logWrite [(2, s1.marginSeg), (3, (List.range 96).foldl (fun v p => v + tget 0 s1.pwr.lastR p % 65536 * 2 ^ (16 * p)) 0), (4, s1.partSeg)] 0
      else s1.logWrite [(2, s1.marginSeg)] s1.jhead
    s2.start10 g

/-- The outcome of training one port: LSTATE 1, 2 or 3, and the module at fault (R338, R350). -/
def trainOne (s : State) (g : StartProg) (p : Nat) : Nat × Nat :=
  match g.env.train.find? (fun e => e.1 == p) with
  | some (_, some m) => (3, m)
  | some (_, none) => (2, noWhat)
  | none => if bit (s.o (0x2800 + p) 1) 0 then (2, noWhat) else (1, 0)

/-- A port becomes FAILED, or REROUTED where its REROUTE is set (R349): every request outstanding on it ends as an error
completion, those that wait take the later route, and the frames that wait on a seam port take the alternate (R353). -/
def State.portFail (s : State) (p m : Nat) : State :=
  let s1 := s.raise (0x5300 + p) 5 m
  let ps := s1.portOf p
  let reqs := ps.rds.map (fun e => e.2) ++ ps.wrs.map (fun e => e.2)
  let s2 := s1.modPort p (fun ps => { ps with rds := [], wrs := [], waiting := [], retrain := false, faulty := 0, reqHead := 0, reqData := 0 })
  let s3 := s2.oSet (0x4400 + p) 1 3
  let s4 := if p < 16 ∧ bit (s3.o (0x2800 + p) 1) 11 then
      (s3.oSet (0x4400 + p) 1 4).raise (0x5300 + p) 6 (fld (s3.o (0x2800 + p) 1) 8 3)
    else s3
  let s5 := reqs.foldl (fun (s : State) r => s.failReq p r) (s4.modPort p (fun ps => { ps with seamQ := [] }))
  let s6 := ps.waiting.foldl (fun (s : State) r => s.send p r) (s5.drainAfter s1 p)
  ps.seamQ.foldl (fun (s : State) f => (s.sendSeam f.dst f).getD (s.resultSent f)) s6

/-- The CREDIT frames that advertise 1,024 NORMAL and 256 ESCAPE credits: CRN and CRE hold at most 255 each (R354, R355;
log 14). -/
def State.advertise (s : State) (sp : Nat) : State :=
  [(255, 255), (255, 1), (255, 0), (255, 0), (4, 0)].foldl (fun (s : State) (e : Nat × Nat) =>
    let h := 6 + s.o 0x2700 1 * 2 ^ 16 + e.1 * 2 ^ 48 + e.2 * 2 ^ 56
    { s with out := .seam sp { hdr := BitVec.ofNat 256 h, payload := 0 } :: s.out }) s

/-- Step 8: UCIe training of every port (R467). -/
def State.start8 (s : State) (g : StartProg) : State :=
  let s1 := (List.range 48).foldl (fun (s : State) p =>
    match trainOne s g p with
    | (1, _) => (s.oSet (0x4400 + p) 1 1).began (0x4400 + p) 2
    | (2, m) => ((s.oSet (0x4400 + p) 1 2).began (0x4400 + p) 2).raise (0x5300 + p) 4 m
    | (_, m) => s.portFail p m) s
  if (List.range 8).all (fun h => s1.lstate (16 + h) != 1 && s1.lstate (16 + h) != 2) then s1.startFail 8 0
  else
    let s2 := (List.range 24).foldl (fun (s : State) k => if s.lstate (24 + k) = 1 ∨ s.lstate (24 + k) = 2 then s.advertise k else s) s1
    (s2.modPwr (fun p => { p with eqSaved := true })).start9 g

/-- Steps 6 and 7: Lining initialisation and cache invalidation (R467, R324). Lines retired since the last cold start leave USABLE_MB at
the next one (R329). -/
def State.start6 (s : State) (g : StartProg) : State :=
  let s1 := if g.warm then s else ({ s with rs := [] }.oSet 0x4330 0x0A 0).modTile (fun t =>
    { t with retired := t.retired ++ g.env.badLines.filter (fun l => !t.retired.contains l),
             wayErrs := [], lostUnits := 0, lostSlots := [], lostChunks := 0, chunkOld := [], lostPages := 0, pageOld := [], lcOff := [] })
  let us := if g.warm then s1.o 0x2300 8 else s1.usable
  let s2 := ((if g.warm then s1 else (s1.oSet 0x2300 8 us).oSet 0x4330 0x0B (Config.factoryLines + s1.tile.retired.length)).oSet 0x7030 1 Config.factoryLines).oSet
    0x2310 0 (if g.warm then 0 else 0x303)
  if us < 2048 then s2.startFail 6 us else s2.start8 g

/-- The rest of step 5: the frequency of the plan and the PLL lock. -/
def State.start5b (s : State) (g : StartProg) : State :=
  let n := s.o 0x6000 4 + s.o 0x6000 5
  let nf := n - min n s.nv
  let s1 := ((s.oSet 0x6000 7 nf).modPwr (fun p => { p with plan := max 500 (800 - 25 * nf), settling := false })).setMstatus
  match g.env.pll with
  | some d => s1.startFail 5 d
  | none => s1.start6 g

/-- A set point that failed: VREG_FAIL, and NV_MAX becomes the step count last confirmed (R423, R454). -/
def State.vregFail (s : State) (mv : Nat) : State :=
  let s1 := (s.modRing (fun r => { r with vreg := none })).raise 0x5800 4 mv
  s1.modPwr (fun p => { p with nvMax := p.nvConf })

/-- Step 5: the set point of the plan (R453, R454). A cold start ends what an earlier one froze, until its own probe check (R452). -/
def State.start5 (s : State) (g : StartProg) : State :=
  let s0 := (s.modPwr (fun p => { p with nvMax := if g.warm then p.nvMax else (850 - Config.vf) / 5, frozen := g.warm && p.frozen })).reguard
  if s0.o 0x1110 3 = 0xFF then
    let s1 := s0.modPwr (fun p => { p with nvMax := p.nvConf })
    (s1.oSet 0x6000 6 s1.pwr.nvConf).start5b g
  else
    let n := s0.o 0x6000 4 + s0.o 0x6000 5
    (s0.modPwr (fun p => { p with start := some { g with wait := 5 } })).askVreg (Config.vf + 5 * min n s0.pwr.nvMax)

/-- What the whole log gives (R458): N_AGE, exclusions, R_birth, withdrawals, retired lines, OPSEC. Without a log the
tile is new and applies its fuses. -/
def State.useLog (s : State) : State :=
  let h := s.seg s.hdrSeg
  let ok := !s.ring.storeBad && bytesAt h 0 4 == 0x54474C31 && bytesAt h 8 8 == Config.serial.toNat
  if ok then
    let m := s.seg 2
    let w := s.seg 4
    let lines := (s.logList 5 40).map (fun e => e - 1)
    let ways := (s.logList 53 8).map (fun e => e - 1)
    let pass := (s.logList 45 8).map (fun e => (fld e 0 24, fld e 24 4))
    let s1 := (((s.oSet 0x6000 4 (bytesAt m 0 1)).oSet 0x6000 9 (64 * bytesAt h 0x10 4)).oSet 0x6000 0x0C (64 * bytesAt m 4 4)).modPwr
      (fun p => { p with logExists := true, excluded := bytesAt m 8 12, birthOut := bytesAt m 8 12 })
    let s2 := (((s1.oSet 0x7010 1 (bytesAt w 0x18 8)).oSet 0x7010 2 (bytesAt w 0x20 8)).oSet 0x7010 3 (bytesAt w 0x28 24)).oSet 0x7010 4 ways.length
    let s3 := (List.range 96).foldl (fun (s : State) p => s.oSet 0x6020 (1 + p) ((Config.probeR0 p).toNat + bytesAt (s.seg 3) (2 * p) 2 * 65536)) s2
    s3.modTile (fun t => { t with retired := lines, waysOff := ways, passes := pass.foldl (fun t e => tset 0 t e.1 e.2) [] })
  else
    let s1 := (((s.oSet 0x6000 4 0).oSet 0x7010 1 0).oSet 0x7010 2 0).oSet 0x7010 3 0
    (s1.modPwr (fun p => { p with logExists := false, log := [], excluded := 0, birthOut := 0 })).modTile (fun t => { t with retired := [], waysOff := [], passes := [] })

/-- Step 4: the log read (R422, R424), skipped by a warm start. -/
def State.start4 (s : State) (g : StartProg) : State :=
  if g.warm then s.start5 g
  else
    let s0 := s.modRing (fun r => { r with storeBad := false, store := none, storeQ := [] })
    if s0.o 0x1110 1 = 0xFF then (s0.storeFail noWhat).useLog.start5 g
    else (s0.modPwr (fun p => { p with log := [], start := some { g with wait := 4, seg := 0 } })).askStore 0 none

/-- Steps 1 to 3 (R467); a self-test that fails under a staged image leaves the previous bank to the next start (R426). A start waits at step 1 while EXTEST, CLAMP or HIGHZ is the current test instruction (R486). -/
def State.start1 (s : State) (g : StartProg) : State :=
  if !s.pwr.pwrok || !s.pwr.rstN then s.startFail 1 0
  else if 3 ≤ s.pwr.tap then s.modPwr (fun p => { p with start := some { g with wait := 1 } })
  else match g.env.selfTest with
    | some d => s.startFail 2 d
    | none =>
      let s1 := if s.o 0xF020 3 = 0 then s
        else ((s.oSet 0x1005 0 (s.o 0xF020 3)).oSet 0x1006 0 (Config.imageSvn s.ring.fwBytes (s.ring.fwLen.getD 0)).toNat).oSet 0xF020 3 0
      match g.env.fuseBlock with
      | some d => s1.startFail 3 d
      | none => s1.start4 g

/-- Begins a start from HOLD: its kind (R469), the leaf causes other than TLR and RNG reset (R436), and the ring counters
at a cold start (R425). -/
def State.startBegin (s : State) (askedWarm : Bool) (env : StartEnv) (commanded : Bool) : State :=
  let warm := askedWarm && !s.pwr.pwrokFell && s.pwr.eqSaved && !bit (s.o 0xF000 3) 12
  let g : StartProg := { warm := warm, env := env, wait := 0, commanded := commanded, askedWarm := askedWarm }
  let keep := fun (k : Nat) =>
    !(decide (0x5100 ≤ k / 256) && decide (k / 256 < 0x6000) && k / 256 != 0x5700 && k / 256 != 0x5800) &&
    !(!warm && k / 256 == 0x1100 && decide (4 ≤ k % 256))
  let s1 := { s with obj := s.obj.filter (fun e => keep e.1) }
  (((s1.oSet 0xF000 1 1).began 0xF000 4).modPwr (fun p => { p with start := some g })).start1 g

/-- A write of START_CMD (R471, R492); the answer is the STAT. DESIGN CHOICE (log 107): the write of an unknown code is answered 0x00, and the
object reads 0x84; R492 gives a STAT for the busy case alone. -/
def State.startCmd (s : State) (code : Nat) (env : StartEnv) : Nat × State :=
  if s.o 0xF000 1 = 1 then (0x83, s)
  else if code ≠ 1 ∧ code ≠ 2 then (0, s.oSet 0xF000 1 0x84)
  else if s.pstate ≠ 1 then (0, s.oSet 0xF000 1 0x81)
  else (0, s.startBegin (code == 2) env true)

/-- A start requested by an input event, when AUTO is set (R465, R471). -/
def State.autoStart (s : State) (env : StartEnv) : State :=
  if bit (s.o 0xF000 2) 0 ∧ s.pstate = 1 ∧ s.pwr.start = none then s.startBegin (bit (s.o 0xF000 2) 1) env false else s

/-- VDD_W enters its range: every always-on object at its reset value, HOLD, bypass closed (R465). -/
def State.vddOn (s : State) : State :=
  if s.pwr.vddW then s
  else
    let s1 := { State.reset with pending := s.pending, free := s.free, clkF := s.clkF, order := s.order, out := s.out,
                                 pwr := { pwrok := s.pwr.pwrok, rstN := s.pwr.rstN, tap := s.pwr.tap, tapData := s.pwr.tapData, tapBoundary := s.pwr.tapBoundary } }
    (s1.newChallenge.raise 0x5700 0 1).stateEvent

/-- VDD_W is removed: OFF (R439, R440). -/
def State.vddOff (s : State) : State :=
  { State.reset with pending := s.pending, free := s.free, clkF := s.clkF, order := s.order, out := s.out,
                     pwr := { vddW := false, pwrok := s.pwr.pwrok, rstN := s.pwr.rstN, tap := s.pwr.tap, tapData := s.pwr.tapData, tapBoundary := s.pwr.tapBoundary } }

/-- PWROK falls: the bypass closes, the ring interface resets, HOLD (R402, R411, R465). -/
def State.pwrokFall (s : State) : State :=
  let s0 := s.modPwr (fun p => { p with pwrok := false, pwrokFell := true })
  if !s.pwr.vddW then s0
  else
    let s1 := if s0.pwr.start.isSome then s0.oSet 0xF000 1 0 else s0
    s1.ringReset.newChallenge.toHold

/-- RST_N asserted: the bypass closes, the address is lost, HOLD; a start is abandoned (R402, R465, R479; log 15). -/
def State.rstAssert (s : State) : State :=
  let s0 := s.modPwr (fun p => { p with rstN := false })
  if !s.pwr.vddW then s0
  else
    let s1 := if s0.pwr.start.isSome then s0.oSet 0xF000 1 0 else s0
    s1.closeBypass.ringClear.newChallenge.toHold

/-- RST_N deasserted (R465). -/
def State.rstDeassert (s : State) (env : StartEnv) : State :=
  let s0 := s.modPwr (fun p => { p with rstN := true })
  if s0.pwr.vddW && s0.pwr.pwrok then s0.autoStart env else s0

/-- PWROK rises (R465). -/
def State.pwrokRise (s : State) (env : StartEnv) : State :=
  let s0 := s.modPwr (fun p => { p with pwrok := true })
  if s0.pwr.vddW && s0.pwr.rstN then s0.autoStart env else s0

/-- RESET_CMD acts as RST_N asserted for 1 µs and deasserted (R466). -/
def State.resetPulse (s : State) : State :=
  let was := s.pwr.rstN
  let s1 := s.rstAssert
  if was then { s1 with free := s1.free + 1 }.rstDeassert (Config.startEnv s1.free) else s1

/-! ## Answers of the peer services -/

/-- The start or the log goes on after a storage access (R422, R424). -/
def State.storeAnswer (s : State) (q : PeerReq) (ok : Bool) (data : List Byte) : State :=
  let s0 := s.modRing (fun r => { r with store := none })
  match s0.pwr.start with
  | some g =>
    if g.wait = 4 then
      if ok then
        let v := ofBytes data
        let seg := if bytesAt v 0xFC 4 = crc32 (toBytes 0xFC v) then v % 256 ^ 0xFC else 0
        let s1 := s0.modPwr (fun p => { p with log := tset 0 p.log g.seg seg })
        if g.seg = 255 then s1.useLog.start5 { g with wait := 0 }
        else (s1.modPwr (fun p => { p with start := some { g with seg := g.seg + 1 } })).askStore (g.seg + 1) none
      else (s0.storeFail q.offset).useLog.start5 { g with wait := 0 }
    else if ok then s0.storeNext.holdDone else (s0.storeFail q.offset).holdDone
  | none => if ok then s0.storeNext.holdDone else ((s0.storeFail q.offset).plan).holdDone

/-- The regulator's answer (R423, R454). -/
def State.vregAnswer (s : State) (q : PeerReq) (ok : Bool) : State :=
  if ok then
    let nv := (q.mv - Config.vf) / 5
    let s1 := ((s.modRing (fun r => { r with vreg := none })).oSet 0x4000 6 q.mv).modPwr
      (fun p => { p with settling := true, nvConf := nv, start := p.start.map (fun g => { g with wait := 6 }) })
    s1.raise 0x5700 1 q.mv
  else
    let s1 := s.vregFail q.mv
    match s1.pwr.start with
    | some g => (s1.oSet 0x6000 6 s1.pwr.nvConf).start5b { g with wait := 0 }
    | none => s1.plan

/-- VSETTLE has passed: the tile relies on the new voltage (R454, R467). -/
def State.settled (s : State) : State :=
  if s.pwr.settling then
    let s1 := (s.modPwr (fun p => { p with settling := false })).oSet 0x6000 6 s.pwr.nvConf
    match s1.pwr.start with
    | some g => if g.wait = 6 then s1.start5b { g with wait := 0 } else s1
    | none => s1.marginChanged.plan
  else s

/-- A RESP received for an outstanding peer request (R421). -/
def State.peerResp (s : State) (f : RingFrame) : State :=
  match s.ring.store, s.ring.vreg with
  | some q, v =>
    if q.tid = f.tid ∧ q.dst = f.src then s.storeAnswer q (f.stat == 0) f.data
    else match v with
      | some w => if w.tid = f.tid ∧ w.dst = f.src then s.vregAnswer w (f.stat == 0) else s
      | none => s
  | none, some w => if w.tid = f.tid ∧ w.dst = f.src then s.vregAnswer w (f.stat == 0) else s
  | none, none => s

/-- PEER_TIMEOUT of a service: sent again with the same TID up to PEER_RETRY times (R421). -/
def State.peerTimeout (s : State) (svc : Svc) : State :=
  let again := fun (q : PeerReq) => decide (q.retries < s.o 0x1110 7)
  match svc with
  | .store => match s.ring.store with
    | none => s
    | some q =>
      let s1 := s.oInc 0x1100 9
      if again q then
        let q' := { q with retries := q.retries + 1 }
        (s1.modRing (fun r => { r with store := some q' })).sendPeer q'
      else s1.storeAnswer q false []
  | .vreg => match s.ring.vreg with
    | none => s
    | some q =>
      let s1 := s.oInc 0x1100 9
      if again q then
        let q' := { q with retries := q.retries + 1 }
        (s1.modRing (fun r => { r with vreg := some q' })).sendPeer q'
      else s1.vregAnswer q false

/-- The 64 s probe reading in operation: OPSEC advances by 64 (R451, R457). -/
def State.probeReading (s : State) (su : List (Nat × Nat)) : State :=
  if 2 ≤ s.pstate then (s.oAdd 0x6000 9 64).probe su false false else s

/-- 4,096 s of operation: the log is written to update OPSEC (R459). -/
def State.logUpdate (s : State) : State :=
  if 2 ≤ s.pstate then s.logWrite [] s.jhead else s

/-! ## The test port (R486) -/

/-- IDCODE: [31:28] the low nibble of STEPPING's major number, [27:12] 0x0048, [11:1] 0x21D, [0] 1 (R486). -/
def tapIdcodeValue : Nat := Config.stepping.toNat / 256 % 16 * 2 ^ 28 + 0x48 * 2 ^ 12 + 0x21D * 2 + 1

/-- A test instruction is loaded: 0 BYPASS, 1 IDCODE, 2 SAMPLE/PRELOAD, 3 EXTEST, 4 CLAMP, 5 HIGHZ. EXTEST, CLAMP and
HIGHZ hold a start at its step 1; another instruction lets it go on. -/
def State.tapSet (s : State) (n : Nat) : State :=
  let s1 := s.modPwr (fun p => { p with tap := n })
  match s1.pwr.start with
  | some g => if g.wait = 1 ∧ n < 3 then s1.start1 { g with wait := 0 } else s1
  | none => s1

end Sys2Proof.Machine
end

