-- ==== Sys2Proof/Machine/Maint.lean ====
section
/-! DEFINITION. The partition (R299 to R303), cache maintenance and locks (R317 to R322), cache enables (R323 to R327),
and the Tailor's SHIFT policy (R460). -/

namespace Sys2Proof.Machine

/-! ## Partition -/

/-- The staged sizes (R300). -/
def State.staged (s : State) : Part :=
  { pin := s.o 0x2300 1, park := s.o 0x2300 2, bin := s.o 0x2300 3, rb := s.o 0x2300 4, lc := s.o 0x2300 5 }

/-- Whether a maintenance operation on the Lining cache is in progress (R333). -/
def State.lcMaint (s : State) : Bool := match s.tile.maint with | some m => fld m.word 5 2 != 0 | none => false

/-- Does the work of an accepted SHIFT: units for a growing cache are taken, then the cache is cleaned and invalidated
(R302, R305). -/
def State.shiftGo (s : State) (p : Part) : State :=
  let held := s.hnd.foldl (fun a e => a + e.2.units) 0
  let s1 := State.takeUnits (held + 17 + s.tile.lostUnits - 16 * p.pin) s
  (s1.modTile (fun t => { t with partOp := some (false, p), partWait := none })).lcFlush

/-- PART_CMD (R300 to R302, R492). A SHIFT waits for maintenance on the Lining cache (R333). -/
def State.partCmd (s : State) (code : Nat) : Nat × State :=
  let set := fun v => (0, s.oSet 0x2300 6 v)
  let p := s.staged
  if s.o 0x2300 6 = 1 then (0x83, s)
  else if code = 1 then
    if !s.idle then set 0x80
    else if partCheck p (s.o 0x2300 8) ≠ 0 then set (partCheck p (s.o 0x2300 8))
    else (0, ((s.oSet 0x2300 6 1).modTile (fun t => { t with partOp := some (true, p) })).lcFlush)
  else if code = 2 then
    if p.park ≠ s.part.park ∨ p.bin ≠ s.part.bin ∨ p.rb ≠ s.part.rb ∨ p.pin + p.lc ≠ s.part.pin + s.part.lc then set 0x81
    else if partCheck p (s.o 0x2300 8) ≠ 0 then set (partCheck p (s.o 0x2300 8))
    else if s.lcMaint then (0, (s.oSet 0x2300 6 1).modTile (fun t => { t with partWait := some p }))
    else (0, (s.oSet 0x2300 6 1).shiftGo p)
  else set 0x84

/-- The parking, bin and result-buffer regions and the index table are cleared (R301). -/
def State.clearRegions (s : State) : State :=
  let s1 := s.modTile (fun t => { t with
    bins := [], cl0 := [], holds := [], keyWait := [], lossWait := [], contWait := [], chunkOld := [], lostChunks := t.lostChunks + t.chunkOld.length,
    lostPages := t.lostPages + t.pageOld.length, pageOld := [], spilling := false })
  { s1 with
    slot := [], hnd := [], pin := [],
    strm := (s1.strm.map (fun e => (e.1, { e.2 with hem := [], rbMark := 0, rbFull := false }))).filter (fun e => e.2 != {}),
    ctx := (s1.ctx.map (fun e => (e.1, { e.2 with spill := [], spillTail := 0, reloading := false }))).filter (fun e => e.2 != {}) }

/-- An APPLY or SHIFT whose write-backs are done, with every fill in flight ended: the new sizes are in force, PART_DONE is raised and the
partition is recorded (R301, R302). A SHIFT that waited for maintenance starts, with the sizes it was accepted with (R333). -/
def State.partDone (s : State) : State :=
  match s.tile.partOp with
  | some (apply, p) =>
    if s.lcBacksOut ≠ 0 || s.lc.any (fun e => !e.2.ways.isEmpty) then s
    else
      let s1 := { s with part := p, lc := [] }
      let s2 := if apply then s1.clearRegions else s1
      let s3 := ((s2.modTile (fun t => { t with partOp := none })).stagePart.oSet 0x2300 6 0).raise 0x5200 1 (if apply then 1 else 2)
      s3.logJournal 2 [(4, s3.partSeg)]
  | none => match s.tile.partWait with
    | some p => if s.lcMaint then s else s.shiftGo p
    | none => s

/-- The evaluation of the Lining cache at the end of a window (R460). -/
def State.partAuto (s : State) : State :=
  if !s.run then s
  else
    let hits := s.o 0x4330 1 - s.pwr.lcHits0
    let total := hits + (s.o 0x4330 2 - s.pwr.lcMiss0)
    let s0 := s.modPwr (fun p => { p with lcHits0 := s.o 0x4330 1, lcMiss0 := s.o 0x4330 2, sinceShift := p.sinceShift + 1 })
    let lc := s.part.lc
    let go := fun (lc' : Nat) =>
      let s1 := (s0.oSet 0x2300 1 (s.part.pin + lc - lc')).oSet 0x2300 5 lc'
      let r := s1.partCmd 2
      if r.2.o 0x2300 6 = 1 then (r.2.modPwr (fun p => { p with sinceShift := 0 })).raise 0x5700 7 lc' else r.2
    if !bit (s.o 0x2300 7) 0 || decide (s.pwr.sinceShift < 16) || s.o 0x2300 6 == 1 then s0
    else if s.hnd.any (fun e => e.2.state == 1 && decide (e.2.rlen < e.2.pinLen)) ∧ 128 ≤ lc ∧ total ≠ 0 ∧ 4 * hits < total then go (lc / 2)
    else if 3 * total ≤ 4 * hits ∧ total ≠ 0 ∧ 64 ≤ lc ∧ lc < 1024 ∧ 16 * lc ≤ s.pinFree then go (2 * lc)
    else s0

/-! ## Maintenance operations (R317 to R322) -/

/-- Fields of MT_OP (R317). -/
def State.mtOp (s : State) : Nat := fld (s.o 0xF010 2) 0 3
def State.mtScope (s : State) : Nat := fld (s.o 0xF010 2) 3 2
def State.mtTarget (s : State) : Nat := fld (s.o 0xF010 2) 5 2
def State.mtCtx (s : State) : Nat := fld (s.o 0xF010 2) 8 6
/-- Bobbins targeted: MT_BOBMASK, 0 meaning all. -/
def State.mtBobs (s : State) : List Nat :=
  (List.range 48).filter (fun b => s.o 0xF010 6 == 0 || bit (s.o 0xF010 6) b)

/-- Bytes of an address or range scope. -/
def State.mtLen (s : State) : Nat := if s.mtScope = 0 then 256 else s.o 0xF010 4

/-- Whether a cached line lies in the address range of a context's windows (R297, R317). -/
def State.lineIn (s : State) (c a n port line : Nat) : Bool :=
  (List.range 64).any (fun w =>
    let va := s.win c w 0 + line * 256 - s.win c w 1
    fld (s.win c w 2) 8 5 == port && decide (s.win c w 1 ≤ line * 256) && decide (a ≤ va) && decide (va < a + n) &&
    firstIdx 64 (fun v => s.winCovers c v va) == some w)

/-- The refusal code of a start of the operation in MT_OP, 0 if it may start (R317). -/
def State.mtCheck (s : State) : Nat :=
  let op := s.mtOp
  let sc := s.mtScope
  let tg := s.mtTarget
  let a := s.o 0xF010 3
  let n := s.o 0xF010 4
  let h := s.hndOf (a % 4096)
  let combo := op != 0 && op != 7 && tg != 3 && !(tg == 2 && sc == 2) && (decide (op < 4) || tg == 0 || op == 5) &&
    (op != 4 || sc == 0 || sc == 1) && (op != 5 || sc == 1 || sc == 3)
  if !combo then 0x81
  else if op = 6 then
    if !s.ctxEn s.mtCtx || h.state != 1 || !h.reachable s.mtCtx then 0x80 else if n = 0 ∨ 15 < n then 0x81 else 0
  else if sc < 2 then
    if !s.ctxEn s.mtCtx then 0x80
    else if sc = 1 ∧ (n = 0 ∨ 2 ^ 64 < a + n) then 0x81
    else if a % 256 ≠ 0 ∨ (sc = 1 ∧ n % 256 ≠ 0) then 0x83 else 0
  else if sc = 2 then
    let set := fld (s.o 0xF010 5) 0 20
    let way := fld (s.o 0xF010 5) 20 4
    if tg = 0 then (if set < 1024 ∧ way < 16 then 0 else 0x81)
    else (if set < s.part.lc * 512 ∧ way < 8 then 0 else 0x81)
  else 0

/-- A line scope as a predicate on (set key, way, port, line). -/
def State.mtHits (s : State) (key way port line : Nat) : Bool :=
  match s.mtScope with
  | 2 => key == fld (s.o 0xF010 5) 0 20 && way == fld (s.o 0xF010 5) 20 4
  | 3 => true
  | _ => s.lineIn s.mtCtx (s.o 0xF010 3) s.mtLen port line

/-- The fills in flight that an operation reaches: their lines are not kept, or are written back, once they are in (R319, R320). -/
def State.mtFills (s : State) : List (Nat × Nat × Nat) :=
  (if s.mtTarget = 1 then [] else s.mtBobs.flatMap (fun b => (s.nc.filter (fun e => e.1 / 1024 == b)).flatMap (fun e =>
    (e.2.ways.filter (fun w => w.filling && s.mtHits (e.1 % 1024) w.way w.port w.line)).map (fun w => (b, w.port, w.line))))) ++
  (if s.mtTarget = 0 then [] else s.lc.flatMap (fun e =>
    (e.2.ways.filter (fun w => w.filling && s.mtHits e.1 w.way w.port w.line)).map (fun w => (48, w.port, w.line))))

/-- Records that the operation in MT_OP is in progress, with its operands as they are now (R317). -/
def State.mtBegin (s : State) (count : Nat) (fills : List (Nat × Nat × Nat)) : State :=
  ((s.oSet 0xF010 1 1).oSet 0xF010 7 count).modTile (fun t => { t with
    maint := some { op := s.mtOp, word := s.o 0xF010 2, handle := s.o 0xF010 3 % 4096, levels := s.o 0xF010 4, bobs := s.mtBobs, fills := fills } })

/-- Changes the operation in progress. -/
def State.modMaint (s : State) (f : MaintOp → MaintOp) : State := s.modTile (fun t => { t with maint := t.maint.map f })

/-- CLEAN, INVALIDATE and CLEAN_INVALIDATE (R318): the answer is the state and the lines affected. A node cache has
nothing to clean. -/
def State.mtSweep (s : State) (wb inv : Bool) : State × Nat :=
  let r1 := if inv && s.mtTarget != 1 then
      s.mtBobs.foldl (fun (acc : State × Nat) b =>
        let r := acc.1.ncInvalidate b (fun k w => s.mtHits k w.way w.port w.line)
        (r.1, acc.2 + r.2)) (s, 0)
    else (s, 0)
  if s.mtTarget ≠ 0 then
    let r2 := r1.1.lcSweep (fun k w => s.mtHits k w.way w.port w.line)
      (fun e => s.mtScope == 3 || (decide (s.mtScope < 2) && s.mtHits 0 0 e.port e.line)) wb inv
    (r2.1, r1.2 + r2.2)
  else r1

/-- Locked ways of a set (R321). -/
def NcSet.locks (x : NcSet) : Nat := (x.ways.filter (fun w => w.locked)).length

/-- Locks one line in one Bobbin (R321): true when this locks it, which MT_COUNT counts; a line that is locked already is not affected. A
gated Bobbin is woken and the line waits: none, as while the Lining cache has no room for it. The pinned copy of handle h serves it where
it can. -/
def State.lockLine (s : State) (b c h va : Nat) : Option (State × Bool) :=
  let clk := (s.bobOf b).clock
  if !s.inService b then some (s, false)
  else if clk = 2 ∨ clk = 3 then none
  else
    let s0 := if clk = 1 then s.wakeBob b else s
    match s0.reach c va .xi with
    | none => some (s0.windowFault c noWhat, false)
    | some t =>
      let line := t.pa / 256
      let k := ncSetOf line
      let x := s0.ncGet b k
      let room := decide (x.locks < s0.o 0x2320 3)
      match x.look t.port line with
      | some w =>
        if w.locked then some (s0, false)
        else if room then some (s0.modNc b k (fun x => x.put { w with locked := true }), true)
        else some (s0.oInc (0x4340 + b) 9, false)
      | none =>
        match x.ways.find? (fun w => w.locked && w.valid == 0 && !w.filling) with
        | some w => if s0.fillReady h va t then some (s0.ncFill b c h va t w.way true, true) else none
        | none =>
          match (if room then s0.ncVictim b k else none) with
          | some i => if s0.fillReady h va t then some (s0.ncFill b c h va t i true, true) else none
          | none => some (s0.oInc (0x4340 + b) 9, false)

/-- A handle whose pinned copy can serve context c at address va. -/
def State.pinOf (s : State) (c va : Nat) : Nat :=
  match s.hnd.find? (fun e => e.2.reachable c && e.2.holds va) with | some e => e.1 | none => 4096

/-- Takes the lines of a LOCK in order; those that must wait stay in the list (R321, R333). -/
def State.lockWork (s : State) (c : Nat) (todo : List (Nat × Nat)) : State × List (Nat × Nat) :=
  todo.foldl (fun (acc : State × List (Nat × Nat)) e =>
    match acc.1.lockLine e.1 c (acc.1.pinOf c e.2) e.2 with
    | none => (if (acc.1.bobOf e.1).clock = 0 then acc.1 else acc.1.wakeBob e.1, acc.2 ++ [e])
    | some (s1, ok) => (if ok then s1.oSet 0xF010 7 (s1.o 0xF010 7 + 1) else s1, acc.2)) (s, [])

/-- The lines of the n sectors at an address. -/
def linesOf (a n : Nat) : List Nat :=
  (List.range 2).filterMap (fun i => let l := a / 256 * 256 + 256 * i; if l < a + 64 * n then some l else none)

/-- The nodes of LOCK_INDEX that follow (R321): a box or metric node whose LOCK_HINT is 1 has its lines locked in every targeted Bobbin, and
its children of those types follow, one level down. -/
def State.lockVisit (s : State) (m : MaintOp) (v : Nat) : State :=
  match m.refs with
  | [] => s
  | (ref, lvl) :: rest =>
    let box := ref % 16 == 1
    let n := if box then 3 else 4
    if !(if box then boxHint v else metHint v) then s.modMaint (fun m => { m with refs := rest, reading := false })
    else
      let kids := if m.levels ≤ lvl + 1 then []
        else (List.range 16).filterMap (fun i =>
          if (if box then boxPresent v i else metPresent v i) then
            match (if box then boxChild v i else metChild v i) with
            | some x => if x.ty = 1 ∨ x.ty = 9 then some (x.addr + x.ty, lvl + 1) else none
            | none => none
          else none)
      let w := s.lockWork (fld m.word 8 6) ((linesOf (ref / 64 * 64) n).flatMap (fun a => m.bobs.map (fun b => (b, a))))
      w.1.modMaint (fun m => { m with refs := rest ++ kids, reading := false, todo := m.todo ++ w.2 })

/-- Goes on with the walk of LOCK_INDEX: nodes in the pinned copy are there, others are read (R297, R307, R321; log 109). -/
def State.lockNext : (fuel : Nat) → State → State
  | 0, s => s
  | f + 1, s =>
    match s.tile.maint with
    | none => s
    | some m =>
      if m.reading then s
      else match m.refs with
        | [] => s
        | (ref, _) :: rest =>
          let c := fld m.word 8 6
          match longRef ref with
          | none => State.lockNext f (s.modMaint (fun m => { m with refs := rest }))
          | some r =>
            if r.ty ≠ 1 ∧ r.ty ≠ 9 then State.lockNext f (s.modMaint (fun m => { m with refs := rest }))
            else
              let n := if r.ty = 1 then 3 else 4
              let held := (linesOf r.addr n).all (fun a => (s.hndOf m.handle).holds a) && (List.range n).all (fun i => (s.reach c (r.addr + 64 * i) .xi).isSome)
              if held then
                let v := (linesOf r.addr n).foldr (fun a v => s.pinLine m.handle a + v * 2 ^ 2048) 0
                State.lockNext f (s.lockVisit m (v / 256 ^ (r.addr % 256)))
              else (s.modMaint (fun m => { m with reading := true })).startJob .lockWalk c r.addr (64 * n) .xi noWhat

/-- The node that LOCK_INDEX reads is in; one that could not be read is not visited (R297, R321). -/
def State.lockRead (s : State) (j : Job) : State :=
  match s.tile.maint with
  | none => s
  | some m =>
    if !m.reading then s
    else State.lockNext 65536 (if j.err = 0 then s.lockVisit m j.data else s.modMaint (fun m => { m with refs := m.refs.drop 1, reading := false }))

/-- Starts the operation in MT_OP (R317 to R321); the answer is the STAT. -/
def State.mtCmd (s : State) (code : Nat) : Nat × State :=
  if s.o 0xF010 1 = 1 then (0x83, s)
  else if code ≠ 1 then (0, s.oSet 0xF010 1 0x84)
  else if s.mtCheck ≠ 0 then (0, s.oSet 0xF010 1 s.mtCheck)
  else
    let c := s.mtCtx
    match s.mtOp with
    | 1 => let r := s.mtSweep true false; (0, r.1.mtBegin r.2 s.mtFills)
    | 2 => let r := s.mtSweep false true; (0, r.1.mtBegin r.2 s.mtFills)
    | 3 => let r := s.mtSweep true true; (0, r.1.mtBegin r.2 s.mtFills)
    | 4 =>
      let lines := (List.range (s.mtLen / 256)).map (fun i => s.o 0xF010 3 + 256 * i)
      let cov := lines.filter (fun a => (s.translate c a).isSome)
      let w := (s.mtBegin 0 []).lockWork c (cov.flatMap (fun a => s.mtBobs.map (fun b => (b, a))))
      (0, w.1.modMaint (fun m => { m with todo := w.2 }))
    | 5 =>
      let r := (if s.mtTarget = 1 then [] else s.mtBobs).foldl (fun (acc : State × Nat) b =>
        (acc.1.nc.filter (fun e => e.1 / 1024 == b)).foldl (fun (acc : State × Nat) e =>
          e.2.ways.foldl (fun (acc : State × Nat) w =>
            if w.locked && (s.mtScope == 3 || ((w.valid != 0 || w.filling) && s.mtHits (e.1 % 1024) w.way w.port w.line)) then
              (acc.1.modNc b (e.1 % 1024) (fun x =>
                if w.valid != 0 || w.filling then x.put { w with locked := false }
                else { x with ways := x.ways.filter (fun v => v.way != w.way) }), acc.2 + 1)
            else acc) acc) acc) (s, 0)
      (0, r.1.mtBegin r.2 [])
    | _ => (0, State.lockNext 65536 ((s.mtBegin 0 []).modMaint (fun m => { m with refs := [((s.hndOf m.handle).root, 0)] })))

/-- Whether fills of locked ways are still in flight. -/
def State.lockFills (s : State) : Bool := s.nc.any (fun e => e.2.ways.any (fun w => w.locked && w.filling))

/-- Whether a fill that an operation reached is still in flight: in a node cache not to be kept, in the Lining cache not to be kept or to be
written back (R319, R320). -/
def State.mtFilling (s : State) (f : Nat × Nat × Nat) : Bool :=
  if f.1 = 48 then s.lc.any (fun e => e.2.ways.any (fun w => w.port == f.2.1 && w.line == f.2.2 && w.filling && (w.noKeep || w.back)))
  else s.nc.any (fun e => e.1 / 1024 == f.1 && e.2.ways.any (fun w => w.port == f.2.1 && w.line == f.2.2 && w.filling && w.noKeep))

/-- Goes on with the operation in progress and completes it when nothing is left (R319): MT_CMD reads 0x00 and
MAINT_DONE is raised; a scope-all invalidation of every Bobbin sets NC_INV, of the Lining cache LC_INV (R323). -/
def State.maintDone (s : State) : State :=
  match s.tile.maint with
  | none => s
  | some m =>
    let w := s.lockWork (fld m.word 8 6) m.todo
    let s0 := State.lockNext 65536 (w.1.modMaint (fun m => { m with todo := w.2 }))
    match s0.tile.maint with
    | none => s0
    | some m =>
      if m.reading || !m.refs.isEmpty || !m.todo.isEmpty || m.fills.any s0.mtFilling || s0.lcBacksOut true != 0 || (decide (4 ≤ m.op) && s0.lockFills) then s0
      else
        let all := (m.op == 2 || m.op == 3) && fld m.word 3 2 == 3
        let target := fld m.word 5 2
        let v := s0.o 0x2310 0
        let v1 := if all && target != 1 && m.bobs.length == 48 then setFld v 8 1 1 else v
        let v2 := if all && target != 0 then setFld v1 9 1 1 else v1
        let s1 := ((s0.modTile (fun t => { t with maint := none })).oSet 0xF010 1 0).oSet 0x2310 0 v2
        s1.raise 0x5200 0 (m.word % 256)

/-! ## Enables, LOCK_WAYS (R323, R325 to R327) -/

/-- A write of 0x2310:00. EN = 1 with the INV bit 0 is refused; a write that clears EN clears INV (R323, R325, R326). -/
def State.cacheCtl (s : State) (v : Nat) : Nat × State :=
  let old := s.o 0x2310 0
  let bad := fun n => bit v n && !bit old n && !bit old (8 + n)
  if bad 0 || bad 1 then (0x83, s)
  else
    let inv := fun n => if bit old n && !bit v n then 0 else fld old (8 + n) 1
    (0, s.oSet 0x2310 0 (fld v 0 2 + inv 0 * 256 + inv 1 * 512))

/-- A node-cache set with at most n locked ways: the excess is unlocked, highest way first (R327). -/
def NcSet.limit (x : NcSet) (n : Nat) : NcSet :=
  let drop := ((List.range 16).filter (fun i => x.ways.any (fun w => w.way == i && w.locked))).drop n
  let ws := x.ways.map (fun w => if drop.contains w.way then { w with locked := false } else w)
  { x with ways := ws.filter (fun w => w.valid != 0 || w.filling || w.locked) }

/-- A write of LOCK_WAYS (R327). -/
def State.lockWays (s : State) (n : Nat) : State :=
  let keys := s.nc.map (fun e => e.1)
  keys.foldl (fun (s : State) k => { s with nc := tmod {} s.nc k (fun x => x.limit n) }) (s.oSet 0x2320 3 n)

end Sys2Proof.Machine
end

