-- ==== Sys2Proof/Machine/Flags.lean ====
section
/-! DEFINITION. The Baste flags (R215, R230, R232) and every result with its flags: integers and their edges (R233), shifts
(R234), FP32 (R235). -/

namespace Sys2Proof.Machine

/-- FLAGS as a byte, and from one (R215). -/
def Flags.toNat (f : Flags) : Nat := b2n f.n + 2 * b2n f.z + 4 * b2n f.c + 8 * b2n f.v + 16 * b2n f.dz + 32 * b2n f.fx
def Flags.ofNat (x : Nat) : Flags :=
  { n := x.testBit 0, z := x.testBit 1, c := x.testBit 2, v := x.testBit 3, dz := x.testBit 4, fx := x.testBit 5 }

/-- N and Z of an integer result (R232). -/
def Flags.int (f : Flags) (r : Word) : Flags := { f with n := r.msb, z := r == 0 }
/-- N and Z of an FP result: both 0 for a NaN (R232). -/
def Flags.fp (f : Flags) (r : Nat) : Flags := { f with n := fNeg r && !fNan r, z := binary32.isZero r }

/-- Whether a condition of BR holds, none for a reserved one (R230). -/
def Flags.cond (f : Flags) (ct : BitVec 16) (sc : Nat) : Option Bool :=
  match sc with
  | 0 => some true
  | 1 => some f.z
  | 2 => some !f.z
  | 3 => some f.n
  | 4 => some !f.n
  | 5 => some f.c
  | 6 => some !f.c
  | 7 => some f.v
  | 8 => some !f.v
  | 9 => some (f.c && !f.z)
  | 10 => some (!f.c || f.z)
  | 11 => some (f.n == f.v)
  | 12 => some (f.n != f.v)
  | 13 => some (!f.z && f.n == f.v)
  | 14 => some (f.z || f.n != f.v)
  | 15 => some f.dz
  | 16 => some f.fx
  | 17 => some (ct != 0)
  | 18 => some (!f.n && !f.z && !f.c)
  | 19 => some (!f.n && !f.c)
  | _ => none

/-- A result with the flags after it; dz tells a division by zero. -/
structure Alu where
  r : Word
  f : Flags
  dz : Bool := false
  deriving DecidableEq, Repr

/-! ## Integers (R232, R233) -/

/-- a + b + carry. -/
def aluAdd (f : Flags) (a b : Word) (cin : Bool) : Alu :=
  let n := a.toNat + b.toNat + b2n cin
  let r := BitVec.ofNat 32 n
  { r := r, f := { f.int r with c := decide (2 ^ 32 ≤ n), v := decide (r.toInt ≠ a.toInt + b.toInt + (b2n cin : Int)) } }
/-- a − b − borrow; C is "no borrow". -/
def aluSub (f : Flags) (a b : Word) (bin : Bool) : Alu :=
  let k := b.toNat + b2n bin
  let r := BitVec.ofNat 32 (a.toNat + 2 ^ 33 - k)
  { r := r, f := { f.int r with c := decide (k ≤ a.toNat), v := decide (r.toInt ≠ a.toInt - b.toInt - (b2n bin : Int)) } }
/-- A result with N and Z alone. -/
def aluNz (f : Flags) (r : Word) : Alu := { r := r, f := f.int r }
/-- A result with N, Z and V. -/
def aluV (f : Flags) (r : Word) (v : Bool) : Alu := { r := r, f := { f.int r with v := v } }
def aluMul (f : Flags) (a b : Word) : Alu := aluV f (a * b) (decide ((a * b).toInt ≠ a.toInt * b.toInt))
def aluMulh (f : Flags) (a b : Word) : Alu := aluNz f (BitVec.ofInt 32 ((a.toInt * b.toInt) / 2 ^ 32))
def aluMulhu (f : Flags) (a b : Word) : Alu := aluNz f (BitVec.ofNat 32 (a.toNat * b.toNat / 2 ^ 32))
/-- A division by zero: V is cleared and DZ set (R233). -/
def aluDz (f : Flags) (r : Word) : Alu := { r := r, f := { f.int r with v := false, dz := true }, dz := true }
def aluDiv (f : Flags) (a b : Word) : Alu :=
  if b = 0 then aluDz f 0 else aluV f (BitVec.ofInt 32 (a.toInt.tdiv b.toInt)) (a == BitVec.intMin 32 && b == BitVec.allOnes 32)
def aluDivu (f : Flags) (a b : Word) : Alu := if b = 0 then aluDz f 0 else aluNz f (a / b)
def aluRem (f : Flags) (a b : Word) : Alu := if b = 0 then aluDz f a else aluV f (BitVec.ofInt 32 (a.toInt.tmod b.toInt)) false
def aluRemu (f : Flags) (a b : Word) : Alu := if b = 0 then aluDz f a else aluNz f (a % b)
def aluNeg (f : Flags) (a : Word) : Alu := aluV f (-a) (a == BitVec.intMin 32)
def aluAbs (f : Flags) (a : Word) : Alu := aluV f (if a.msb then -a else a) (a == BitVec.intMin 32)
def aluMin (f : Flags) (a b : Word) : Alu := aluNz f (if b.toInt < a.toInt then b else a)
def aluMax (f : Flags) (a b : Word) : Alu := aluNz f (if a.toInt < b.toInt then b else a)

/-! ## Shifts (R234) -/

def aluC (f : Flags) (r : Word) (c : Bool) : Alu := { r := r, f := { f.int r with c := c } }
def aluShl (f : Flags) (a : Word) (n : Nat) : Alu :=
  if n = 0 then aluNz f a else if n < 32 then aluC f (a <<< n) (a.getLsbD (32 - n)) else aluC f 0 (n == 32 && a.getLsbD 31)
def aluShr (f : Flags) (a : Word) (n : Nat) : Alu :=
  if n = 0 then aluNz f a else if n < 32 then aluC f (a >>> n) (a.getLsbD (n - 1)) else aluC f 0 (n == 32 && a.getLsbD 0)
def aluSar (f : Flags) (a : Word) (n : Nat) : Alu :=
  if n = 0 then aluNz f a else if n < 32 then aluC f (a.sshiftRight n) (a.getLsbD (n - 1)) else aluC f (a.sshiftRight 31) a.msb
def aluRol (f : Flags) (a : Word) (n : Nat) : Alu :=
  if n % 32 = 0 then aluNz f a else (let r := a.rotateLeft (n % 32); aluC f r (r.getLsbD 0))
def aluRor (f : Flags) (a : Word) (n : Nat) : Alu :=
  if n % 32 = 0 then aluNz f a else (let r := a.rotateRight (n % 32); aluC f r r.msb)

/-! ## FP32 (R235) -/

/-- Reads a subnormal as zero of its sign while SUBN = 0, and writes it so. -/
def flush (subn : Bool) (x : Nat) : Nat := if !subn && binary32.exp x == 0 then b2n (fNeg x) * 2 ^ 31 else x

/-- An FP result: FX for an invalid operation or an overflow to infinity. -/
def fpRes (f : Flags) (subn : Bool) (r : Nat) (fx : Bool) : Alu :=
  let r1 := if fNan r then qNan else flush subn r
  { r := BitVec.ofNat 32 r1, f := { f.fp r1 with fx := f.fx || fx } }
/-- A sum, difference or product: FX where the result is a NaN, or infinite from finite operands. -/
def fpArith (f : Flags) (subn : Bool) (op : Nat → Nat → Nat) (a b : Word) : Alu :=
  let x := flush subn a.toNat
  let y := flush subn b.toNat
  let r := op x y
  fpRes f subn r (fNan r || (fInf r && fFin x && fFin y))
/-- A quotient; a divisor of ±0 sets DZ. -/
def fpDiv (f : Flags) (subn : Bool) (a b : Word) : Alu :=
  let x := flush subn a.toNat
  let y := flush subn b.toNat
  let r := fDiv x y
  let z := binary32.isZero y
  let u := fpRes f subn r (fNan r || (fInf r && fFin x && fFin y && !z))
  { u with f := { u.f with dz := u.f.dz || z }, dz := z }
def fpSqrt (f : Flags) (subn : Bool) (b : Word) : Alu :=
  let r := fSqrt (flush subn b.toNat)
  fpRes f subn r (fNan r)
/-- FMIN, and FMAX: −0 is below +0; a NaN operand is an invalid operation (log 32). -/
def fpMin (f : Flags) (subn hi : Bool) (a b : Word) : Alu :=
  let x := flush subn a.toNat
  let y := flush subn b.toNat
  let nan := fNan x || fNan y
  let xlt := fLt x y || (fEq x y && fNeg x)
  fpRes f subn (if nan then qNan else if xlt != hi then x else y) nan
/-- FCMP (R230, R232). -/
def fpCmp (f : Flags) (subn : Bool) (a b : Word) : Flags :=
  let x := flush subn a.toNat
  let y := flush subn b.toNat
  { f with n := fLt x y, z := fEq x y, c := fNan x || fNan y, v := false }
/-- FTOI: N and Z are those of the integer (log 32). -/
def fpToInt (f : Flags) (subn : Bool) (a : Word) : Alu :=
  let x := flush subn a.toNat
  let sat := fun (r : Word) => ({ r := r, f := { f.int r with fx := true } } : Alu)
  if fNan x then sat 0
  else if fInf x then sat (if fNeg x then BitVec.intMin 32 else BitVec.intMax 32)
  else
    let d := fVal x
    let m : Int := d.abs.floor
    let i := if d.m < 0 then -m else m
    if 2 ^ 31 ≤ i then sat (BitVec.intMax 32) else if i < -2 ^ 31 then sat (BitVec.intMin 32) else aluNz f (BitVec.ofInt 32 i)
def fpOfInt (f : Flags) (a : Word) : Alu := fpRes f true (fOfInt a.toInt) false
/-- FNEG and FABS act on the sign bit alone (log 32). -/
def fpSign (f : Flags) (r : Word) : Alu := { r := r, f := f.fp r.toNat }

end Sys2Proof.Machine
end

