-- ==== Sys2Proof/Machine/Operands.lean ====
section
/-! DEFINITION. The data memory of a Baste engine (R222 to R226) and the operand forms of its instructions (R227 to R231). -/

namespace Sys2Proof.Machine

/-! ## Instruction words (R227) -/

def iOp (w : Nat) : Nat := fld w 24 8
def iMode (w : Nat) : Nat := fld w 21 3
def iSc (w : Nat) : Nat := fld w 16 5
def iImm (w : Nat) : Nat := fld w 0 16

/-! ## Engine control (R226) -/

/-- The 32 bytes of the engine-control block; what R226 does not list reads zero. -/
def Engine.ctrlBytes (en : Engine) : Nat :=
  en.ectrl + en.tcause * 2 ^ 32 + en.tflg.toNat * 2 ^ 40 + en.tpc.toNat * 2 ^ 48 + en.tinsn.toNat * 2 ^ 64 + en.ta.toNat * 2 ^ 96 +
  en.tx.toNat * 2 ^ 128 + en.ty.toNat * 2 ^ 144 + en.tct.toNat * 2 ^ 160 + en.trem.toNat * 2 ^ 176 + en.budget % 2 ^ 32 * 2 ^ 192 +
  en.num % 256 * 2 ^ 224

/-- The block after a write: the RW registers take it, res0 bits of ECTRL discard it (R9, R226). -/
def Engine.setCtrl (en : Engine) (v : Nat) : Engine :=
  { en with ectrl := v % 4, tflg := BitVec.ofNat 8 (v / 2 ^ 40), tpc := BitVec.ofNat 16 (v / 2 ^ 48), ta := BitVec.ofNat 32 (v / 2 ^ 96),
            tx := BitVec.ofNat 16 (v / 2 ^ 128), ty := BitVec.ofNat 16 (v / 2 ^ 144), tct := BitVec.ofNat 16 (v / 2 ^ 160),
            trem := BitVec.ofNat 16 (v / 2 ^ 176) }

/-- TRAP_DZ and SUBN (R226). -/
def Engine.trapDz (en : Engine) : Bool := bit en.ectrl 0
def Engine.subn (en : Engine) : Bool := bit en.ectrl 1

/-! ## Data memory (R222, R223) -/

/-- The aligned word at byte address a; `cst` gives the words of the constant area. -/
def Engine.wordAt (cst : Nat → Nat) (en : Engine) (a : Nat) : Nat :=
  if a < 0x8000 then cst (a / 4)
  else if a < 0xE000 then tget 0 en.work ((a - 0x8000) / 4)
  else if a < 0xF000 then bytesAt en.primW (a - 0xE000) 4
  else if a < 0xF100 then bytesAt en.queryW (a - 0xF000) 4
  else if a < 0xF200 then bytesAt en.candW (a - 0xF100) 4
  else bytesAt en.ctrlBytes (a - 0xF200) 4

/-- Reads n bytes that one word holds. -/
def Engine.load (cst : Nat → Nat) (en : Engine) (a n : Nat) : Nat := bytesAt (en.wordAt cst (a / 4 * 4)) (a % 4) n

/-- Writes n bytes that one word holds; the caller has checked the right. -/
def Engine.store (en : Engine) (a n v : Nat) : Engine :=
  if 0x8000 ≤ a ∧ a < 0xE000 then
    let k := (a - 0x8000) / 4
    { en with work := tset 0 en.work k (putBytes (tget 0 en.work k) (a % 4) n v) }
  else if 0xF100 ≤ a ∧ a < 0xF200 then { en with candW := putBytes en.candW (a - 0xF100) n v }
  else if 0xF200 ≤ a ∧ a < 0xF300 then en.setCtrl (putBytes en.ctrlBytes (a - 0xF200) n v)
  else en

/-- Trap causes (R238). -/
def tcIllegal : Nat := 1
def tcMisalign : Nat := 2
def tcWriteRo : Nat := 3
def tcUnmapped : Nat := 4
def tcDz : Nat := 5
def tcStack : Nat := 6
def tcBudget : Nat := 7
def tcSoft : Nat := 8
def tcPcRange : Nat := 9

/-- The trap that an access of n bytes at a makes, if any (R223); a misaligned one is MISALIGN wherever it lies (log 33). -/
def accessTrap (a n : Nat) (wr : Bool) : Option Nat :=
  if a % n ≠ 0 then some tcMisalign
  else if 0xF300 ≤ a then some tcUnmapped
  else if wr && !((decide (0x8000 ≤ a) && decide (a < 0xE000)) || decide (0xF100 ≤ a)) then some tcWriteRo
  else none

/-! ## Operand forms (R228 to R231) -/

/-- What an instruction's word names. -/
inductive Form where
  /-- Bits [23:0] res0. -/
  | none
  /-- An integer operand, an H operand, an FP operand, a shift count. -/
  | int | half | fp | shift
  /-- A store of A, and of X, Y or CT. -/
  | store | storeH
  /-- Mode 0 with SC res0 and the whole IMM: LOADHI and DBNZ. -/
  | imm
  /-- Mode 0 with SC res0 and IMM of n bits: TRAP and CLF. -/
  | immN (n : Nat)
  /-- Modes 0 and 2: BR, with a condition; CALL, with SC res0. -/
  | branch | call
  deriving DecidableEq, Repr

/-- The size and sign fields of modes 1 to 7 (R229). DESIGN CHOICE: SX = 1 with a word, to which the field table gives no meaning, is accepted and has
no effect (log 115). -/
def scOk (fm : Form) (sc : Nat) : Bool :=
  let sz := sc % 4
  let sx := bit sc 2
  sc / 8 == 0 && sz != 3 &&
  (match fm with
   | .half | .storeH => sz == 1 && !sx
   | .fp => sz == 2 && !sx
   | .store => !sx
   | _ => true)

/-- Whether a word is legal in its form (R227 to R231). -/
def formOk (fm : Form) (w : Nat) : Bool :=
  let m := iMode w
  let mem := scOk fm (iSc w) && (m != 6 || iImm w / 256 == 0) && (m != 7 || iImm w / 4096 == 0)
  match fm with
  | .none => w % 2 ^ 24 == 0
  | .imm => m == 0 && iSc w == 0
  | .immN n => m == 0 && iSc w == 0 && decide (iImm w < 2 ^ n)
  | .branch => m == 0 || m == 2
  | .call => (m == 0 || m == 2) && iSc w == 0
  | .store | .storeH => m != 0 && mem
  | _ => if m = 0 then iSc w == 0 else mem

/-- The effective address of modes 1 to 7 (R228). -/
def Engine.ea (en : Engine) (w : Nat) : Nat :=
  match iMode w with
  | 1 => iImm w
  | 2 => (en.x.toNat + iImm w) % 65536
  | 3 => (en.y.toNat + iImm w) % 65536
  | 4 => en.x.toNat
  | 5 => en.y.toNat
  | 6 => 0xF000 + iImm w % 256
  | _ => 0xE000 + (en.pbase + iImm w % 4096) % 4096

/-- The post-increment of modes 4 and 5 (R228). -/
def Engine.postInc (en : Engine) (w : Nat) : Engine :=
  match iMode w with
  | 4 => { en with x := en.x + BitVec.ofNat 16 (iImm w) }
  | 5 => { en with y := en.y + BitVec.ofNat 16 (iImm w) }
  | _ => en

/-- Bytes of an access (R229). -/
def accSize (w : Nat) : Nat := 2 ^ (iSc w % 4)

/-- The immediate operand of a form (R231). -/
def immOf (fm : Form) (w : Nat) : Word :=
  match fm with
  | .fp => BitVec.ofNat 32 (iImm w * 65536)
  | .half => BitVec.ofNat 32 (iImm w)
  | .shift => BitVec.ofNat 32 (iImm w % 256)
  | _ => (BitVec.ofNat 16 (iImm w)).signExtend 32

/-- What an operand fetch gives: a trap, or the operand and the engine after the post-increment, which comes before the
operation writes its register (log 34). -/
inductive Fetch where
  | trap (cause : Nat)
  | ok (v : Word) (en : Engine)
  deriving DecidableEq, Repr

/-- Fetches the operand of an instruction (R228 to R231). -/
def Engine.fetch (cst : Nat → Nat) (en : Engine) (fm : Form) (w : Nat) : Fetch :=
  if !formOk fm w then .trap tcIllegal
  else if iMode w = 0 then .ok (immOf fm w) en
  else
    let a := en.ea w
    let n := accSize w
    match accessTrap a n false with
    | some c => .trap c
    | none =>
      let v := en.load cst a n
      .ok (if bit (iSc w) 2 then BitVec.ofNat 32 (ofInt 32 (toSigned (8 * n) v)) else BitVec.ofNat 32 v) (en.postInc w)

/-- Stores the low bytes of a register (R229): a trap, or the engine after it. -/
def Engine.put (en : Engine) (fm : Form) (w v : Nat) : Fetch :=
  if !formOk fm w then .trap tcIllegal
  else
    let a := en.ea w
    let n := accSize w
    match accessTrap a n true with
    | some c => .trap c
    | none => .ok 0 ((en.store a n v).postInc w)

end Sys2Proof.Machine
end

