-- ==== Sys2Proof/Machine/BasteOps.lean ====
section
/-! DEFINITION. The Baste instructions (R232): what each does to its engine, before the common rules of R236 to R240. -/

namespace Sys2Proof.Machine

/-- What an instruction does. -/
inductive Res where
  /-- It acts and the next one follows; dz tells a division by zero. -/
  | seq (en : Engine) (dz : Bool)
  /-- It acts and goes to an address. -/
  | jump (en : Engine) (pc : Nat)
  /-- It traps before it acts. -/
  | trap (cause : Nat)
  /-- TRAP. -/
  | soft
  /-- REP latches N. -/
  | latch (n : Nat)
  /-- END, FAULT, RTT. -/
  | done
  | fault
  | rtt
  deriving DecidableEq, Repr

/-- The meaning of one instruction: constant words, the engine, its word. -/
abbrev Op := (Nat → Nat) → Engine → Nat → Res

/-- Takes a result of the arithmetic into A and FLAGS. -/
def Engine.take (en : Engine) (u : Alu) : Res := .seq { en with a := u.r, fl := u.f } u.dz

/-- An instruction with an operand. -/
def withOp (fm : Form) (k : Engine → Word → Res) : Op := fun cst en w =>
  match en.fetch cst fm w with
  | .trap c => .trap c
  | .ok v en1 => k en1 v
/-- An instruction without one. -/
def withNone (k : Engine → Res) : Op := fun _ en w => if formOk .none w then k en else .trap tcIllegal
/-- A store. -/
def withStore (fm : Form) (v : Engine → Nat) : Op := fun _ en w =>
  match en.put fm w (v en) with
  | .trap c => .trap c
  | .ok _ en1 => .seq en1 false
/-- An instruction of another form. -/
def withForm (fm : Form) (k : Engine → Nat → Res) : Op := fun _ en w => if formOk fm w then k en w else .trap tcIllegal

/-- An ALU instruction on A and an integer operand, a shift, an FP operand. -/
def aluOp (f : Flags → Word → Word → Alu) : Op := withOp .int (fun en v => en.take (f en.fl en.a v))
def shiftOp (f : Flags → Word → Nat → Alu) : Op := withOp .shift (fun en v => en.take (f en.fl en.a (v.toNat % 256)))
def fpOp (f : Flags → Bool → Word → Word → Alu) : Op := withOp .fp (fun en v => en.take (f en.fl en.subn en.a v))
/-- The low half of a word. -/
def half (v : Word) : BitVec 16 := BitVec.truncate 16 v
/-- A half as a word. -/
def wide (v : BitVec 16) : Word := BitVec.zeroExtend 32 v

/-! ## Moves -/

def opNop : Op := withNone (fun en => .seq en false)
def opLoad : Op := withOp .int (fun en v => en.take (aluNz en.fl v))
def opStore : Op := withStore .store (fun en => en.a.toNat)
def opLoadhi : Op := withForm .imm (fun en w => en.take (aluNz en.fl (BitVec.ofNat 32 (iImm w * 65536))))
def opLoadx : Op := withOp .half (fun en v => .seq { en with x := half v } false)
def opStorex : Op := withStore .storeH (fun en => en.x.toNat)
def opLoady : Op := withOp .half (fun en v => .seq { en with y := half v } false)
def opStorey : Op := withStore .storeH (fun en => en.y.toNat)
def opLoadct : Op := withOp .half (fun en v => .seq { en with ct := half v } false)
def opStorect : Op := withStore .storeH (fun en => en.ct.toNat)
def opMovax : Op := withNone (fun en => .seq { en with x := half en.a } false)
def opMovxa : Op := withNone (fun en => en.take (aluNz en.fl (wide en.x)))
def opMovay : Op := withNone (fun en => .seq { en with y := half en.a } false)
def opMovya : Op := withNone (fun en => en.take (aluNz en.fl (wide en.y)))
def opMovact : Op := withNone (fun en => .seq { en with ct := half en.a } false)
def opMovcta : Op := withNone (fun en => en.take (aluNz en.fl (wide en.ct)))
def opAddx : Op := withOp .half (fun en v => .seq { en with x := en.x + half v } false)
def opAddy : Op := withOp .half (fun en v => .seq { en with y := en.y + half v } false)
def opAddct : Op := withOp .half (fun en v => .seq { en with ct := en.ct + half v } false)

/-! ## Integers -/

def opAdd : Op := aluOp (fun f a b => aluAdd f a b false)
def opAddcy : Op := aluOp (fun f a b => aluAdd f a b f.c)
def opSub : Op := aluOp (fun f a b => aluSub f a b false)
def opSubcy : Op := aluOp (fun f a b => aluSub f a b !f.c)
def opCmp : Op := withOp .int (fun en v => .seq { en with fl := (aluSub en.fl en.a v false).f } false)
def opAnd : Op := aluOp (fun f a b => aluNz f (a &&& b))
def opOr : Op := aluOp (fun f a b => aluNz f (a ||| b))
def opXor : Op := aluOp (fun f a b => aluNz f (a ^^^ b))
def opMul : Op := aluOp aluMul
def opMulh : Op := aluOp aluMulh
def opMulhu : Op := aluOp aluMulhu
def opDiv : Op := aluOp aluDiv
def opDivu : Op := aluOp aluDivu
def opRem : Op := aluOp aluRem
def opRemu : Op := aluOp aluRemu
def opNeg : Op := withNone (fun en => en.take (aluNeg en.fl en.a))
def opShl : Op := shiftOp aluShl
def opShr : Op := shiftOp aluShr
def opSar : Op := shiftOp aluSar
def opRol : Op := shiftOp aluRol
def opRor : Op := shiftOp aluRor
def opMin : Op := aluOp aluMin
def opMax : Op := aluOp aluMax
def opAbs : Op := withNone (fun en => en.take (aluAbs en.fl en.a))
def opNot : Op := withNone (fun en => en.take (aluNz en.fl (~~~en.a)))

/-! ## FP32 -/

def opFadd : Op := fpOp (fun f n => fpArith f n fAdd)
def opFsub : Op := fpOp (fun f n => fpArith f n fSub)
def opFmul : Op := fpOp (fun f n => fpArith f n fMul)
def opFdiv : Op := fpOp fpDiv
def opFsqrt : Op := fpOp (fun f n _ b => fpSqrt f n b)
def opFcmp : Op := withOp .fp (fun en v => .seq { en with fl := fpCmp en.fl en.subn en.a v } false)
def opFmin : Op := fpOp (fun f n => fpMin f n false)
def opFmax : Op := fpOp (fun f n => fpMin f n true)
def opFneg : Op := withNone (fun en => en.take (fpSign en.fl (en.a ^^^ BitVec.intMin 32)))
def opFabs : Op := withNone (fun en => en.take (fpSign en.fl (en.a &&& BitVec.intMax 32)))
def opFtoi : Op := withNone (fun en => en.take (fpToInt en.fl en.subn en.a))
def opItof : Op := withNone (fun en => en.take (fpOfInt en.fl en.a))

/-! ## Control -/

/-- The target of BR and CALL (R232). -/
def Engine.target (en : Engine) (w : Nat) : Nat := if iMode w = 0 then iImm w else (en.x.toNat + iImm w) % 65536

def opBr : Op := withForm .branch (fun en w =>
  match en.fl.cond en.ct (iSc w) with
  | some true => .jump en (en.target w)
  | some false => .seq en false
  | none => .trap tcIllegal)
def opCall : Op := withForm .call (fun en w =>
  if 8 ≤ en.stack.length then .trap tcStack else .jump { en with stack := BitVec.ofNat 16 (en.pc + 1) :: en.stack } (en.target w))
def opRet : Op := withNone (fun en =>
  match en.stack with
  | [] => .trap tcStack
  | r :: rest => .jump { en with stack := rest } r.toNat)
def opDbnz : Op := withForm .imm (fun en w =>
  let en1 := { en with ct := en.ct - 1 }
  if en1.ct ≠ 0 then .jump en1 (iImm w) else .seq en1 false)
def opRep : Op := withNone (fun en => .latch en.ct.toNat)
def opEnd : Op := withNone (fun _ => .done)
def opFault : Op := withNone (fun _ => .fault)
def opRtt : Op := withNone (fun en => if en.trapped then .rtt else .trap tcIllegal)
def opTrap : Op := withForm (.immN 8) (fun _ _ => .soft)
def opClf : Op := withForm (.immN 6) (fun en w => .seq { en with fl := Flags.ofNat (en.fl.toNat &&& (63 - iImm w % 64)) } false)

end Sys2Proof.Machine
end

