-- ==== Sys2Proof/Machine/Pleater.lean ====
section
/-! DEFINITION. The Pleater, part 1: doorbells (R40, R43), bins and keys (R184 to R190, R198), and the schemes (R189). -/

namespace Sys2Proof.Machine

/-! ## Doorbells and HEAD (R39 to R43) -/

/-- LOG2SZ of a submission ring. -/
def State.ringLog (s : State) (c st : Nat) : Nat := fld (s.ringCtrl c st) 8 5
/-- RING_CTRL.EN and RING_CTRL.POST. -/
def State.ringEn (s : State) (c st : Nat) : Bool := bit (s.ringCtrl c st) 0
def State.ringPost (s : State) (c st : Nat) : Bool := bit (s.ringCtrl c st) 1
/-- DEST of RES_CTRL: a slot stream (R246). -/
def State.destSlot (s : State) (c st : Nat) : Bool := bit (s.resCtrl c st) 0

/-- A doorbell (R40). -/
def State.bell (s : State) (c st : Nat) (v : Word) : State :=
  let x := s.st c st
  if !s.ringEn c st then s.raise (0x5900 + c) 1 st
  else if v = x.tail then s
  else if (v - x.tail).toNat ≤ 2 ^ s.ringLog c st - (x.tail - x.head).toNat then
    s.modSt c st (fun x => { x with tail := v, bells := x.bells ++ [(v, s.clkF)] })
  else s.raise (0x5900 + c) 0 st

/-- Whether the tile may still need to read the entry at count h in mending mode: one of its queries has not had its
terminal record delivered (R43, R378). Continuations read no entry. -/
def State.descBusy (s : State) (c st : Nat) (h : Word) : Bool :=
  let x := s.st c st
  let d := x.dord - (x.next - h).toNat
  s.slot.any (fun e => e.2.place != .none && e.2.place != .charged && e.2.place != .parent && e.2.qr.ctx == c && e.2.qr.stream == st &&
    !e.2.qr.isCont && e.2.served.isNone && e.2.dord == d) ||
  x.items.any (fun i => i.terminal && i.dord == d && i.pos % 8 == 0)

/-- Advances HEAD over entries that are no longer needed: at most `fuel` of them (R43). -/
def State.headStep (c st : Nat) : (fuel : Nat) → State → State
  | 0, s => s
  | f + 1, s =>
    let x := s.st c st
    if x.head = x.next then s
    else if s.mending c && s.descBusy c st x.head then s
    else State.headStep c st f (s.modSt c st (fun x => { x with head := x.head + 1 }))

/-- HEAD after an admission or a delivery. -/
def State.advanceHead (s : State) (c st : Nat) : State :=
  let x := s.st c st
  if s.mending c then State.headStep c st (x.next - x.head).toNat s else s.modSt c st (fun x => { x with head := x.next })

/-- Entries below count t, of a run that a CANCEL ends there (R67). -/
def cancelled (stop : Option Word) (cnt : Word) : Bool :=
  match stop with
  | some t => decide (0 < (t - cnt).toNat) && decide ((t - cnt).toNat ≤ 2 ^ 20)
  | none => false

/-- The fetched entry that is next to be admitted (R42), if it has been read: what is left of an earlier run goes first. -/
def StreamSt.front (x : StreamSt) : Option Fetched :=
  match x.old with
  | r :: _ => r.entries.head?.filter (fun e => e.count == r.next)
  | [] => x.entries.head?.filter (fun e => e.count == x.next)

/-- Entries of the current run that a CANCEL still has to complete (R67). -/
def StreamSt.cancels (x : StreamSt) (cnt : Word) : Bool := cancelled x.cancelTo cnt
/-- Whether a CANCEL completes the next entry (R67). -/
def StreamSt.frontCancelled (x : StreamSt) (cnt : Word) : Bool :=
  match x.old with
  | r :: _ => cancelled r.cancelTo cnt
  | [] => x.cancels cnt

/-- The stream after its next entry is done with. -/
def StreamSt.entryOut (x : StreamSt) : StreamSt :=
  match x.old with
  | r :: t => { x with gen := none, dord := x.dord + 1,
                       old := if r.next + 1 = r.stop then t else { r with next := r.next + 1, entries := r.entries.drop 1 } :: t }
  | [] => { x with next := x.next + 1, entries := x.entries.drop 1, gen := none, dord := x.dord + 1,
                   cancelTo := if x.cancelTo = some (x.next + 1) then none else x.cancelTo }

/-- The entry at the next count is done with: it is admitted or completed (R42, R43). -/
def State.entryDone (s : State) (c st : Nat) : State := (s.modSt c st StreamSt.entryOut).advanceHead c st

/-- The stream as it is enabled (R45, R246): its counts start again, entries that were fetched are still completed (R44), and records that
are not delivered are written again at the new counts (log 39). `dest` tells a slot stream. -/
def StreamSt.restart (x : StreamSt) (dest : Bool) : StreamSt :=
  { ep := x.ep + 1, dord := x.dord, gen := x.gen, rbFull := x.rbFull, rbMark := x.rbMark,
    old := x.old ++ (if x.next = x.fetched then [] else [{ ep := x.ep, next := x.next, stop := x.fetched, entries := x.entries, cancelTo := x.cancelTo }]),
    hem := x.ringOut.map (fun y => { y.2 with fallback := dest }) ++ x.closing.flatMap (fun f => f.placed) ++ x.open_.toList.flatMap (fun f => f.placed) ++ x.hem }

/-! ## Keys (R186 to R188) -/

/-- A field of BODY as FP32 pattern: element a of the vector at record offset o. -/
def QRec.vec3 (r : QRec) (o : Nat) : Vec3 := { x := r.b32 o, y := r.b32 (o + 4), z := r.b32 (o + 8) }
/-- The octant (R187). -/
def QRec.octant (r : QRec) : Nat :=
  if isRay r.kind then b2n (fNeg (r.b32 0x20)) * 4 + b2n (fNeg (r.b32 0x24)) * 2 + b2n (fNeg (r.b32 0x28)) else 0

/-- XOR of the successive w-bit fields of a. -/
def xorFields : (fuel w a : Nat) → Nat
  | 0, _, _ => 0
  | f + 1, w, a => (a % 2 ^ w) ^^^ xorFields f w (a / 2 ^ w)
/-- H*w* of a tile-virtual address (R187). -/
def hashW (w addr : Nat) : Nat := xorFields 44 w (fld addr 6 44)

/-- A coordinate of P (R187): finite, an infinity (true: +∞), or both bounds of a box infinite. -/
inductive Coord where
  | fin (d : Dy) | inf (pos : Bool) | both
  deriving DecidableEq, Repr

/-- P on axis a. -/
def QRec.cellPoint (r : QRec) (a : Nat) : Coord :=
  let one := fun (x : Nat) => if fInf x then Coord.inf (!fNeg x) else Coord.fin (fVal x)
  if isRay r.kind || r.kind == kPoint || (r.kind == kOverlap && r.shape) then one (r.b32 (0x10 + 4 * a))
  else
    let lo := r.b32 (0x10 + 4 * a)
    let hi := r.b32 (0x1C + 4 * a)
    if fInf lo && fInf hi then .both
    else if fInf lo then .inf (!fNeg lo)
    else if fInf hi then .inf (!fNeg hi)
    else .fin (((fVal lo).add (fVal hi)).scale (-1))

/-- c_a of a geometric cell at level L. -/
def cellAxis (p : Coord) (org exp lvl : Nat) : Nat :=
  match p with
  | .both => 0
  | .inf true => 2 ^ lvl - 1
  | .inf false => 0
  | .fin d =>
    let c := (((d.sub (fVal org)).scale (127 - (exp : Int) - 8)).scale lvl).floor
    if c < 0 then 0 else min c.toNat (2 ^ lvl - 1)

/-- Interleaves three codes of L bits from the top, x first. -/
def interleave : (lvl : Nat) → (x y z : Nat) → Nat
  | 0, _, _, _ => 0
  | l + 1, x, y, z => (b2n (bit x l) * 4 + b2n (bit y l) * 2 + b2n (bit z l)) * 8 ^ l + interleave l x y z

/-- Cell*L* of a geometric index. -/
def Handle.cellGeo (h : Handle) (r : QRec) (lvl : Nat) : Nat :=
  if h.rootBox then
    let c := fun a => cellAxis (r.cellPoint a) (bytesAt h.origin (4 * a) 4) (bytesAt h.exps a 1) lvl
    interleave lvl (c 0) (c 1) (c 2)
  else 0

/-- Whether an element of a metric index's format is greater than zero; a NaN is not, +∞ is (R187). -/
def elemPos (vfmt x : Nat) : Bool :=
  match elemVal vfmt x with
  | some d => decide (0 < d.m)
  | none =>
    match vfmt with
    | 2 => x % 256 == 0x7C
    | 3 => x % 65536 == 0x7C00
    | 4 => x % 65536 == 0x7F80
    | 5 => x % 2 ^ 32 == 0x7F800000
    | _ => false

/-- Element k of a vector held as bytes. -/
def Handle.elem (h : Handle) (bytes k : Nat) : Nat := bytesAt bytes (k * h.elemSize) h.elemSize

/-- Cell*L* of a metric index: `bytes` are the first bytes of the vector; none if they could not be read. -/
def Handle.cellMet (h : Handle) (bytes : Option Nat) (lvl : Nat) : Nat :=
  match bytes with
  | none => 0
  | some v => (List.range (min (3 * lvl) h.dim)).foldl (fun a i => a + b2n (elemPos h.vfmt (h.elem v i)) * 2 ^ (3 * lvl - 1 - i)) 0

/-- KEY_FIXED, KEY_ALLOWED and the scheme in force (R189). -/
def State.scheme (s : State) : Nat :=
  if s.o 0x2400 1 = 1 then s.o 0x2400 2 else match s.tile.trial with | some t => t | none => s.tile.best.getD (s.o 0x2400 2)

/-- Schemes whose key holds a cell. -/
def schemeCell (k : Nat) : Bool := k == 0 || k == 3 || k == 4

/-- The address of a query's next item (R188). -/
def State.itemAddr (s : State) (k : Nat) : Nat :=
  let q := s.q k
  if q.nextItem ≠ 0 then q.nextItem
  else match q.served with
    | some v => v.root / 64 * 64
    | none => (s.hndOf q.qr.handle).root / 64 * 64

/-- The key of a record under a scheme with the next item at address a (R186). -/
def State.keyFor (s : State) (r : QRec) (a scheme : Nat) (vec : Option Nat) : Nat :=
  let h := s.hndOf r.handle
  let cell := fun lvl => if h.metric then h.cellMet vec lvl else h.cellGeo r lvl
  if r.kind = 0 then 0
  else match scheme with
    | 0 => r.octant * 2 ^ 21 + cell 3 * 2 ^ 12 + hashW 12 a
    | 1 => hashW 24 a
    | 2 => r.octant * 2 ^ 21 + hashW 21 a
    | 3 => cell 4 * 2 ^ 12 + hashW 12 a
    | 4 => r.octant * 2 ^ 21 + cell 4 * 2 ^ 9 + hashW 9 a
    | _ => r.handle % 4096 * 2 ^ 12 + hashW 12 a

/-- The key of a query (R186, R188). -/
def State.keyOf (s : State) (k scheme : Nat) (vec : Option Nat) : Nat := s.keyFor (s.q k).qr (s.itemAddr k) scheme vec

/-- Whether the key of a record takes elements of its vector (R187). -/
def State.keyReads (s : State) (r : QRec) (scheme : Nat) : Bool := (s.hndOf r.handle).metric && isMetric r.kind && schemeCell scheme

/-! ## Bins (R185, R190, R198) -/

/-- Chunks of the chunk area (R185), less those lost to retired lines (R329). -/
def State.chunks (s : State) : Nat := (s.part.bin * 2 ^ 20 - 4 * (s.part.park * 16384)) / 2048 - s.tile.lostChunks
/-- Chunks a bin uses: a chain of 128 entries each (R190; log 18). -/
def Bin.chunks (b : Bin) : Nat := (b.entries.length + 127) / 128
/-- Chunks in use. -/
def State.chunksUsed (s : State) : Nat :=
  s.tile.bins.foldl (fun a e => if e.1 < 131072 then a + e.2.chunks else a) 0
/-- Occupancy is at or above n/256 (R198). -/
def State.occAtLeast (s : State) (n : Nat) : Bool := decide (n * s.chunks ≤ s.chunksUsed * 256) && s.chunks != 0
/-- Directory ways in use. -/
def State.openBins (s : State) : Nat := (s.tile.bins.filter (fun e => e.1 < 131072 && e.1 % 32 < 16 && !e.2.entries.isEmpty)).length

def State.binOf (s : State) (i : Nat) : Bin := tget {} s.tile.bins i
def State.modBin (s : State) (i : Nat) (f : Bin → Bin) : State := s.modTile (fun t => { t with bins := tmod {} t.bins i f })

/-- The bin an entry of this class and key joins (R190): the matching way, a free way, or the mixed bin. -/
def State.binFor (s : State) (cls key : Nat) : Nat :=
  let set := key % 4096
  let way := fun i => s.binOf (set * 32 + i)
  match firstIdx 16 (fun i => !(way i).entries.isEmpty && (way i).cls == cls && (way i).key == key) with
  | some i => set * 32 + i
  | none => match firstIdx 16 (fun i => (way i).entries.isEmpty) with
    | some i => set * 32 + i
    | none => set * 32 + 16 + cls

/-- Whether the bin has room for one more entry: in its last chunk, or in a free chunk (R198). -/
def State.binRoom (s : State) (i : Nat) : Bool :=
  (s.binOf i).entries.length % 128 != 0 || decide (s.chunksUsed < s.chunks)

/-- Puts a slot into a list of slots by ascending AGE, equal ones in the order in which they were first inserted (R200). -/
def State.insAge (s : State) (l : List Nat) (k : Nat) : List Nat :=
  match l with
  | [] => [k]
  | j :: r =>
    if (s.q k).age < (s.q j).age ∨ ((s.q k).age = (s.q j).age ∧ (s.q k).insOrd < (s.q j).insOrd) then k :: j :: r else j :: s.insAge r k

/-- Puts a slot into the escape bin of its class; entering an empty one raises ESCAPE_USE (R198, R206). -/
def State.toEscape (s : State) (k : Nat) : State :=
  let cls := (s.q k).qr.cls
  let i := 131072 + cls
  let was := (s.binOf i).entries.isEmpty
  let s1 := ((s.modBin i (fun b => { b with cls := cls, entries := s.insAge b.entries k })).modQ k (fun q => { q with place := .binned })).oInc 0x4300 7
  if was then s1.raise 0x5400 3 cls else s1

/-- Puts a keyed query into its bin; `wait` sources have been given room before (R190, R198). -/
def State.toBin (s : State) (k : Nat) : State :=
  let q := s.q k
  let i := s.binFor q.qr.cls q.key
  if s.binRoom i then
    let s1 := (s.modBin i (fun b => { b with cls := q.qr.cls, key := if i % 32 < 16 then q.key else 0, entries := s.insAge b.entries k,
                                             lastBob := if b.entries.isEmpty && decide (i % 32 < 16) then none else b.lastBob,
                                             ripe := if b.entries.isEmpty then false else b.ripe,
                                             waitBob := if b.entries.isEmpty then none else b.waitBob })).modQ k (fun q => { q with place := .binned })
    if i % 32 < 16 then s1 else s1.oInc 0x4300 8
  else s.toEscape k

/-- Inserts an admitted query as source src of R180: to the class-0 queue, on the hold list of its handle, or keyed and
into a bin. A metric key reads the vector's first elements (R187). -/
def State.insert (s : State) (k src : Nat) : State :=
  let q := s.q k
  let h := s.hndOf q.qr.handle
  let s0 := if src = 1 then s.oInc 0x4300 2 else s
  if src = 2 ∧ q.served = none ∧ (h.state = 2 ∨ h.state = 3) then
    (s0.modQ k (fun q => { q with place := .held })).modTile (fun t => { t with holds := t.holds ++ [k] })
  else if q.qr.cls = 0 then
    (s0.modQ k (fun q => { q with place := .binned, age := s.clkF })).modTile (fun t => { t with cl0 := t.cl0 ++ [k] })
  else
    let sch := s.scheme
    let u := s0.tick
    let s1 := u.2.modQ k (fun q => { q with place := .binned, age := s.clkF, scheme := sch, insOrd := u.1 })
    if s.keyReads q.qr sch then
      match q.served with
      | some v =>
        let bytes := (v.vec.take 12).foldr (fun x a => x % 256 ^ h.elemSize + a * 256 ^ h.elemSize) 0
        (s1.modQ k (fun q => { q with key := s1.keyOf k sch (some bytes) })).toBin k
      | none => (s1.modQ k (fun q => { q with keySrc := src })).startJob (.keyVec k q.uid) q.qr.ctx (bytesAt q.qr.body 0 8)
        (min (12 * h.elemSize) (h.dim * h.elemSize)) .rd q.qr.stream
    else (s1.modQ k (fun q => { q with key := s1.keyOf k sch none })).toBin k

/-- Bins a query whose key is there; a new admission waits while its bin has no room (R198). -/
def State.binKeyed (s : State) (k : Nat) : State :=
  let q := s.q k
  if q.keySrc = 4 ∧ !s.binRoom (s.binFor q.qr.cls q.key) then s.modTile (fun t => { t with keyWait := t.keyWait ++ [k] })
  else (s.modQ k (fun q => { q with keySrc := 0 })).toBin k

/-- The vector elements for a key are in (R187): the query is keyed and binned. -/
def State.keyRead (s : State) (k uid : Nat) (j : Job) : State :=
  let q := s.q k
  if q.uid = uid ∧ q.keySrc ≠ 0 ∧ q.place = .binned then
    (s.modQ k (fun q => { q with key := s.keyOf k q.scheme (if j.err = 0 then some (j.data / 256 ^ (j.addr % 64)) else none) })).binKeyed k
  else s

/-- Keyed queries that waited for room try again, oldest first (R198). -/
def State.keyRetry (s : State) : State :=
  s.tile.keyWait.foldl (fun (s : State) k => s.binKeyed k) (if s.tile.keyWait.isEmpty then s else s.modTile (fun t => { t with keyWait := [] }))

/-- Entries leave their bins: a chunk that is to be withdrawn is so once the last of its entries has left (R329). -/
def State.unchunk (s : State) (ks : List Nat) : State :=
  if s.tile.chunkOld.isEmpty then s
  else s.modTile (fun t =>
    let l := t.chunkOld.map (fun c => c.filter (fun k => !ks.contains k))
    { t with chunkOld := l.filter (fun c => !c.isEmpty), lostChunks := t.lostChunks + (l.filter (fun c => c.isEmpty)).length })

/-- Takes a slot out of every list of the Pleater. -/
def State.unbin (s : State) (k : Nat) : State :=
  let s1 := (s.tile.bins.filter (fun e => e.2.entries.contains k)).foldl (fun (s : State) e =>
    s.modBin e.1 (fun b => { b with entries := b.entries.filter (fun j => j != k) })) (s.unchunk [k])
  s1.modTile (fun t => { t with cl0 := t.cl0.filter (fun j => j != k), holds := t.holds.filter (fun j => j != k), keyWait := t.keyWait.filter (fun j => j != k) })

/-! ## The key scheme (R189) -/

/-- Hits and misses of the node caches, tile-wide. -/
def State.ncTotals (s : State) : Nat × Nat :=
  (List.range 48).foldl (fun a b => (a.1 + s.o (0x4340 + b) 1, a.2 + s.o (0x4340 + b) 2)) (0, 0)

/-- The end of an interval: H is latched in units of 1/65,536 (R189). H of an interval without accesses is not stated: a
free value. A latch that finds one waiting is discarded. -/
def State.interval (s : State) : State :=
  if s.tile.sinceInterval < 65536 then s
  else
    let t := s.ncTotals
    let hits := t.1 - s.tile.hits0
    let all := hits + (t.2 - s.tile.misses0)
    let d := if all = 0 then s.draw else (0, s)
    let h := if all = 0 then d.1.toNat % 65537 else hits * 65536 / all
    let s1 := d.2.modTile (fun x => { x with sinceInterval := x.sinceInterval - 65536, hits0 := t.1, misses0 := t.2 })
    if s.o 0x2400 1 = 1 then s1
    else if s.tile.latched.isSome then s1.oInc 0x4300 0x0E
    else s1.modTile (fun x => { x with latched := some h })

/-- The next scheme after `best` in KEY_ALLOWED, ascending and cyclic. -/
def nextScheme (allowed best : Nat) : Option Nat :=
  ((List.range 5).map (fun i => (best + 1 + i) % 6)).find? (fun k => bit allowed k)

/-- The Tailor's decision on a latched H (R189). -/
def State.schemeDecision (s : State) : State :=
  match s.tile.latched with
  | none => s
  | some h =>
    let t := s.tile
    let best0 := t.best.getD (s.o 0x2400 2)
    let n := t.decisions + 1
    let (best, hb) := match t.trial with
      | some tr => if t.hBest + 1024 < h then (tr, h) else (best0, t.hBest)
      | none => (best0, h)
    let trial := if (n + 1) % 16 = 0 then nextScheme (s.o 0x2400 3) best else none
    (s.modTile (fun x => { x with best := some best, trial := trial, hBest := hb, decisions := n, latched := none })).oSet 0x4300 0x12 (min hb 65535)

end Sys2Proof.Machine
end

