-- ==== Sys2Proof/Machine/Pages.lean ====
section
/-! DEFINITION. Result-buffer pages (R247, R249): what a stream holds, and whether more fits. -/

namespace Sys2Proof.Machine

/-! ## Pages (R247, R249) -/

/-- Bytes of a record in the pages. -/
def Rec.size : Rec → Nat | .hit _ => 32 | .nbr _ => 16 | .trc _ => 0
def recsSize (l : List Rec) : Nat := l.foldl (fun a r => a + r.size) 0

/-- Bytes that a stream holds in the result buffer: records with the Hem, fills, entries under way, waiting posts,
remote-hit states and what migrations have reserved. -/
def State.rbBytes (s : State) (c st : Nat) : Nat :=
  let x := s.st c st
  let fill := fun (f : Fill) => f.placed.foldl (fun a p => a + recsSize p.recs) 0
  x.hem.foldl (fun a i => if i.paged then a + recsSize i.recs else a) 0 + x.ringOut.foldl (fun a p => a + recsSize p.2.recs) 0 +
  (match x.open_ with | some f => fill f | none => 0) + x.closing.foldl (fun a f => a + fill f) 0 +
  s.tile.waitPosts.foldl (fun a p => if p.ctx = c ∧ fld p.key 32 3 = st then a + 16 else a) 0 +
  s.slot.foldl (fun a e => let q := e.2
    if q.place ≠ .none ∧ q.served = none ∧ q.qr.ctx = c ∧ q.qr.stream = st ∧ (q.qr.kind = 1 ∨ q.qr.kind = 2) ∧ (s.hndOf q.qr.handle).distrib then a + 64
    else a) 0

/-- Pages held for the migrations of a stream (R358). -/
def State.migPages (s : State) (c st : Nat) : Nat :=
  s.mig.foldl (fun a e => let q := s.q e.2.slot
    if e.2.used && q.qr.ctx == c && q.qr.stream == st then a + e.2.pages else a) 0

/-- Pages a stream holds. -/
def State.pagesOf (s : State) (c st : Nat) : Nat := (s.rbBytes c st + 4095) / 4096 + s.migPages c st
/-- Pages of the region (R247), less those lost to retired lines: a page with waiting records once they are delivered (R329). -/
def State.rbPages (s : State) : Nat :=
  s.part.rb * 256 - s.tile.lostPages - (s.tile.pageOld.filter (fun e => (s.q e.1).uid != e.2 || (s.q e.1).place != .hem)).length
/-- Streams that are enabled. -/
def State.streamsOn (s : State) : List (Nat × Nat) :=
  (List.range 64).flatMap (fun c => ((List.range 8).filter (fun st => s.ringEn c st)).map (fun st => (c, st)))
/-- Pages in use or held back by every stream but this one. -/
def State.pagesElse (s : State) (c st : Nat) : Nat :=
  let keys := (s.strm.map (fun e => (e.1 / 8, e.1 % 8))) ++ (s.streamsOn.filter (fun k => !s.strm.any (fun e => e.1 == k.1 * 8 + k.2)))
  keys.foldl (fun a k => if k = (c, st) then a else a + max (s.pagesOf k.1 k.2) (if s.ringEn k.1 k.2 then s.o 0x2410 1 else 0)) 0

/-- Whether a stream can hold `pages` pages (R249): under RB_CAP, and from its reserve or the pages nobody else has. -/
def State.pagesFit (s : State) (c st pages : Nat) : Bool :=
  decide (pages ≤ s.o 0x2410 2) && (decide (pages ≤ s.o 0x2410 1) || decide (pages + s.pagesElse c st ≤ s.rbPages))

/-- Pages in use or held back by all streams. -/
def State.pageLoad (s : State) (c st : Nat) : Nat := s.pagesOf c st + s.pagesElse c st

/-- Whether `bytes` more fit. -/
def State.rbRoom (s : State) (c st bytes : Nat) : Bool :=
  bytes == 0 || s.pagesFit c st ((s.rbBytes c st + bytes + 4095) / 4096 + s.migPages c st)

end Sys2Proof.Machine
end

