-- ==== Sys2Proof/Machine/Admit.lean ====
section
/-! DEFINITION. Fetching (R181), the checks at admission (R46, R47, R257), admission (R65, R182), generation (R48 to R50,
R150) and continuations (R51, R52). -/

namespace Sys2Proof.Machine

/-! ## Completion without a slot, losses -/

/-- A terminal record without a slot; UNRECOVERED is raised with it where it applies. -/
def State.refuse (s : State) (r : QRec) (status : Nat) (cnt : Word) (n : Nat) : State :=
  let s1 := s.slotless r status cnt n
  if status = stUnrecovered then s1.unrecovered r.ctx r.stream else s1

/-! ## What stops admission (R65, R66, R99, R183, R198, R200, R202, R249, R286, R385) -/

/-- Capacity of a context's spill window in entries. -/
def State.spillCap (s : State) (c : Nat) : Nat := s.co c 0xE / 16
/-- Queries of a stream admitted and not delivered (R385). -/
def State.streamUse (s : State) (c st : Nat) : Nat :=
  (s.slot.filter (fun e => e.2.place != .none && e.2.place != .charged && e.2.qr.ctx == c && e.2.qr.stream == st && e.2.served.isNone)).length
/-- ADMIT_STOP for reasons of the spill window (R200, R202). -/
def State.spillStop (s : State) (c : Nat) : Bool :=
  let x := s.ctxOf c
  let full := decide (s.spillCap c ≤ x.spill.length)
  (full && s.occAtLeast (s.o 0x2400 0xB)) || (!x.spill.isEmpty && s.occAtLeast (s.o 0x2400 0xD))
/-- Whether a slot and its units cannot be had at all (R65, R183). -/
def State.roomStop (s : State) (c : Nat) : Bool := !s.unitsFree c 1 1024
/-- Everything but the next query's own needs that makes admission of a stream wait. -/
def State.admitStop (s : State) (c st : Nat) : Bool :=
  let x := s.ctxOf c
  x.overPark || x.overExt || s.spillStop c || s.roomStop c || (s.st c st).rbFull || (s.ringPost c st && (x.postStop || x.readyStop)) ||
  (s.grain c && decide (s.o 0x7000 5 ≤ s.streamUse c st))

/-! ## Checks (R46, R47, R257) -/

/-- The index-table entry that a context can use for a kind (R71, R136): reachable, and of the kind's class. -/
def State.servable (s : State) (c h kind : Nat) : Bool :=
  (s.hndOf h).reachable c && (kind == 0 || (s.hndOf h).metric == isMetric kind)

/-- KM1, TRACE, CONT and LIMIT against the kind (R46, R47); true is right. -/
def kindFieldsOk (kind km1 limit : Nat) (trace cont : Bool) : Bool :=
  (if kind = kKhit then decide (km1 < 64) else kind == kKnn || km1 == 0) &&
  (!trace || kind == kRayClosest || kind == kKhit) && (!cont || kind == kRayClosest) && (!trace || limit != 0) &&
  (trace || kind == kRadius || kind == kOverlap || kind == kPoint || limit == 0)

/-- The res0 fields of a query descriptor (R46). -/
def descRes0 (v : Nat) : Bool :=
  let kind := fld v 0 4
  fld v 10 5 == 0 && fld v 44 4 == 0 && bytesAt v 7 1 == 0 && bytesAt v 0xC 4 == 0 && bytesAt v 0x38 8 == 0 &&
  (!bit v 8 || kind == kOverlap) && (bit v 6 || bytesAt v 0x30 8 == 0) &&
  (match kind with
   | 0 => bytesAt v 0x10 32 == 0
   | 5 => bytesAt v 0x1C 4 / 512 == 0 && bytesAt v 0x20 16 == 0
   | 6 => bytesAt v 0x1C 4 / 512 == 0 && bytesAt v 0x20 16 == 0
   | 7 => if bit v 8 then bytesAt v 0x20 16 == 0 else bytesAt v 0x28 8 == 0
   | 8 => bytesAt v 0x1C 20 == 0
   | _ => true)

/-- The values of BODY (R47): no NaN, finite where asked, a direction, an ordered box, no negative radius. -/
def valuesOk (r : QRec) (accF : Bool) : Bool :=
  let f := fun o => r.b32 o
  let all3 := fun (o : Nat) (p : Nat → Bool) => p (f o) && p (f (o + 4)) && p (f (o + 8))
  if isRay r.kind then
    all3 0x10 fFin && all3 0x20 fFin && !fNan (f 0x1C) && !fNan (f 0x2C) && !(all3 0x20 binary32.isZero)
  else if isMetric r.kind then !accF || !fNan (f 0x18)
  else if r.kind = kOverlap ∧ r.shape then all3 0x10 fFin && !fNan (f 0x1C) && !fLt (f 0x1C) 0
  else if r.kind = kOverlap then
    all3 0x10 (fun x => !fNan x) && all3 0x1C (fun x => !fNan x) && (List.range 3).all (fun a => fLe (f (0x10 + 4 * a)) (f (0x1C + 4 * a)))
  else if r.kind = kPoint then all3 0x10 (fun x => !fNan x)
  else true

/-- The checks of R47 that need BODY and addresses, and R257: the completion status, none for admission. -/
def State.bodyCheck (s : State) (r : QRec) (traceAddr traceCap : Nat) : Option Nat :=
  let h := s.hndOf r.handle
  let vec := bytesAt r.body 0 8
  let lim := if isRay r.kind then 0 else r.w0c
  if isMetric r.kind && decide (256 < fld (r.b32 0x1C) 0 9) then some stFormat
  else if !valuesOk r h.accF then some stFormat
  else if isMetric r.kind && vec % 64 != 0 then some stFormat
  else if r.trace && traceAddr % 32 != 0 then some stFormat
  else if isMetric r.kind && !s.coversRange r.ctx vec (h.dim * h.elemSize) .rd then some stWindow
  else if r.trace && !s.coversRange r.ctx traceAddr (32 * traceCap) .wr then some stWindow
  else if isRay r.kind && fLe (r.b32 0x2C) (r.b32 0x1C) then some stNoHit
  else if s.destSlot r.ctx r.stream && (r.kind == kRayAll || (isStreamed r.kind && lim == 0)) then some stFormat
  else none

/-- A check of R47 or R50 that finds a range without its window is a window fault of the stream (R297, R433). -/
def State.checkFault (s : State) (c st status : Nat) : State := if status = stWindow then s.windowFault c st else s

/-- The record of a plain descriptor (R46, R53): for metric kinds BOUND starts at r. -/
def plainRec (c st : Nat) (cnt : Word) (v : Nat) : QRec :=
  let kind := fld v 0 4
  let body := bytesAt v 0x10 32
  { kind := kind, cls := fld v 4 2, ctx := c, stream := st, trace := bit v 6, forceOpaque := bit v 7, shape := bit v 8,
    vismask := fld v 16 8, cont := bit v 9, handle := fld v 32 12, filter := fld v 24 8, km1 := bytesAt v 6 1, seq := cnt,
    w0c := if isRay kind then 0 else bytesAt v 8 4,
    body := if isMetric kind then putBytes body 0x10 4 (bytesAt body 8 4) else body }

/-- The first failing check of a plain descriptor (R47, R257). -/
def State.plainCheck (s : State) (c st : Nat) (v : Nat) : Option Nat :=
  let r := plainRec c st 0 v
  let limit := bytesAt v 8 4
  if 9 ≤ r.kind then some stBadKind
  else if !descRes0 v then some stFormat
  else if !s.servable c r.handle r.kind then some stFormat
  else if !kindFieldsOk r.kind r.km1 limit r.trace r.cont then some stFormat
  else s.bodyCheck r (bytesAt v 0x30 8) limit

/-! ## Admission (R182) -/

/-- Slots charged for a query (R52). -/
def State.chargeOf (s : State) (r : QRec) : Nat := if r.cont then fld (s.ringCtrl r.ctx r.stream) 16 2 + 1 else 1

/-- Parking slots in use: the queries in flight, migrated ones that are served here among them (R27). -/
def State.queriesIn (s : State) : Nat := (s.slot.filter (fun e => e.2.place != .none)).length

/-- Whether the bin of a new query has no room for it, as far as its key is known before its vector is read (R187, R198). -/
def State.binFull (s : State) (r : QRec) : Bool :=
  let a := (s.hndOf r.handle).root / 64 * 64
  r.cls != 0 && !s.keyReads r s.scheme && !s.binRoom (s.binFor r.cls (s.keyFor r a s.scheme none))

/-- Whether a query must wait at admission (R65, R99, R198, R362 and the stops). -/
def State.mustWait (s : State) (r : QRec) : Bool :=
  let h := s.hndOf r.handle
  let n := s.chargeOf r
  h.state == 2 || h.state == 3 || s.admitStop r.ctx r.stream || s.binFull r || decide (16777216 < s.queriesIn + n) ||
  (h.distrib && (r.kind == kRayClosest || r.kind == kRayAny) && !s.rbRoom r.ctx r.stream 64) ||
  !(decide (s.usagePark r.ctx + n ≤ s.co r.ctx 1) && decide (s.usageExt r.ctx + r.extSize ≤ s.co r.ctx 2) &&
    s.unitsFree r.ctx (n + r.extSize) 1024)

/-- Allocates `n` slots charged for continuations (R52). -/
def State.takeCharged (r : QRec) : (n : Nat) → State → State × List Nat
  | 0, s => (s, [])
  | n + 1, s =>
    let k := s.freeSlot
    let t := s.takeReserve r.ctx 1
    let x := State.takeCharged r n (s.modQ k (fun _ => { place := .charged, qr := { ctx := r.ctx, stream := r.stream }, fromReserve := t }))
    (x.1, k :: x.2)

/-- Allocates the slot, the extension and the charges of a query and writes its record (R182 steps 3 and 4). The number
of the extension block is the allocator's own: a free value. -/
def State.allocate (s : State) (r : QRec) (desc : Word) (n traceAddr traceCap : Nat) (bell : Nat) (plain : Bool) : State × Nat :=
  let k := s.freeSlot
  let t := s.takeReserve r.ctx (1 + r.extSize)
  let d := if r.usesExt then s.draw else (0, s)
  let u := d.2.tick
  let r1 := if r.usesExt then { r with w38 := d.1.toNat % 2 ^ 24 } else r
  let s1 := u.2.modQ k (fun _ => { place := .binned, qr := r1, body0 := r.body, extBlocks := r.extSize, fromReserve := t, traceAddr := traceAddr,
                                   traceCap := traceCap, plain0 := plain && r.cls == 0, bell := bell, desc := desc, genN := n, dord := (s.st r.ctx r.stream).dord, uid := u.1 })
  let x := State.takeCharged r (s.chargeOf r - 1) s1
  (((x.1.modQ k (fun q => { q with contSlots := x.2 })).oInc 0x4300 1).modTile (fun t => { t with sinceInterval := t.sinceInterval + 1 }), k)

/-- Admits a plain descriptor, or completes it (R44, R47, R182). -/
def State.admitPlain (s : State) (c st : Nat) (e : Fetched) : State :=
  let r := plainRec c st e.count e.data
  match s.plainCheck c st e.data with
  | some x => ((s.checkFault c st x).refuse r x e.count 0).entryDone c st
  | none =>
    if s.mustWait r then s
    else
      let a := s.allocate r e.count 0 (if r.trace then bytesAt e.data 0x30 8 else 0) (if r.trace then bytesAt e.data 8 4 else 0) e.bell true
      (a.1.insert a.2 4).entryDone c st

/-! ## Generation (R48 to R50) -/

/-- The record that a generation descriptor's terminal record and queries share. SEQ is composite (R48). -/
def genRec (c st : Nat) (cnt : Word) (v n : Nat) : QRec :=
  let gk := fld v 0 4
  let qk := fld (bytesAt v 7 1) 0 4
  { kind := qk, cls := fld v 4 2, ctx := c, stream := st, trace := bit v 6, forceOpaque := bit v 7, gen := true, vismask := fld v 16 8,
    cont := bit v 9, handle := fld v 32 12, filter := fld v 24 8, km1 := bytesAt v 6 1,
    seq := BitVec.ofNat 32 (cnt.toNat % 4096 * 2 ^ 20 + n), w0c := if isRay qk then 0 else bytesAt v 8 4,
    body := if gk = 2 then bytesAt v 0x10 8 + bytesAt v 0x18 4 * 2 ^ 64 + fld (bytesAt v 0x1C 4) 0 9 * 2 ^ 96 +
      bytesAt v 0x1E 2 * 2 ^ 112 + bytesAt v 0x18 4 * 2 ^ 128 else 0 }

/-- Whether GKIND allows QKIND (R48). -/
def genKindOk (v : Nat) : Bool :=
  let gk := fld v 0 4
  let qk := fld (bytesAt v 7 1) 0 4
  (gk == 1 && isRay qk) || (gk == 2 && isMetric qk)

/-- The record of a cancelled generation descriptor: in the hit format where QKIND is not one that GKIND allows (R67). -/
def genRefusal (c st : Nat) (cnt : Word) (v : Nat) : QRec :=
  let r := genRec c st cnt v 0
  if genKindOk v then r else { r with kind := 0 }

/-- The checks of R50 up to the windows. -/
def State.genCheck (s : State) (c st : Nat) (v : Nat) : Option Nat :=
  let gk := fld v 0 4
  let w1c := bytesAt v 0x1C 4
  let r := genRec c st 0 v 0
  let limit := bytesAt v 8 4
  let tb := bytesAt v 0x30 8
  let h := s.hndOf r.handle
  if !genKindOk v || bit v 8 || fld v 10 5 != 0 || fld v 44 4 != 0 || fld (bytesAt v 7 1) 4 4 != 0 || bytesAt v 0xC 4 != 0 ||
     bytesAt v 0x20 16 != 0 || bytesAt v 0x38 8 != 0 || (!r.trace && tb != 0) || (gk == 2 && fld w1c 9 7 != 0) then some stFormat
  else if gk == 1 && (w1c == 0 || decide (1048576 < w1c) || bytesAt v 0x10 8 % 64 != 0) then some stFormat
  else if gk == 2 && (fld w1c 16 16 == 0 || decide (64 < fld w1c 16 16) || decide (256 < fld w1c 0 9) || bytesAt v 0x10 8 % 64 != 0) then some stFormat
  else if r.trace && tb % 32 != 0 then some stFormat
  else if !s.servable c r.handle r.kind || !kindFieldsOk r.kind r.km1 limit r.trace r.cont then some stFormat
  else if s.destSlot c st && (r.kind == kRayAll || (r.kind == kRadius && limit == 0)) then some stFormat
  else if !s.coversRange c (bytesAt v 0x10 8) (if gk = 1 then 64 else h.dim * h.elemSize) .rd then some stWindow
  else if r.trace && !s.coversRange c tb (32 * limit * (if gk = 1 then w1c else 1)) .wr then some stWindow
  else none

/-- Whether queries of an earlier generation descriptor with the same S mod 4,096 still have no terminal record (R48); their continuations count
with them (log 101). -/
def State.genClash (s : State) (c st : Nat) (cnt : Word) : Bool :=
  let g := cnt.toNat % 4096
  s.slot.any (fun e => e.2.place != .none && e.2.place != .charged && e.2.served.isNone && e.2.qr.gen && e.2.qr.ctx == c && e.2.qr.stream == st && e.2.qr.seq.toNat / 2 ^ 20 == g) ||
  (s.st c st).items.any (fun i => i.terminal && i.genS == some g)

/-- The generation descriptor at the head of a stream begins (R48, R50, R67). -/
def State.genBegin (s : State) (c st : Nat) : State :=
  let x := s.st c st
  if !s.run || (s.ctxOf c).aborting || x.gen.isSome then s
  else match x.front with
    | none => s
    | some e =>
      let r := genRefusal c st e.count e.data
      if e.status ≠ none ∨ !bit e.data 15 then s
      else if x.frontCancelled e.count then (s.refuse r stCancelled e.count 0).entryDone c st
      else if s.genClash c st e.count || !s.ctxEn c then s
      else match s.genCheck c st e.data with
        | some y => ((s.checkFault c st y).refuse (genRec c st e.count e.data 0) y e.count 0).entryDone c st
        | none =>
          let cam := fld e.data 0 4 == 1
          let g : GenExp := { desc := e.data, s := e.count, ready := !cam, ord := s.order, count := if cam then bytesAt e.data 0x1C 4 else 1 }
          let s1 := s.modSt c st (fun x => { x with gen := some g })
          if cam then s1.startJob (.shot c st) c (bytesAt e.data 0x10 8) 64 .rd st else s1

/-- The checks of a shot block (R50). -/
def shotOk (v : Nat) : Bool :=
  let sa := bytesAt v 0x2E 1
  let sb := bytesAt v 0x2F 1
  let all3 := fun o => (List.range 3).all (fun a => f32Finite (w32 v (o + 4 * a)))
  bytesAt v 0x2C 2 != 0 && bytesAt v 0x3C 2 != 0 && decide (1 ≤ sa) && decide (sa ≤ 16) && decide (1 ≤ sb) && decide (sb ≤ 16) &&
  bytesAt v 0x3E 2 == 0 && all3 0 && all3 0x10 && all3 0x20 && all3 0x30 && !f32Nan (w32 v 0xC) && !f32Nan (w32 v 0x1C)

/-- The shot block has been read (R50). -/
def State.shotRead (s : State) (c st : Nat) (j : Job) : State :=
  match (s.st c st).gen with
  | none => s
  | some g =>
    let r := genRefusal c st g.s g.desc
    if g.ready then s
    else if j.err = 1 then (s.refuse r stWindow g.s 0).entryDone c st
    else if j.err ≠ 0 then (s.refuse r stUnrecovered g.s 0).entryDone c st
    else if !shotOk j.data then (s.refuse r stFormat g.s 0).entryDone c st
    else s.modSt c st (fun x => { x with gen := some { g with shot := j.data % 2 ^ 512, ready := true } })

/-- Generated query n of a CAMERA descriptor (R49): its BODY, or none when y ≥ HEIGHT. -/
def camBody (desc shot n : Nat) : Option Nat :=
  let sa := bytesAt shot 0x2E 1
  let sb := bytesAt shot 0x2F 1
  let w := bytesAt shot 0x2C 2
  let m := bytesAt desc 0x18 4 + n
  let p := m / (sa * sb)
  let i := m % (sa * sb)
  let x := p % w
  let y := p / w
  let frac := fun (a num den : Nat) => f32 ((Dy.ofInt (a * 2 * den + (2 * num + 1) : Nat)).quot (Dy.ofInt (2 * den : Nat)))
  let fx := frac x (i % sa) sa
  let fy := frac y (i / sa) sb
  let dir := fun a => fAdd (fAdd (w32 shot (0x10 + 4 * a)) (fMul fx (w32 shot (0x20 + 4 * a)))) (fMul fy (w32 shot (0x30 + 4 * a)))
  if bytesAt shot 0x3C 2 ≤ y then none
  else some (bytesAt shot 0 16 + (dir 0 + dir 1 * 2 ^ 32 + dir 2 * 2 ^ 64 + w32 shot 0x1C * 2 ^ 96) * 2 ^ 128)

/-- A generated query: its record, its trace area, and the status that a check gives it. -/
structure GenNext where
  qr : QRec
  trace : Nat
  cap : Nat
  status : Option Nat
  deriving DecidableEq, Repr

/-- The next query of a stream's expansion (R49), with the checks that concern it alone (R50), among them a handle that a DROP has freed
meanwhile (R47, R98). -/
def State.genNext (s : State) (c st : Nat) (g : GenExp) : GenNext :=
  let r0 := genRec c st g.s g.desc g.n
  let body := if fld g.desc 0 4 = 1 then camBody g.desc g.shot g.n else some r0.body
  let r := { r0 with body := body.getD 0 }
  let lim := bytesAt g.desc 8 4
  let cap := if r.trace then lim else 0
  let trace := if r.trace then bytesAt g.desc 0x30 8 + 32 * lim * g.n else 0
  { qr := r, trace := trace, cap := cap,
    status := if !s.servable c r.handle r.kind then some stFormat else match body with
      | none => some stFormat
      | some _ => s.bodyCheck r trace cap }

/-- Whether the next admission of a stream is stopped (R65, R99, R181): its next query has to wait, or its next generation descriptor has
to (R48). -/
def State.frontWaits (s : State) (c st : Nat) : Bool :=
  let x := s.st c st
  match x.gen with
  | some g => g.ready && !g.cancelled && (s.genNext c st g).status.isNone && s.mustWait (s.genNext c st g).qr
  | none => match x.front with
    | none => false
    | some e => e.status.isNone && !x.frontCancelled e.count &&
      (if bit e.data 15 then s.genClash c st e.count
       else (s.plainCheck c st e.data).isNone && s.mustWait (plainRec c st e.count e.data))

/-- Builds and admits the next query of a stream's expansion, or completes it (R49, R50, R67, R182). -/
def State.genStep (s : State) (c st : Nat) (g : GenExp) : State :=
  if !g.ready then s
  else
    let v := s.genNext c st g
    let next := fun (s : State) =>
      let u := s.tick
      if g.n + 1 < g.count then u.2.modSt c st (fun x => { x with gen := some { g with n := g.n + 1, ord := u.1 } }) else s.entryDone c st
    if g.cancelled then next (s.refuse v.qr stCancelled g.s g.n)
    else match v.status with
      | some y => next ((s.checkFault c st y).refuse v.qr y g.s g.n)
      | none =>
        if s.mustWait v.qr then s
        else
          let a := s.allocate v.qr g.s g.n v.trace v.cap 0 false
          next (a.1.insert a.2 4)

/-- What a stream would admit now, by the order of source 4 (R180): its priority class first, 0 before any other, then its age; none where
its next entry is not admitted or has to wait. -/
def State.admitRank (s : State) (c st : Nat) : Option (Nat × Nat) :=
  let x := s.st c st
  let rank := fun (r : QRec) (ord : Nat) => if s.mustWait r then none else some (min 1 r.cls, ord)
  if (s.ctxOf c).aborting then none
  else match x.gen with
    | some g => if g.ready && !g.cancelled && (s.genNext c st g).status.isNone then rank (s.genNext c st g).qr g.ord else none
    | none => match x.front with
      | none => none
      | some e =>
        if e.status.isSome || bit e.data 15 || x.frontCancelled e.count || !s.ctxEn c || (s.plainCheck c st e.data).isSome then none
        else rank (plainRec c st e.count e.data) e.ord

/-- Whether no other stream goes before this one (R180). -/
def State.admitTurn (s : State) (c st : Nat) : Bool :=
  match s.admitRank c st with
  | none => true
  | some a => s.strm.all (fun e =>
    match s.admitRank (e.1 / 8) (e.1 % 8) with
    | none => true
    | some b => decide (a.1 < b.1) || (a.1 == b.1 && decide (a.2 ≤ b.2)))

/-- The oldest fetched or generated query of a stream is admitted or completed (R182), in its turn among the streams (R180). A cancelled
entry is completed without being admitted (R67). -/
def State.admission (s : State) (c st : Nat) : State :=
  let x := s.st c st
  if !s.run || (s.ctxOf c).aborting || !s.admitTurn c st then s
  else match x.gen with
    | some g => s.genStep c st g
    | none => match x.front with
      | none => s
      | some e =>
        match e.status with
        | some y =>
          let z := if x.frontCancelled e.count && y == stWindow then stCancelled else y
          let s1 := s.slotlessRec { ctx := c, stream := st, seq := e.count } z e.count 0 (unreadRec e.count z)
          (if z = stUnrecovered then s1.unrecovered c st else s1).entryDone c st
        | none =>
          if bit e.data 15 then s
          else if x.frontCancelled e.count then (s.refuse (plainRec c st e.count e.data) stCancelled e.count 0).entryDone c st
          else if !s.ctxEn c then s
          else s.admitPlain c st e

/-- A generator builds its next query: descriptors under expansion take turns (R48). -/
def State.generate (s : State) : State :=
  if !s.run then s
  else
    let can := fun k => match (s.st (k / 8) (k % 8)).gen with
      | some g => g.ready && s.admitTurn (k / 8) (k % 8) && !s.frontWaits (k / 8) (k % 8)
      | none => false
    match firstIdx 512 (fun i => can ((s.tile.rrGen + 1 + i) % 512)) with
    | none => s
    | some i =>
      let k := (s.tile.rrGen + 1 + i) % 512
      (s.modTile (fun t => { t with rrGen := k })).admission (k / 8) (k % 8)

/-! ## Fetch (R181) -/

/-- Entries fetched and not admitted, those in flight included (R181). -/
def StreamSt.heldEntries (x : StreamSt) : Nat :=
  x.entries.length + x.inFlight.foldl (fun a e => a + e.2) 0 + x.old.foldl (fun a r => a + (r.stop - r.next).toNat) 0

/-- Whether the Pleater may fetch for a stream. -/
def State.fetchable (s : State) (c st : Nat) : Bool :=
  let x := s.st c st
  s.run && x.tail != x.fetched && (x.cancels x.fetched || (s.ctxEn c && s.ringEn c st && !s.admitStop c st && !s.frontWaits c st)) &&
  decide (x.inFlight.length < 1024) && decide (x.heldEntries < 16384) && !(s.ctxOf c).aborting

/-- When the doorbell that covers count cnt was accepted (R195). -/
def StreamSt.bellOf (x : StreamSt) (cnt : Word) : Nat :=
  match x.bells.find? (fun b => cancelled (some b.1) cnt) with
  | some b => b.2
  | none => 0

/-- Issues one fetch read: up to 16 entries that lie one after another in the ring, as one read for each entry. -/
def State.fetch (s : State) : State :=
  match firstIdx 512 (fun i => let k := (s.tile.rrFetch + 1 + i) % 512; s.fetchable (k / 8) (k % 8)) with
  | none => s
  | some i =>
    let k := (s.tile.rrFetch + 1 + i) % 512
    let c := k / 8
    let st := k % 8
    let x := s.st c st
    let size := 2 ^ s.ringLog c st
    let n := min (min 16 (x.tail - x.fetched).toNat) (min (16384 - x.heldEntries) (size - x.fetched.toNat % size))
    let upTo := x.fetched + BitVec.ofNat 32 n
    let s1 := (s.modTile (fun t => { t with rrFetch := k })).modSt c st (fun x => { x with
      fetched := upTo, inFlight := x.inFlight ++ [(x.fetched, n)], bells := x.bells.filter (fun b => cancelled (some b.1) upTo) })
    (List.range n).foldl (fun (s : State) j =>
      let cnt := x.fetched + BitVec.ofNat 32 j
      s.startJob (.fetch c st x.ep (x.bellOf cnt) x.fetched cnt) c (s.co c (0x18 + 5 * st) + 64 * (cnt.toNat % size)) 64 .rd st) s1

/-- Puts an entry into the list of a stream at its count's place. -/
def insFetched (base : Word) (l : List Fetched) (f : Fetched) : List Fetched :=
  match l with
  | [] => [f]
  | g :: r => if (f.count - base).toNat < (g.count - base).toNat then f :: g :: r else g :: insFetched base r f

/-- A fetched entry is in (R44, R181); one of an earlier run joins what is left of it. -/
def State.fetched (s : State) (c st ep bell : Nat) (first cnt : Word) (j : Job) : State :=
  let status := if j.err = 0 then none else if j.err = 1 then some stWindow else some stUnrecovered
  let u := ((s.began 0x4300 0x0D).began 0x7020 0x0C).tick
  let e : Fetched := { count := cnt, data := j.data % 2 ^ 512, status := status, bell := bell, ord := u.1 }
  let x := s.st c st
  if ep ≠ x.ep then
    u.2.modSt c st (fun x => { x with old := x.old.map (fun r => if r.ep = ep then { r with entries := insFetched r.next r.entries e } else r) })
  else if !x.inFlight.any (fun e => e.1 == first) then s
  else u.2.modSt c st (fun x => { x with
    inFlight := (x.inFlight.map (fun e => if e.1 = first then (e.1, e.2 - 1) else e)).filter (fun e => e.2 != 0),
    entries := insFetched x.next x.entries e })

/-! ## Continuations (R51, R52) -/

/-- Starts the read of a completed parent's continuation block (R51). -/
def State.contStart (s : State) (k : Nat) : State :=
  let q := s.q k
  if q.place = .parent ∧ q.contRead = false ∧ s.live then
    (s.modQ k (fun q => { q with contRead := true })).startJob (.cont k q.uid) q.qr.ctx (s.co q.qr.ctx (0x1B + 5 * q.qr.stream)) 64 .rd q.qr.stream
  else s

/-- The record of continuation j (R51). -/
def contRec (p : QRec) (v j : Nat) : QRec :=
  let t := p.tmax
  let pt := fun a => fAdd (p.b32 (0x10 + 4 * a)) (fMul t (p.b32 (0x20 + 4 * a)))
  let tg := fun a => w32 v (0xC + 12 * j + 4 * a)
  let points := bit v 8
  let d := fun a => if points then fSub (tg a) (pt a) else tg a
  let tmax := if points then 0x3F800000 else f32Inf
  { kind := fld v 0 4, cls := fld v 4 2, ctx := p.ctx, stream := p.stream, gen := p.gen, vismask := fld v 16 8, isCont := true, cidx := j,
    handle := fld v 32 12, filter := fld v 24 8, seq := p.seq,
    body := pt 0 + pt 1 * 2 ^ 32 + pt 2 * 2 ^ 64 + w32 v 8 * 2 ^ 96 + (d 0 + d 1 * 2 ^ 32 + d 2 * 2 ^ 64 + tmax * 2 ^ 96) * 2 ^ 128 }

/-- The continuation block is in: the continuations are built in the charged slots, or complete at once (R51). The extension of a traced
parent goes back with its record, as its slot passes to continuation 0 (R52, R54; log 102). -/
def State.contBuilt (s : State) (k uid : Nat) (j : Job) : State :=
  let q := s.q k
  if q.uid ≠ uid ∨ q.place ≠ .parent then s
  else
    let p := q.qr
    let v := j.data
    let blockOk := (fld v 0 4 == 1 || fld v 0 4 == 2) && fld v 6 2 == 0 && fld v 9 7 == 0 && fld v 44 4 == 0 && bytesAt v 6 2 == 0 &&
      bytesAt v 0x3C 4 == 0 && s.servable p.ctx (fld v 32 12) (fld v 0 4)
    let whole : Option Nat := if j.err = 2 ∧ q.kill ≠ some stAborted then some stUnrecovered else match q.kill with
      | some x => some x
      | none => if j.err = 1 then some stWindow else if !blockOk then some stFormat else none
    let slots := k :: q.contSlots
    let s0 := s.modTile (fun t => { t with contWait := t.contWait.filter (fun x => x != k) })
    (List.range slots.length).foldl (fun (s : State) i =>
      let slot := slots.getD i 0
      let t := s.tick
      let blank : QRec := { kind := 1, ctx := p.ctx, stream := p.stream, gen := p.gen, isCont := true, cidx := i, seq := p.seq }
      let r := match whole with | some _ => blank | none => contRec p v i
      let res := if i = 0 then q.fromReserve - q.extBlocks else (s.q slot).fromReserve
      let s1 := (t.2.modQ slot (fun _ => { place := .binned, qr := r, body0 := r.body, fromReserve := res, desc := q.desc, genN := q.genN, dord := q.dord, uid := t.1 })).quotaCheck p.ctx
      match whole with
      | some x => s1.endSlot slot x
      | none => match s1.bodyCheck r 0 0 with
        | some x => (s1.checkFault p.ctx p.stream x).completeEmpty slot x
        | none => (s1.insert slot 2).oInc 0x4300 1) s0

end Sys2Proof.Machine
end

