-- ==== Sys2Proof/Machine/Release.lean ====
section
/-! DEFINITION. The Pleater, part 2: release to Bobbins (R191 to R196), spill and reload (R199 to R203), configuration
(R204). -/

namespace Sys2Proof.Machine

/-- TRAIL of a query whose finishing walk is pending (R112). -/
def trailFinishing : Nat := 0x0FFFFFFFFFFFFFFF
/-- TDEPTH (R111). -/
def tdepth (trail : Nat) : Nat := fld trail 60 4

/-! ## Entries of a Bobbin (R17, R192, R194) -/

/-- CL0_RESERVE: in each Needle the highest-numbered entries are held for class 0 (R194; log 20). -/
def State.cl0Reserve (s : State) : Nat := s.o 0x2400 9
/-- Whether an entry can take a query. -/
def State.entFree (s : State) (b e : Nat) : Bool := (s.ent b e).slot.isNone && !(s.ent b e).retired
/-- Free entries of a Bobbin outside the reserve. -/
def State.freeEnts (s : State) (b : Nat) : Nat :=
  let lim := 512 - s.cl0Reserve
  16 * lim - (s.rs.filter (fun e => e.1 / 8192 == b && decide (e.1 % 512 < lim) && (e.2.slot.isSome || e.2.retired))).length
/-- Free entries of a Bobbin inside the reserve. -/
def State.freeHeld (s : State) (b : Nat) : Nat :=
  let lim := 512 - s.cl0Reserve
  16 * s.cl0Reserve - (s.rs.filter (fun e => e.1 / 8192 == b && decide (lim ≤ e.1 % 512) && (e.2.slot.isSome || e.2.retired))).length

/-- A free entry of Bobbin b, outside the reserve unless `held`: Needles in turn after the last one (R192). -/
def State.findEnt (s : State) (b : Nat) (held : Bool) : Option Nat :=
  let lim := 512 - s.cl0Reserve
  let lo := if held then lim else 0
  let n := if held then s.cl0Reserve else lim
  let inNeedle := fun nd => firstIdx n (fun i => s.entFree b (512 * nd + lo + i))
  (List.range 16).findSome? (fun i =>
    let nd := ((s.bobOf b).lastNeedle + 1 + i) % 16
    (inNeedle nd).map (fun j => 512 * nd + lo + j))

/-- The root item of a query: of its handle, or of the stub that a migrated query came from, at that stub's level (R107,
R188, R359). -/
def State.rootItem (s : State) (k : Nat) : Item :=
  let q := s.q k
  let r := match q.served with | some v => v.root | none => (s.hndOf q.qr.handle).root
  { ty := fld r 0 4, addr := r / 64 * 64, level := match q.served with | some v => v.baseLevel | none => 0 }

/-- The best register in remote form: what the remote-hit state holds (R117, R360, R362). -/
def RemoteHit.hit (r : RemoteHit) : Hit :=
  let inst := bytesAt r.attrs 0x0C 4
  let prim := bytesAt r.attrs 0x10 8
  { t := bytesAt r.attrs 0 4, ptype := fld inst 28 4, prim := fld prim 0 44, geom := fld prim 44 20,
    path := (List.range (fld inst 24 3)).map (fun i => fld (bytesAt r.attrs (0x20 + 4 * i) 4) 0 24),
    front := bit inst 27, u := bytesAt r.attrs 4 4, v := bytesAt r.attrs 8 4 }

/-- An XFORM that is the identity. -/
def idXform : Nat := 0x3F800000 + 0x3F800000 * 2 ^ 160 + 0x3F800000 * 2 ^ 320

/-- The spaces a migrated query starts in: the record holds the ray there, and the transforms above are not sent, so they are
free values (R357; log 29). -/
def servedSpaces (r : QRec) (v : Served) (draw : Nat → Nat) : List Space :=
  (List.range v.instPath.length).map (fun i =>
    let p := v.instPath.getD i (0, false)
    { level := i, inst := p.1, flip := p.2, opq := v.forceOpq,
      xf := (List.range 6).foldl (fun a j => a + draw (6 * i + j) * 2 ^ (64 * j)) 0,
      o := if r.kind = 8 then { x := draw (6 * i) % 2 ^ 32, y := draw (6 * i + 1) % 2 ^ 32, z := draw (6 * i + 2) % 2 ^ 32 } else r.vec3 0x10,
      d := r.vec3 0x20 })

/-- T_lo and T_hi of a finishing walk (R118, R357). -/
def Query.finLims (q : Query) : Nat × Nat :=
  match q.served with
  | some v => if v.closed then (v.tlo, q.qr.tmax) else go
  | none => go
where go : Nat × Nat :=
  if q.qr.kind = 1 then (q.qr.tmax, q.qr.tmax)
  else if q.qr.kind = 2 then (q.anyT, q.anyT)
  else ((q.list.head?.map (fun x => x.t)).getD 0, (q.list.getLast?.map (fun x => x.t)).getD 0)

/-- Loads the query of slot k into entry e of Bobbin b (R28, R109, R114). A trail of FINISHING waits for the finishing
walk (R118, R119), which a remote-form best register makes needless (R362). A MARK query is at its end. -/
def State.load (s : State) (k b e : Nat) : State :=
  let q := s.q k
  let best := if q.remoteHit.avalid then some q.remoteHit.hit else none
  let closed := match q.served with | some v => v.closed | none => false
  let fin := q.qr.trail == trailFinishing || closed || q.fin.isSome
  let phase := if q.qr.kind = 0 ∨ q.ended ∨ (fin ∧ best.isSome ∧ !closed) then 3 else if fin then 1 else 0
  let t := s.tick
  let root := s.rootItem k
  let sp := match q.served with | some v => servedSpaces q.qr v (s.openFn q.qr.ctx (s.openKey q.qr q.body0 q.desc q.genN 258)) | none => []
  let ent : Entry := { slot := some k, order := t.1, qr := q.qr, base := root.level, item := if phase = 0 then some root else none,
                       phase := phase, redescend := if phase = 0 then tdepth q.qr.trail else 0, best := best,
                       remoteForm := q.remoteHit.avalid, truncated := q.trunc, spaces := sp,
                       collected := if q.ended then q.fin.getD [] else [] }
  let s1 := ((t.2.modEnt b e (fun _ => ent)).modQ k (fun q => { q with place := .rayStore b e, moved := none, plain0 := false })).modBob b
    (fun v => { v with lastNeedle := e / 512, needleStop := setFld v.needleStop (e / 512) 1 0 })
  let s1 := if sp.isEmpty then s1 else { s1 with free := s1.free + 24 }
  let s2 := if q.qr.trail = 0 then s1 else s1.oInc (0x4200 + b) 8
  let s3 := s2.oInc 0x4300 3
  if q.qr.cls = 0 then
    let s4 := s3.oInc 0x4300 9
    if q.plain0 && decide (3200 < s.clkF - q.bell) then (s4.oInc 0x4300 0xB).raise 0x5400 0 (q.qr.ctx * 8 + q.qr.stream) else s4
  else s3

/-! ## Targets (R192, R376) -/

/-- Whether a leaf array is in service (R376, R394). -/
def State.arrayOk (s : State) (b : Nat) : Bool := s.inService b && !bit (s.o 0x7010 2) b
/-- A Bobbin that may be chosen for a release: in service, not power-gated, not being drained (R31, R192). -/
def State.mayTake (s : State) (b : Nat) : Bool :=
  let v := s.bobOf b
  s.inService b && v.clock != 2 && v.clock != 3 && !v.drain
/-- The partner of a Bobbin whose leaf array is withdrawn (R376). -/
def State.partner (s : State) (b : Nat) : Option Nat :=
  if s.arrayOk (b ^^^ 1) then some (b ^^^ 1) else firstIdx 48 (fun i => s.arrayOk i)

/-- What a query asks of its target: the partner of a Bobbin, or any leaf array in service (R376). -/
inductive Need where
  | any | array | from_ (b : Nat)
  deriving DecidableEq, Repr

/-- The need of a query. -/
def State.need (s : State) (k : Nat) : Need :=
  let q := s.q k
  match q.moved with
  | some b => .from_ b
  | none => if (s.hndOf q.qr.handle).metric then .array else .any

/-- Bobbins that may be targets for a need. -/
def State.targets (s : State) (n : Need) : List Nat :=
  match n with
  | .any => (List.range 48).filter s.mayTake
  | .array => (List.range 48).filter (fun b => s.mayTake b && s.arrayOk b)
  | .from_ b => match s.partner b with | some p => if s.mayTake p then [p] else [] | none => []

/-- The member of a list with the largest value, the first of equals. -/
def maxBy (f : Nat → Nat) (l : List Nat) : Option Nat :=
  l.foldl (fun a b => match a with | none => some b | some x => if f x < f b then some b else a) none

/-- The lowest-numbered gated Bobbin for a need, one that is waking among them (R192). -/
def State.gatedFor (s : State) (n : Need) : Option Nat :=
  let gated := fun b => (s.bobOf b).clock == 2 || (s.bobOf b).clock == 3
  match n with
  | .from_ b => (s.partner b).filter gated
  | .array => firstIdx 48 (fun b => s.arrayOk b && gated b)
  | .any => firstIdx 48 (fun b => s.inService b && gated b)

/-- The target of a batch of n (R192): LAST_BOB if it has the room, else the Bobbin with the most free entries. A gated
Bobbin is woken when no other has 16 free entries; the batch waits for it. -/
def State.target (s : State) (n : Need) (last : Option Nat) (want : Nat) : Option Nat :=
  let ts := s.targets n
  let aff := match n, last with
    | .from_ _, _ => none
    | _, some b => if ts.contains b && decide (want ≤ s.freeEnts b) then some b else none
    | _, none => none
  match aff with
  | some b => some b
  | none =>
    let gated := s.gatedFor n
    match maxBy s.freeEnts ts with
    | some b => if 16 ≤ s.freeEnts b then some b else (match gated with | some g => some g | none => if s.freeEnts b = 0 then none else some b)
    | none => gated

/-! ## Ripeness and release (R191 to R193) -/

/-- Whether the Pleater may release this query: its stream is not at RB_FULL (R391), its context not in abort. -/
def State.releasable (s : State) (k : Nat) : Bool :=
  let q := s.q k
  !(q.served.isNone && (s.st q.qr.ctx q.qr.stream).rbFull) && !(s.ctxOf q.qr.ctx).aborting

/-- Age of a query in its stream: larger is older (R264, R385). -/
def State.seniority (s : State) (k : Nat) : Nat :=
  let q := s.q k
  ((s.st q.qr.ctx q.qr.stream).next - q.desc).toNat

/-- Whether a query is the oldest of its grain stream not yet delivered (R385). -/
def State.grainOldest (s : State) (k : Nat) : Bool :=
  let q := s.q k
  q.served.isNone && s.grain q.qr.ctx && s.slot.all (fun e =>
    let p := e.2
    p.place == .none || p.place == .charged || p.served.isSome || p.qr.ctx != q.qr.ctx || p.qr.stream != q.qr.stream || e.1 == k ||
    decide (s.seniority e.1 < s.seniority k) || (p.desc == q.desc && decide (q.qr.grainPos q.genN < p.qr.grainPos p.genN)))

/-- Whether a bin is ripe by R191's first three conditions or by R385. -/
def State.binRipe (s : State) (e : Nat × Bin) : Bool :=
  let l := e.2.entries
  decide (s.o 0x2400 4 ≤ l.length) || e.2.ripe || decide (131072 ≤ e.1) ||
  (match l.head? with | some k => decide (s.o 0x2400 5 ≤ s.clkF - (s.q k).age) | none => false) || l.any s.grainOldest

/-- The oldest entry of a bin has reached RIPE_CYC: asserted by the sender (R191; log 1). -/
def State.ripen (s : State) (i : Nat) : State :=
  if (s.binOf i).entries.isEmpty ∨ 131072 ≤ i then s else s.modBin i (fun b => { b with ripe := true })

/-- The class served next among those with ripe bins (R193): the one that is owed the most release places (log 19). -/
def State.nextClass (s : State) (cs : List Nat) : Option Nat :=
  cs.foldl (fun (a : Option Nat) c => match a with
    | none => some c
    | some x => if s.tile.wCredit.getD (x - 1) 0 < s.tile.wCredit.getD (c - 1) 0 then some c else a) none

/-- Class c has taken n release places while the classes of `cs` had ripe bins: those of two or more share them by weight (R193). -/
def State.tookPlaces (s : State) (cs : List Nat) (c n : Nat) : State :=
  let w := fun c => s.o 0x2400 (5 + c)
  let all := cs.foldl (fun a c => a + w c) 0
  if cs.length < 2 then s
  else s.modTile (fun t => { t with wCredit := (List.range 3).map (fun i =>
    t.wCredit.getD i 0 + (if cs.contains (i + 1) then ((n * w (i + 1) * 2 ^ 32 / all : Nat) : Int) else 0) - (if i + 1 = c then ((n * 2 ^ 32 : Nat) : Int) else 0)) })

/-- Releases a batch of the given slots of bin i to Bobbin b (R191, R192). -/
def State.sendBatch (s : State) (i b : Nat) (ks : List Nat) : State :=
  let s1 := (s.unchunk ks).modBin i (fun x => { x with entries := x.entries.filter (fun k => !ks.contains k), lastBob := some b, ripe := false, waitBob := none })
  let s2 := ks.foldl (fun (s : State) k => match s.findEnt b false with
    | some e => s.load k b e
    | none => s.toBin k) s1
  s2.oInc 0x4300 4

/-- The awake Bobbins that may be targets for a need. -/
def State.awakeFor (s : State) (n : Need) : List Nat := (s.targets n).filter (fun b => s.awake b)

/-- The head of the class-0 queue (R194). -/
def State.cl0Head (s : State) : Option Nat := s.tile.cl0.find? (fun k => !(s.ctxOf (s.q k).qr.ctx).aborting)

/-- The awake Bobbin whose entry the head of the class-0 queue takes now: the one with the most free entries, else the one with the most
held ones, which is marked with true (R194). -/
def State.cl0Target (s : State) (n : Need) : Option (Nat × Bool) :=
  match (maxBy s.freeEnts (s.awakeFor n)).filter (fun b => s.freeEnts b != 0) with
  | some b => some (b, false)
  | none => ((maxBy s.freeHeld (s.awakeFor n)).filter (fun b => s.freeHeld b != 0)).map (fun b => (b, true))

/-- Class 0 goes ahead of classes 1 to 3 (R193, R207): its head can be loaded now. -/
def State.cl0First (s : State) : Bool := match s.cl0Head with | some k => (s.cl0Target (s.need k)).isSome | none => false

/-- Whether Bobbin b serves a need. -/
def State.serves (s : State) (n : Need) (b : Nat) : Bool :=
  match n with | .any => true | .array => s.arrayOk b | .from_ d => s.partner d == some b

/-- The Bobbin whose wake a bin's batch waits for, while it may still take the batch (R30). -/
def State.waitsFor (s : State) (x : Bin) : Option Nat := x.waitBob.filter (fun b => s.inService b && !(s.bobOf b).drain)

/-- The bins from which a release may be made (R191): the ripe ones; where no bin is ripe and an awake Bobbin has a free entry, all. A bin
whose batch waits for a Bobbin that is waking is none of them (R30). -/
def State.releaseBins (s : State) : List (Nat × Bin) :=
  let ripe := s.tile.bins.filter (fun e => !e.2.entries.isEmpty && s.binRipe e)
  let l := if !ripe.isEmpty then ripe else if (s.awakeFor .any).any (fun b => s.freeEnts b != 0) then s.tile.bins else []
  l.filter (fun e => e.2.entries.any s.releasable && (match s.waitsFor e.2 with | some b => decide ((s.bobOf b).clock < 3) | none => true))

/-- One release (R191 to R193): the ripe bin with the oldest entry of the class whose turn it is; where no bin is ripe,
the oldest of all; of bins whose oldest entries have one AGE, the one of the lower set and way, then mixed, then escape (log 103). Class 0 goes first. A target that has to wake keeps the batch waiting, and the batch goes to no other (R30). A query that needs a leaf array when none is
in service completes with UNRECOVERED (R376). -/
def State.release (s : State) : State :=
  if !s.run || !s.ncOn || s.cl0First then s
  else
    let cand := s.releaseBins
    let cls := ([1, 2, 3] : List Nat).filter (fun c => cand.any (fun e => e.2.cls == c))
    match s.nextClass cls with
    | none => s
    | some c =>
      let ageOf := fun (e : Nat × Bin) => ((e.2.entries.filter s.releasable).map (fun k => (s.q k).age)).headD 0
      match (cand.filter (fun e => e.2.cls == c)).foldl (fun (a : Option (Nat × Bin)) e => match a with
          | none => some e
          | some x => if ageOf e < ageOf x then some e else a) none with
      | none => s
      | some (i, bin) =>
        let l := bin.entries.filter s.releasable
        let need := s.need (l.headD 0)
        let run := (l.takeWhile (fun k => s.need k == need)).take (s.o 0x2400 4)
        let noArray := need != .any && (firstIdx 48 (fun b => s.arrayOk b)).isNone
        if noArray then
          let k := l.headD 0
          ((s.unchunk [k]).modBin i (fun x => { x with entries := x.entries.filter (fun j => j != k) })).endSlot k stUnrecovered
        else
          let tgt := match (s.waitsFor bin).filter (s.serves need) with | some b => some b | none => s.target need bin.lastBob run.length
          match tgt with
          | none => s
          | some b =>
            if (s.bobOf b).clock = 0 then
              let ks := run.take (s.freeEnts b)
              if ks.isEmpty then s else (s.sendBatch i b ks).tookPlaces cls c ks.length
            else (s.wakeBob b).modBin i (fun x => { x with waitBob := some b })

/-- Serves the head of the class-0 queue (R194): into an entry of an awake Bobbin; a Bobbin is woken for it only where none is awake
(log 104). Answers false when no entry is free and a victim is needed (R196). -/
def State.cl0Load (s : State) : State × Bool :=
  match s.cl0Head with
  | none => (s, true)
  | some k =>
    if !s.run || !s.ncOn then (s, true)
    else
      let need := s.need k
      let pop := fun (s : State) => s.modTile (fun t => { t with cl0 := t.cl0.filter (fun j => j != k) })
      if need != .any && (firstIdx 48 (fun b => s.arrayOk b)).isNone then
        ((pop s).endSlot k stUnrecovered, true)
      else
        match s.cl0Target need with
        | some (b, held) => (match s.findEnt b held with
          | some e => ((pop s).load k b e, true)
          | none => (s, false))
        | none =>
          if !(s.awakeFor need).isEmpty then (s, false)
          else match (s.targets need).head? with
            | some b => (s.wakeBob b, true)
            | none => (match s.gatedFor need with | some b => (s.wakeBob b, true) | none => (s, false))

/-! ## Spill and reload (R199 to R203) -/

/-- The address of place n of the ring in a spill window (R201), and the place that the next entry takes: the first free one (R199). -/
def State.spillAddr (s : State) (c n : Nat) : Nat := s.co c 0xD + 16 * (n % s.spillCap c)
def State.spillPlace (s : State) (c : Nat) : Nat :=
  let cap := s.spillCap c
  let x := s.ctxOf c
  (x.spillTail + (firstIdx cap (fun i => !x.spill.any (fun k => (s.q k).spillAt == (x.spillTail + i) % cap))).getD 0) % cap
/-- The 16 bytes of an entry (R184). -/
def State.entryBytes (s : State) (k : Nat) : Nat :=
  let q := s.q k
  k % 2 ^ 24 + q.qr.ctx % 64 * 2 ^ 24 + q.qr.cls % 4 * 2 ^ 30 + q.key % 2 ^ 24 * 2 ^ 32 + q.scheme % 8 * 2 ^ 56 + q.age % 2 ^ 64 * 2 ^ 64

/-- Whether an entry of this context can be spilled now. -/
def State.spillRoom (s : State) (c : Nat) : Bool :=
  let x := s.ctxOf c
  decide (x.spill.length < s.spillCap c) && !x.spillFailed && !x.aborting

/-- A context's window has room again: SPILL_FULL clears (R202, R432). -/
def State.spillClear (s : State) (c : Nat) (wasFull : Bool) : State :=
  if wasFull && (List.range 64).all (fun d => s.spillCap d == 0 || d == c || decide ((s.ctxOf d).spill.length < s.spillCap d)) then
    s.oSet 0x5400 1 (setFld (s.o 0x5400 1) 1 1 0)
  else s

/-- A spill or a reload failed (R203): no more spilling, the window's contents are discarded, and every spilled query goes to its escape
bin keyed with ROOT; one that is to end does so. -/
def State.spillFault (s : State) (c : Nat) : State :=
  let x := s.ctxOf c
  let s1 := ((s.modCtx c (fun x => { x with spillFailed := true, spill := [], spillTail := 0, reloading := false })).spillClear c (x.spill.length == s.spillCap c)).raise 0x5400 2 c
  x.spill.foldl (fun (s : State) k => match (s.q k).kill with
    | some st => if st = stUnrecovered then (s.modQ k (fun q => { q with kill := none })).modTile (fun t => { t with lossWait := t.lossWait ++ [k] })
                 else s.endSlot k st
    | none => (s.modQ k (fun q => { q with nextItem := 0, key := (s.modQ k (fun q => { q with nextItem := 0 })).keyOf k q.scheme none })).toEscape k) s1

/-- Contexts whose spill window holds a line. -/
def State.spillOn (s : State) (port line : Nat) : List Nat :=
  (List.range 64).filter (fun c => !(s.ctxOf c).spill.isEmpty && (List.range 64).any (fun w =>
    let va := s.win c w 0 + line * 256 - s.win c w 1
    fld (s.win c w 2) 8 5 == port && decide (s.win c w 1 ≤ line * 256) && s.winCovers c w va &&
    decide (s.co c 0xD < va + 256) && decide (va < s.co c 0xD + s.co c 0xE)))

/-- Writes one entry to its context's spill window (R199). -/
def State.spillOne (s : State) (k : Nat) : State :=
  let q := s.q k
  let c := q.qr.ctx
  let n := s.spillPlace c
  let a := s.spillAddr c n
  let data := s.entryBytes k * 2 ^ (8 * (a % 64))
  let mask := 0xFFFF * 2 ^ (a % 64)
  let s1 := (((s.unbin k).modQ k (fun q => { q with place := .spilled, spillAt := n })).modCtx c (fun x => { x with spill := x.spill ++ [k], spillTail := n + 1 })).oInc 0x4300 5
  let s2 := if (s1.ctxOf c).spill.length = s.spillCap c then s1.raise 0x5400 1 c else s1
  match s2.reach c a .rw with
  | none => (s2.windowFault c noWhat).spillFault c
  | some t => if t.cache && s2.lcOn then s2.lcPiece { port := t.port, pa := t.pa / 64 * 64, ctx := c, data := data, mask := mask } else s2.writeOut c a data mask false (.spillWr c k q.uid) noWhat

/-- Where the entries that a spill takes from k on fill a whole line of their window, the line needs no fetch (R313; log 110). -/
def State.spillWhole (s : State) (l : List Nat) (k : Nat) : State :=
  let c := (s.q k).qr.ctx
  let n := s.spillPlace c
  let a := s.spillAddr c n
  let rest := (l.dropWhile (fun j => j != k)).filter (fun j => (s.q j).qr.ctx == c)
  let x := s.ctxOf c
  if a % 256 = 0 ∧ n % s.spillCap c + 16 ≤ s.spillCap c ∧ 16 ≤ rest.length ∧ x.spill.length + 16 ≤ s.spillCap c ∧
      (List.range 16).all (fun i => !x.spill.any (fun j => (s.q j).spillAt == (n + i) % s.spillCap c)) then
    match s.reach c a .rw with
    | some t => if t.cache && s.lcOn && s.lcReady t.port (t.pa / 256) then s.lcWholeLine t.port (t.pa / 256) else s
    | none => s
  else s

/-- One bin gives up its oldest half of chunks to the spill windows (R199, R207): the bin with the most chunks, at least
two. -/
def State.spill (s : State) : State :=
  let on := s.occAtLeast (s.o 0x2400 0xB) || (s.tile.spilling && decide (s.o 0x2400 0xC * s.chunks < s.chunksUsed * 256))
  if !s.run || !on then s.modTile (fun t => { t with spilling := false })
  else
    let old := fun (b : Bin) => (b.entries.take (b.chunks / 2 * 128)).filter (fun k => s.spillRoom (s.q k).qr.ctx)
    let bins := s.tile.bins.filter (fun e => e.1 < 131072 && decide (2 ≤ e.2.chunks) && !(old e.2).isEmpty)
    match bins.foldl (fun (a : Option (Nat × Bin)) e => match a with
        | none => some e
        | some x => if x.2.chunks < e.2.chunks then some e else a) none with
    | none => s.modTile (fun t => { t with spilling := false })
    | some (_, b) =>
      (old b).foldl (fun (s : State) k => if s.spillRoom (s.q k).qr.ctx then (s.spillWhole (old b) k).spillOne k else s)
        (s.modTile (fun t => { t with spilling := true }))

/-- Whether a context has spilled queries that are to complete, which are read back first (R207). -/
def State.spillUrgent (s : State) (c : Nat) : Bool :=
  let x := s.ctxOf c
  x.spill.any (fun k => (s.q k).kill.isSome) || (x.aborting && !x.spill.isEmpty)

/-- Reads an entry back: first, whatever the occupancy, those of queries that are to end (R207), else the oldest of the first context
whose window holds entries, one after the other (R200). -/
def State.reload (s : State) : State :=
  let busy := fun c => (s.ctxOf c).reloading
  let ends := fun c k => (s.q k).kill.isSome || (s.ctxOf c).aborting
  match firstIdx 64 (fun c => !busy c && s.spillUrgent c), firstIdx 64 (fun c => !(s.ctxOf c).spill.isEmpty) with
  | some c, _ => go c (((s.ctxOf c).spill.find? (ends c)).getD 0)
  | none, some c => if s.run ∧ !busy c ∧ !s.occAtLeast (s.o 0x2400 0xD) then go c ((s.ctxOf c).spill.headD 0) else s
  | none, none => s
where go (c k : Nat) : State :=
  (s.modCtx c (fun x => { x with reloading := true })).startJob (.spillRd c k (s.q k).uid) c (s.spillAddr c (s.q k).spillAt) 16 .rw noWhat

/-- A spilled entry has been read back (R200): placed by the AGE and key read; one whose bin has no room stays spilled (R198). A query marked
to end is handed to `fin`. -/
def State.reloaded (s : State) (c k uid : Nat) (j : Job) : State × Option (Nat × Nat) :=
  let x := s.ctxOf c
  let q := s.q k
  if q.uid ≠ uid ∨ q.place ≠ .spilled ∨ !x.spill.contains k then (s.modCtx c (fun x => { x with reloading := false }), none)
  else if j.err ≠ 0 then ((s.modCtx c (fun x => { x with reloading := false })).spillFault c, none)
  else
    let full := x.spill.length == s.spillCap c
    let v := j.data / 256 ^ (j.addr % 64)
    if q.kill = none ∧ !s.binRoom (s.binFor q.qr.cls (fld v 32 24)) then (s.modCtx c (fun x => { x with reloading := false }), none)
    else
    let s1 := ((s.modCtx c (fun x => { x with reloading := false, spill := x.spill.filter (fun j => j != k) })).oInc 0x4300 6).spillClear c full
    let s2 := s1.modQ k (fun q => { q with key := fld v 32 24, scheme := fld v 56 3, age := bytesAt v 8 8, place := .binned })
    match q.kill with
    | some st => (s2, some (k, st))
    | none => (s2.toBin k, none)

/-! ## Configuration (R204) -/

/-- Whether a value may be written to 0x2400:sub. -/
def State.pltOk (s : State) (sub v : Nat) : Bool :=
  let g := fun i => if i = sub then v else s.o 0x2400 i
  match sub with
  | 1 => decide (v < 2)
  | 2 => decide (v < 6) && bit (s.o 0x2400 3) v
  | 3 => decide (v < 64) && bit v (s.o 0x2400 2)
  | 4 => decide (16 ≤ v) && decide (v ≤ 256)
  | 5 => decide (64 ≤ v)
  | 6 => decide (1 ≤ v)
  | 7 => decide (1 ≤ v)
  | 8 => decide (1 ≤ v)
  | 9 => decide (v ≤ 16)
  | 0xA => true
  | _ => decide (g 0xD < g 0xC) && decide (g 0xC < g 0xB)

/-- PLT_STATUS of a context (R201). -/
def State.pltStatus (s : State) (c : Nat) : Nat :=
  let x := s.ctxOf c
  b2n (s.spillCap c != 0 && decide (s.spillCap c ≤ x.spill.length)) + 2 * b2n x.spillFailed + 4 * b2n x.reloading +
  8 * b2n (s.spillStop c || s.roomStop c || (List.range 8).any (fun st => (s.st c st).rbFull || (s.ringPost c st && (x.postStop || x.readyStop))))

end Sys2Proof.Machine
end

