-- ==== Sys2Proof/Machine/Hem0.lean ====
section
/-! DEFINITION. The Hem, part 1: the wait for pages (R249), the release of records from a query that goes on or ends
(R59, R359), and the trace area (R60, R172). -/

namespace Sys2Proof.Machine

/-! ## Pages (R249) -/

/-- A release finds no room: admission of the stream stops and RB_FULL is raised (R249). -/
def State.rbStop (s : State) (c st : Nat) : State :=
  if (s.st c st).rbFull then s else (s.modSt c st (fun x => { x with rbFull := true, rbMark := s.pageLoad c st })).raise (0x5900 + c) 3 st

/-- A stream at RB_FULL waits until pages are freed: fewer are in use than before, or a query that waited has found its own
(R249). Pages taken meanwhile raise the mark. -/
def State.rbWait (s : State) (c st load : Nat) (found : Bool) : State :=
  let x := s.st c st
  if !x.rbFull then s
  else if found || decide (load < x.rbMark) then s.modSt c st (fun y => { y with rbFull := false, rbMark := 0 })
  else if x.rbMark < load then s.modSt c st (fun y => { y with rbMark := load })
  else s

/-- The queries that wait with the Hem take pages in order, and the wait of a stream ends when pages are freed (R249). -/
def State.pageIn (s : State) (c st : Nat) : State :=
  let x := s.st c st
  let r := x.hem.foldl (fun (acc : State × Bool) i =>
    if i.paged then acc
    else if acc.2 then acc
    else if acc.1.rbRoom c st (recsSize i.recs) then
      (acc.1.modSt c st (fun y => { y with hem := y.hem.map (fun j => if j = i then { j with paged := true } else j) }), false)
    else (acc.1, true)) (s, false)
  if r.2 then r.1.rbStop c st
  else r.1.rbWait c st (if x.rbFull then s.pageLoad c st else 0) (x.hem.any (fun i => !i.paged))

/-! ## Trace records (R60, R172) -/

/-- A trace record as it is first written. -/
def Sample.bytes (x : Sample) (seq : Word) (leaf : Nat) : Nat :=
  seq.toNat + x.t * 2 ^ 32 + x.sample % 65536 * 2 ^ 64 + x.nout % 256 * 2 ^ 80 + leaf % 2 ^ 32 * 2 ^ 96 + x.outs % 2 ^ 128 * 2 ^ 128

/-- One more trace record is in the area; a hit's record is remembered (R172). -/
def Query.traced (q : Query) (n : Nat) (key : Option Hit) : Query :=
  { q with traceWritten := n + 1, trcHits := (match key with | some h => q.trcHits ++ [(h, n)] | none => q.trcHits) }

/-- The Hem takes the trace records of one release: LEAFORD counts leaves from the query's own count on (R172). -/
def State.traceOut (s : State) (k : Nat) (l : List Sample) : State :=
  match l.getLast? with
  | none => s
  | some z =>
    let q := s.q k
    let lf := q.leafOrd
    let s1 := l.foldl (fun (s : State) x =>
      let n := (s.q k).traceWritten
      if n < q.traceCap then
        ((s.traceWrite k (32 * n) 32 (x.bytes q.qr.seq (lf + x.leaf))).modQ k (fun q => q.traced n x.key)).oInc 0x4310 8
      else s) s
    s1.modQ k (fun q => { q with leafOrd := lf + z.leaf + 1 })

/-! ## Records for a migration's origin (R359, R360) -/

/-- The 32-byte form of a record in a RECS frame (R250, R360). -/
def Rec.wide : Rec → Nat
  | .hit b => b
  | .nbr b => b + 0x80 * 2 ^ (8 * 0x1D)
  | .trc b => b
/-- RKIND of a record. -/
def Rec.kind : Rec → Nat | .hit _ => 0 | .nbr _ => 1 | .trc _ => 2

/-- Cuts a list into runs of at most 128 records of one kind. -/
def recRuns : (fuel : Nat) → List Rec → List (List Rec)
  | 0, _ => []
  | _, [] => []
  | f + 1, r :: t =>
    let run := (r :: t).takeWhile (fun x => x.kind == r.kind)
    (run.take 128) :: recRuns f ((r :: t).drop (min 128 run.length))

/-- Sends records of a served query in RECS frames (R359). -/
def State.sendRecs (s : State) (k : Nat) (l : List Rec) : State :=
  let q := s.q k
  match q.served with
  | none => s
  | some v =>
    let s1 := (recRuns (l.length + 1) l).foldl (fun (s : State) run =>
      let p := (List.range run.length).foldl (fun a i => a + (run.getD i (.trc 0)).wide * 2 ^ (256 * i)) 0
      s.answer v 3 (run.length + ((run.headD (.trc 0)).kind) * 2 ^ 16) 0 (32 * run.length) p q.qr.handle) s
    s1.modQ k (fun q => { q with served := some { v with sent := v.sent + l.length } })

/-! ## Release (R59) -/

/-- Result records that a Bobbin releases when it writes a query back: to the Hem, or to the origin tile. EMITTED counts
them (R53). -/
def State.releaseOut (s : State) (k : Nat) (recs : List Rec) (samples : List Sample) : State :=
  let q := s.q k
  let n := recs.length
  let s0 := if isStreamed q.qr.kind then s.modQ k (fun q => { q with qr := { q.qr with w38 := setFld q.qr.w38 32 32 (q.qr.w38 / 2 ^ 32 + n) } }) else s
  match q.served with
  | some _ =>
    let lf := q.leafOrd
    let tr := samples.map (fun x => Rec.trc (x.bytes q.qr.seq (lf + x.leaf)))
    let s1 := s0.sendRecs k (recs ++ tr)
    match samples.getLast? with
    | some z => s1.modQ k (fun q => { q with leafOrd := lf + z.leaf + 1, traceWritten := q.traceWritten + samples.length })
    | none => s1
  | none => (s0.releaseRecs k recs).traceOut k samples

end Sys2Proof.Machine
end

