-- ==== Sys2Proof/Machine/Geom.lean ====
section
/-! DEFINITION. The geometry of Traversal and intersection: the slab format and test (R76, R122), triangles (R124, R125),
exact quadratic roots with their rounding (R128, R129), round cones (R128), splats (R130) and opacity weights (R89). -/

namespace Sys2Proof.Machine

/-- Component a of a vector. -/
def Vec3.get (v : Vec3) (a : Nat) : Nat := if a = 0 then v.x else if a = 1 then v.y else v.z

/-! ## Extended numbers -/

/-- A real number with infinities. -/
inductive Ext where
  | ninf | fin (d : Dy) | pinf
  deriving DecidableEq, Repr, Inhabited

def Ext.lt : Ext → Ext → Bool
  | .ninf, .ninf => false
  | .ninf, _ => true
  | .fin _, .ninf => false
  | .fin a, .fin b => a.lt b
  | .fin _, .pinf => true
  | .pinf, _ => false
def Ext.le (a b : Ext) : Bool := !b.lt a
def Ext.max (a b : Ext) : Ext := if a.lt b then b else a
def Ext.min (a b : Ext) : Ext := if b.lt a then b else a

/-- An FP32 pattern that is no NaN. -/
def fExt (x : Nat) : Ext := if fInf x then (if fNeg x then .ninf else .pinf) else .fin (fVal x)

/-! ## The slab format (R122) -/

/-- Rounds outward in the slab format: down (toward −∞) or up; results below the smallest normal go outward to zero or to
the smallest normal. -/
def slab (dn : Bool) (x : Ext) : Ext :=
  match x with
  | .ninf => .ninf
  | .pinf => .pinf
  | .fin d =>
    let p := slabFmt.round (if dn then .down else .up) false d
    if slabFmt.isInf p then (if slabFmt.isNeg p then .ninf else .pinf)
    else if slabFmt.exp p = 0 ∧ slabFmt.man p ≠ 0 then
      (if slabFmt.isNeg p then (if dn then .fin { m := -1, e := -126 } else .fin Dy.zero)
       else (if dn then .fin Dy.zero else .fin { m := 1, e := -126 }))
    else .fin (slabFmt.val p)

/-- TKEY of an entry value (R108): sign, exponent and top three mantissa bits of the slab value, toward −∞. -/
def tkeyOf (x : Ext) : Nat :=
  match x with
  | .ninf => 0xFF8
  | .pinf => 0x7F8
  | .fin d =>
    let p := slabFmt.round .down false d
    let mag := p % 2 ^ 23
    if slabFmt.isNeg p then 0x800 + (mag + 4095) / 4096 else mag / 4096
/-- value(TKEY). -/
def tkeyVal (k : Nat) : Ext :=
  let p := fld k 11 1 * 2 ^ 23 + fld k 0 11 * 4096
  if slabFmt.exp p = 255 then (if slabFmt.isNeg p then .ninf else .pinf) else .fin (slabFmt.val p)

/-- A decoded bound (R76): ORIGIN + n × 2^(E − 127), rounded outward. -/
def bound (dn : Bool) (origin exp n : Nat) : Ext := slab dn (.fin ((fVal origin).add { m := n, e := (exp : Int) - 127 }))

/-- The quotient (p − o) / d rounded outward; d is finite and not zero. -/
def slabQuot (dn : Bool) (p : Ext) (o d : Dy) : Ext :=
  let neg := decide (d.m < 0)
  match p with
  | .ninf => if neg then .pinf else .ninf
  | .pinf => if neg then .ninf else .pinf
  | .fin x => let n := x.sub o
    if n.m = 0 then .fin Dy.zero else slab dn (.fin (n.quot d))

/-- A box as three pairs of bounds. -/
structure Box where
  lo : List Ext
  hi : List Ext
  deriving DecidableEq, Repr, Inhabited

/-- The slab test (R122): the entry value of a surviving child. -/
def slabTest (b : Box) (o d : Vec3) (limLo limHi : Ext) : Option Ext :=
  let axis := fun a => (b.lo.getD a .ninf, b.hi.getD a .pinf, fVal (o.get a), fVal (d.get a))
  let near := fun a =>
    let (l, h, oa, da) := axis a
    if da.m = 0 then (if l.le (.fin oa) && (Ext.fin oa).le h then some (Ext.ninf, Ext.pinf) else none)
    else
      let pq := if 0 < da.m then (l, h) else (h, l)
      some (slabQuot true pq.1 oa da, slabQuot false pq.2 oa da)
  match near 0, near 1, near 2 with
  | some x, some y, some z =>
    let entry := ((x.1.max y.1).max z.1).max (slab true limLo)
    let exit := ((x.2.min y.2).min z.2).min (slab false limHi)
    if entry.le exit then some entry else none
  | _, _, _ => none

/-! ## Intervals (R115, R117, R129) -/

/-- An interval of t: the lower limit, whether it is closed there, the upper limit, whether it is closed there. -/
structure Ival where
  lo : Nat
  loC : Bool
  hi : Nat
  hiC : Bool
  deriving DecidableEq, Repr, Inhabited

/-- Whether an FP32 value lies in the interval. -/
def Ival.has (i : Ival) (t : Nat) : Bool :=
  (if i.loC then fLe i.lo t else fLt i.lo t) && (if i.hiC then fLe t i.hi else fLt t i.hi)

/-! ## Triangles (R124, R125) -/

/-- What a triangle test gives: t, U, V and FRONT. -/
structure TriHit where
  t : Nat
  u : Nat
  v : Nat
  front : Bool
  deriving DecidableEq, Repr, Inhabited

/-- The sign of an exact number. -/
def Dy.sgn (d : Dy) : Int := if d.m < 0 then -1 else if d.m = 0 then 0 else 1

/-- exact(p·q − r·s): the rounded value and the exact sign (log 26). Operands that overflowed give a NaN. -/
def exactDet (p q r s : Nat) : Nat × Int :=
  if fFin p && fFin q && fFin r && fFin s then
    let d := ((fVal p).mul (fVal q)).sub ((fVal r).mul (fVal s))
    (f32 d, d.sgn)
  else (qNan, 0)

/-- Whether an edge from (ax, ay) to (bx, by) is owned under sign s (R125). -/
def ownedEdge (s : Int) (ax ay bx by' : Nat) : Bool :=
  let dx := if 0 < s then (fVal bx).sub (fVal ax) else (fVal ax).sub (fVal bx)
  let dy := if 0 < s then (fVal by').sub (fVal ay) else (fVal ay).sub (fVal by')
  decide (dy.m < 0) || (dy.m == 0 && decide (0 < dx.m))

/-- The triangle test of R124. -/
def triTest (o d i0 i1 i2 : Vec3) : Option TriHit :=
  let mag := fun a => d.get a % 2 ^ 31
  let kz := if mag 1 ≤ mag 2 ∧ mag 0 ≤ mag 2 then 2 else if mag 0 ≤ mag 1 then 1 else 0
  let kx0 := (kz + 1) % 3
  let ky0 := (kx0 + 1) % 3
  let neg := fNeg (d.get kz)
  let kx := if neg then ky0 else kx0
  let ky := if neg then kx0 else ky0
  let sx := fDiv (d.get kx) (d.get kz)
  let sy := fDiv (d.get ky) (d.get kz)
  let sz := fDiv 0x3F800000 (d.get kz)
  let shear := fun (v : Vec3) =>
    let q := fun a => fSub (v.get a) (o.get a)
    (fSub (q kx) (fMul sx (q kz)), fSub (q ky) (fMul sy (q kz)), fMul sz (q kz))
  let (ax, ay, az) := shear i0
  let (bx, by', bz) := shear i1
  let (cx, cy, cz) := shear i2
  if !([ax, ay, bx, by', cx, cy].all fFin) then none
  else
    let e0 := exactDet bx cy by' cx
    let e1 := exactDet cx ay cy ax
    let e2 := exactDet ax by' ay bx
    let ss := ([e0.2, e1.2, e2.2]).filter (fun x => x != 0)
    match ss with
    | [] => none
    | s :: r =>
      if r.any (fun x => x != s) then none
      else if (e0.2 = 0 ∧ !ownedEdge s bx by' cx cy) ∨ (e1.2 = 0 ∧ !ownedEdge s cx cy ax ay) ∨ (e2.2 = 0 ∧ !ownedEdge s ax ay bx by') then none
      else
        let det := fAdd (fAdd e0.1 e1.1) e2.1
        let tt := fAdd (fAdd (fMul e0.1 az) (fMul e1.1 bz)) (fMul e2.1 cz)
        let t := fDiv tt det
        let u := fDiv e1.1 det
        let v := fDiv e2.1 det
        if fNan det || fNan t || fNan u || fNan v || fInf t then none else some { t := t, u := u, v := v, front := decide (s < 0) }

/-! ## Exact roots -/

/-- The number (x + y √r) / a with a > 0 and r ≥ 0. -/
structure Surd where
  x : Dy
  y : Dy
  r : Dy
  a : Dy
  deriving DecidableEq, Repr, Inhabited

/-- The sign of x + y √r. -/
def surdSign (x y r : Dy) : Int :=
  let ys := if r.m = 0 then 0 else y.sgn
  let xs := x.sgn
  if ys = 0 then xs
  else if xs = 0 ∨ xs = ys then ys
  else
    let c := (x.mul x).cmp ((y.mul y).mul r)
    if c = 0 then 0 else if 0 < c then xs else ys

/-- The sign of t − μ. -/
def Surd.cmp (t : Surd) (mu : Dy) : Int := surdSign (t.x.sub (t.a.mul mu)) t.y t.r
/-- The sign of p + q t. -/
def Surd.lin (t : Surd) (p q : Dy) : Int := surdSign ((p.mul t.a).add (q.mul t.x)) (q.mul t.y) t.r
/-- (p + q t) / d with d > 0. -/
def Surd.affine (t : Surd) (p q d : Dy) : Surd :=
  { x := (p.mul t.a).add (q.mul t.x), y := q.mul t.y, r := t.r, a := t.a.mul d }

/-- The value of a signed FP32 index: patterns in ascending order, 0 at zero, 0x7F800000 at 2^128. -/
def idxVal (i : Int) : Dy :=
  let n : Nat := i.natAbs
  let e : Nat := n / 2 ^ 23
  let m : Nat := n % 2 ^ 23
  let mag : Nat := if e = 0 then m else m + 2 ^ 23
  { m := if i < 0 then -(mag : Int) else mag, e := (if e = 0 then 1 else (e : Int)) - 150 }
/-- The pattern of an index; out of range is an infinity. -/
def idxPat (i : Int) : Nat := (if i < 0 then 2 ^ 31 else 0) + min i.natAbs 0x7F800000

/-- The largest index whose value is at most t, between lo (at most t) and hi (above t). -/
def Surd.search (t : Surd) : (fuel : Nat) → (lo hi : Int) → Int
  | 0, lo, _ => lo
  | f + 1, lo, hi =>
    if hi - lo ≤ 1 then lo
    else
      let mid := (lo + hi) / 2
      if t.cmp (idxVal mid) < 0 then t.search f lo mid else t.search f mid hi

/-- Rounds to FP32, nearest-even. -/
def Surd.round (t : Surd) : Nat :=
  let top : Int := 0x7F800000
  if 0 ≤ t.cmp (idxVal top) then 0x7F800000
  else if t.cmp (idxVal (-top)) < 0 then 0xFF800000
  else
    let i := t.search 40 (-top) top
    let mid := ((idxVal i).add (idxVal (i + 1))).scale (-1)
    let c := t.cmp mid
    idxPat (if c < 0 then i else if 0 < c then i + 1 else if i % 2 = 0 then i else i + 1)

/-- The roots of a t² + 2 b t + c with a > 0, smaller first; none without a real root. -/
def quadRoots (a b c : Dy) : Option (Surd × Surd) :=
  let r := (b.mul b).sub (a.mul c)
  if r.m < 0 then none
  else some ({ x := b.neg, y := Dy.ofInt (-1), r := r, a := a }, { x := b.neg, y := Dy.ofInt 1, r := r, a := a })

/-! ## Exact vectors -/

/-- An exact vector. -/
structure DVec where
  x : Dy
  y : Dy
  z : Dy
  deriving DecidableEq, Repr, Inhabited

def DVec.ofF (v : Vec3) : DVec := { x := fVal v.x, y := fVal v.y, z := fVal v.z }
def DVec.sub (a b : DVec) : DVec := { x := a.x.sub b.x, y := a.y.sub b.y, z := a.z.sub b.z }
def DVec.dot (a b : DVec) : Dy := ((a.x.mul b.x).add (a.y.mul b.y)).add (a.z.mul b.z)

/-! ## Spheres and round cones (R128, R129) -/

/-- What a curve, sphere or splat test gives. -/
structure ShapeHit where
  t : Nat
  u : Nat
  front : Bool
  deriving DecidableEq, Repr, Inhabited

/-- The sphere test (R129). -/
def sphereTest (o d c : Vec3) (rad : Nat) (iv : Ival) : Option ShapeHit :=
  let dd := DVec.ofF d
  let m := (DVec.ofF o).sub (DVec.ofF c)
  let r := fVal rad
  match quadRoots (dd.dot dd) (dd.dot m) ((m.dot m).sub (r.mul r)) with
  | none => none
  | some (t1, t2) =>
    let a := t1.round
    if iv.has a then some { t := a, u := 0, front := true }
    else if t1.r.m = 0 then none
    else
      let b := t2.round
      if iv.has b then some { t := b, u := 0, front := false } else none

/-- Where a ray meets a convex round cone: the entering and leaving roots with their axis parameters as surds. -/
structure ConeSpan where
  t1 : Surd
  s1 : Surd
  t2 : Surd
  s2 : Surd
  deriving DecidableEq, Repr, Inhabited

/-- A constant as a surd. -/
def Surd.const (d : Dy) : Surd := { x := d, y := Dy.zero, r := Dy.zero, a := Dy.ofInt 1 }

/-- Compares two surds: the sign of s − t. Both are brought over one denominator; the sign of
A + B √p + C √q follows by squaring twice. -/
def Surd.cmpS (s t : Surd) : Int :=
  let xa := (s.x.mul t.a).sub (t.x.mul s.a)
  let yb := s.y.mul t.a
  let yc := (t.y.mul s.a).neg
  let sp := surdSign xa yb s.r            -- sign of A + B√p
  let sq := if t.r.m = 0 then 0 else yc.sgn
  if sq = 0 then sp
  else if sp = 0 ∨ sp = sq then sq
  else
    -- (A + B√p)² against C² q
    let x2 := (((xa.mul xa).add ((yb.mul yb).mul s.r))).sub ((yc.mul yc).mul t.r)
    let y2 := (xa.mul yb).scale 1
    let c := surdSign x2 y2 s.r
    if c = 0 then 0 else if 0 < c then sp else sq

/-- The span of a ray in the convex hull of two spheres (R128): each of the two end spheres and the tangent cone gives
roots; those on the hull's boundary bound the span. DESIGN CHOICE: where one sphere holds the other, σ is that of the larger, and 0 for two equal ones
(log 114). -/
def coneSpan (o d : DVec) (c0 c1 : DVec) (r0 r1 : Dy) : Option ConeSpan :=
  let v := c1.sub c0
  let dr := r1.sub r0
  let A := (v.dot v).sub (dr.mul dr)
  let dd := d.dot d
  let m := o.sub c0
  let sphere := fun (c : DVec) (r : Dy) => let w := o.sub c
    quadRoots dd (d.dot w) ((w.dot w).sub (r.mul r))
  if A.m ≤ 0 then
    let big0 := r1.le r0
    (sphere (if big0 then c0 else c1) (if big0 then r0 else r1)).map (fun p =>
      let s := Surd.const (if big0 then Dy.zero else Dy.ofInt 1)
      { t1 := p.1, s1 := s, t2 := p.2, s2 := s })
  else
    -- σ*(t) = (P + Q t) / A
    let P := (m.dot v).add (r0.mul dr)
    let Q := d.dot v
    let low := fun (t : Surd) => decide (t.lin P Q ≤ 0)
    let high := fun (t : Surd) => decide (0 ≤ t.lin (P.sub A) Q)
    let cand0 := match sphere c0 r0 with | some p => ([p.1, p.2].filter low).map (fun t => (t, Surd.const Dy.zero)) | none => []
    let cand1 := match sphere c1 r1 with | some p => ([p.1, p.2].filter high).map (fun t => (t, Surd.const (Dy.ofInt 1))) | none => []
    -- A (|m|² − r0²) − (P + Q t)² = 0
    let qa := (A.mul dd).sub (Q.mul Q)
    let qb := (A.mul (d.dot m)).sub (P.mul Q)
    let qc := (A.mul ((m.dot m).sub (r0.mul r0))).sub (P.mul P)
    let roots : List Surd :=
      if qa.m = 0 then
        (if qb.m = 0 then [] else
          let n := qc.neg
          let q := qb.scale 1
          [if 0 < q.m then { x := n, y := Dy.zero, r := Dy.zero, a := q } else { x := n.neg, y := Dy.zero, r := Dy.zero, a := q.neg }])
      else
        let f := if qa.m < 0 then (qa.neg, qb.neg, qc.neg) else (qa, qb, qc)
        match quadRoots f.1 f.2.1 f.2.2 with | some p => [p.1, p.2] | none => []
    let candC := (roots.filter (fun t => !low t && !high t)).map (fun t => (t, t.affine P Q A))
    let all := cand0 ++ cand1 ++ candC
    match all with
    | [] => none
    | f :: r =>
      let lo := r.foldl (fun a b => if b.1.cmpS a.1 < 0 then b else a) f
      let hi := r.foldl (fun a b => if 0 < b.1.cmpS a.1 then b else a) f
      some { t1 := lo.1, s1 := lo.2, t2 := hi.1, s2 := hi.2 }

/-- A point of the cubic Bézier with control values p0 to p3 at k/16, exact and then FP32 (R128). -/
def bezier (p0 p1 p2 p3 k : Nat) : Nat :=
  let w := fun (c : Nat) (p : Nat) => (Dy.ofInt c).mul (fVal p)
  let j := 16 - k
  f32 ((((w (j * j * j) p0).add (w (3 * j * j * k) p1)).add ((w (3 * j * k * k) p2).add (w (k * k * k) p3))).scale (-12))

/-- The curve segment test (R128): control points as (x, y, z, r) patterns. -/
def curveTest (o d : Vec3) (cp : Nat → Nat → Nat) (iv : Ival) : Option ShapeHit :=
  let pt := fun k => ({ x := bezier (cp 0 0) (cp 1 0) (cp 2 0) (cp 3 0) k, y := bezier (cp 0 1) (cp 1 1) (cp 2 1) (cp 3 1) k,
                        z := bezier (cp 0 2) (cp 1 2) (cp 2 2) (cp 3 2) k } : Vec3)
  let rad := fun k => fVal (bezier (cp 0 3) (cp 1 3) (cp 2 3) (cp 3 3) k)
  let dO := DVec.ofF o
  let dD := DVec.ofF d
  ((List.range 16).foldl (fun (best : Option (ShapeHit × Surd)) k =>
    match coneSpan dO dD (DVec.ofF (pt k)) (DVec.ofF (pt (k + 1))) (rad k) (rad (k + 1)) with
    | none => best
    | some p =>
      let mk := fun (t : Nat) (s : Surd) (fr : Bool) =>
        ({ t := t, u := (s.affine (Dy.ofInt k) (Dy.ofInt 1) (Dy.ofInt 16)).round, front := fr } : ShapeHit)
      let one := p.t1.cmpS p.t2 == 0
      let c := if iv.has p.t1.round then some (mk p.t1.round p.s1 true, p.t1)
        else if !one && iv.has p.t2.round then some (mk p.t2.round p.s2 false, p.t2) else none
      match c, best with
      | none, b => b
      | some x, none => some x
      | some x, some b => if x.2.cmpS b.2 < 0 then some x else some b) none).map (fun x => x.1)

/-! ## The exponential -/

/-- Terms of the series of e^(−x) in fixed point with p fraction bits: sum so far, term, index. -/
def expSeries (x p : Nat) : (fuel : Nat) → (i : Nat) → (term : Int) → (acc : Int) → Int
  | 0, _, _, acc => acc
  | f + 1, i, term, acc => expSeries x p f (i + 1) (-(term * x) / ((i + 1 : Nat) * 2 ^ p : Int)) (acc + term)

/-- Squares a fixed-point number j times. -/
def sqTimes (p : Nat) : (j : Nat) → Nat → Nat
  | 0, v => v
  | j + 1, v => sqTimes p j (v * v / 2 ^ p)

/-- e^(−num/den × 2^e) for an exponent from −256 to 0, as a number with p fraction bits whose relative error is below 2^−(p − 440), for
p ≥ 640. -/
def expNeg (p num den : Nat) (e : Int) : Nat :=
  let k : Int := e + p - 11
  let x := if 0 ≤ k then num * 2 ^ k.toNat / den else num / (den * 2 ^ (-k).toNat)
  sqTimes p 11 (expSeries x p (p / 5) 0 (2 ^ p) 0).toNat

/-- k × e^(−y/z) rounded once to FP32; k, y and z are exact, not negative, z not zero. The precision doubles until it separates the result; an
operand that 2^32 times the first precision does not separate would give the opaque Config.hardRound (log 9). -/
def scaledExp (k y z : Dy) : Nat :=
  if k.m = 0 then 0
  else if y.m = 0 then f32 k
  else if ((Dy.ofInt 256).mul z).lt y then 0
  else go 32 640
where go : (fuel : Nat) → (p : Nat) → Nat
  | 0, _ => Config.hardRound 1 (k.m.natAbs * 2 ^ 400 + y.m.natAbs)
  | f + 1, p =>
    let v := expNeg p y.m.natAbs z.m.natAbs (y.e - z.e)
    let eps := v / 2 ^ (p - 440) + 1
    let at_ := fun (n : Nat) => f32 ({ m := k.m * (n : Int), e := k.e - p } : Dy)
    let a := at_ (v - eps)
    let b := at_ (v + eps)
    if a = b then a else go f (2 * p)

/-- The splat test (R130): the centre, the upper triangle of A, the amplitude and the threshold. -/
def splatTest (o d c : Vec3) (a : Nat → Nat) (amp thresh : Nat) (iv : Ival) : Option ShapeHit :=
  let D := DVec.ofF d
  let w := (DVec.ofF o).sub (DVec.ofF c)
  let m := fun i => fVal (a i)
  let mul := fun (v : DVec) => ({ x := ((m 0).mul v.x).add (((m 1).mul v.y).add ((m 2).mul v.z)),
                                  y := ((m 1).mul v.x).add (((m 3).mul v.y).add ((m 4).mul v.z)),
                                  z := ((m 2).mul v.x).add (((m 4).mul v.y).add ((m 5).mul v.z)) } : DVec)
  let qa := D.dot (mul D)
  let qb := D.dot (mul w)
  let qc := w.dot (mul w)
  let rest := (qc.mul qa).sub (qb.mul qb)        -- (c − b²/a) a
  if qa.m ≤ 0 ∨ rest.m < 0 then none
  else
    let t := if qb.m = 0 then 0 else f32 (qb.neg.quot qa)
    let resp := scaledExp (fVal amp) rest (qa.scale 1)
    if iv.has t && fLe thresh resp then some { t := t, u := resp, front := false } else none

/-! ## Micro-triangles (R89) -/

/-- The micro-triangle index of weights U and V at a level. -/
def microIndex : (lvl : Nat) → (b0 b1 b2 m : Nat) → Nat
  | 0, _, _, _, m => m
  | l + 1, b0, b1, b2, m =>
    let dbl := fun x => fMul 0x40000000 x
    let one := 0x3F800000
    let d0 := dbl b0
    let d1 := dbl b1
    let d2 := dbl b2
    if fLe one d1 then microIndex l d0 (fSub d1 one) d2 (4 * m + 2)
    else if fLe one d2 then microIndex l d0 d1 (fSub d2 one) (4 * m + 3)
    else if fLe one d0 then microIndex l (fSub d0 one) d1 d2 (4 * m)
    else microIndex l (fSub one d0) (fSub one d1) (fSub one d2) (4 * m + 1)

/-- The micro-triangle of a candidate (R89). -/
def microOf (lvl u v : Nat) : Nat := microIndex lvl (fSub (fSub 0x3F800000 u) v) u v 0

end Sys2Proof.Machine
end

