-- ==== Sys2Proof/Machine/Leaf.lean ====
section
/-! DEFINITION. Leaf blocks (R79 to R85), opacity maps (R87, R88) and the primitive tests on them. -/

namespace Sys2Proof.Machine

/-! ## Heads and checks -/

/-- COUNT, LFLAGS, SIZE64 and PRIMW of a block (R79). -/
def lfCount (v : Nat) : Nat := bytesAt v 0 1
def lfOpaque (v : Nat) : Bool := bit v 8
def lfMap (v : Nat) : Bool := bit v 9
def lfSize (v : Nat) : Nat := bytesAt v 2 1
def lfPrim (v : Nat) : Nat := fld (bytesAt v 8 8) 0 44
def lfGeom (v : Nat) : Nat := fld (bytesAt v 8 8) 44 20

/-- The head check of R79 with SIZE64 from the type's rule (R80, R82 to R85); 0x8 has no such head. -/
def headOk (ty v : Nat) : Bool :=
  let n := lfCount v
  let b := bytesAt v 4 1 + bytesAt v 5 1 + bytesAt v 6 1
  let size := match ty with
    | 3 => (32 + (bytesAt v 3 1 * b + 7) / 8 + (18 * n + 7) / 8 + 63) / 64
    | 4 => n + 1
    | 5 => (32 + 16 * n + 63) / 64
    | 6 => (32 + 48 * n + 63) / 64
    | _ => lfSize v
  decide (1 ≤ n) && decide (n ≤ 16) && lfSize v == size && decide (1 ≤ lfSize v) && (ty != 7 || decide (lfSize v ≤ 64)) &&
  decide (lfPrim v + n ≤ 2 ^ 44) && fld v 10 6 == 0 && (ty == 3 || !lfMap v) && (ty != 6 || !lfOpaque v) &&
  (ty != 3 || (decide (1 ≤ bytesAt v 3 1) && decide (bytesAt v 3 1 ≤ 48) && decide (bytesAt v 4 1 ≤ 32) && decide (bytesAt v 5 1 ≤ 32) &&
    decide (bytesAt v 6 1 ≤ 32)))

/-- 64-byte units to read for a block, its map descriptor included. -/
def leafUnits (ty v : Nat) : Nat := lfSize v + (if ty = 3 ∧ lfMap v then 1 else 0)

/-- The ordered key of an FP32 pattern, and its inverse (R81). -/
def ordKey (b : Nat) : Nat := if bit b 31 then 2 ^ 32 - 1 - b % 2 ^ 32 else b % 2 ^ 32 + 2 ^ 31
def ordInv (k : Nat) : Nat := if 2 ^ 31 ≤ k then k - 2 ^ 31 else 2 ^ 32 - 1 - k

/-- Coordinate a of vertex n of a triangle block; none where the sum passes 2^32 − 1 or the value is not finite (R81). -/
def vertexCoord (v n a : Nat) : Option Nat :=
  let bx := fun i => bytesAt v (4 + i) 1
  let per := bx 0 + bx 1 + bx 2
  let off := 256 + n * per + (if a = 0 then 0 else if a = 1 then bx 0 else bx 0 + bx 1)
  let k := ordKey (w32 v (0x10 + 4 * a)) + fld v off (bx a) * 2 ^ bytesAt v (0x1C + a) 1
  if 2 ^ 32 ≤ k then none else if f32Finite (ordInv k) then some (ordInv k) else none
/-- A vertex; coordinates that R81 refuses have been refused by triOk. -/
def vertexOf (v n : Nat) : Vec3 :=
  { x := (vertexCoord v n 0).getD 0, y := (vertexCoord v n 1).getD 0, z := (vertexCoord v n 2).getD 0 }
/-- Bit offset of the index stream. -/
def idxOff (v : Nat) : Nat := 8 * (32 + (bytesAt v 3 1 * (bytesAt v 4 1 + bytesAt v 5 1 + bytesAt v 6 1) + 7) / 8)
/-- Vertex number j of triangle i. -/
def triIndex (v i j : Nat) : Nat := fld v (idxOff v + 18 * i + 6 * j) 6

/-- The checks of a triangle block (R80, R81). -/
def triOk (v : Nat) : Bool :=
  let nv := bytesAt v 3 1
  let n := lfCount v
  let used := idxOff v + 8 * ((18 * n + 7) / 8)
  bytesAt v 7 1 == 0 && bytesAt v 0x1F 1 == 0 &&
  (List.range 3).all (fun a => f32Finite (w32 v (0x10 + 4 * a)) && decide (bytesAt v (0x1C + a) 1 ≤ 31) &&
    decide (bytesAt v (4 + a) 1 + bytesAt v (0x1C + a) 1 ≤ 32)) &&
  (List.range nv).all (fun m => (List.range 3).all (fun a => (vertexCoord v m a).isSome)) &&
  (List.range n).all (fun i => (List.range 3).all (fun j => decide (triIndex v i j < nv))) &&
  fld v used (512 * lfSize v - used) == 0

/-- One entry of a map descriptor is right (R87). -/
def mapEntryOk (x : Nat) : Bool :=
  (decide (fld x 0 4 ≤ 6) || fld x 0 4 == 15) && fld x 6 2 == 0 && (fld x 0 4 == 15 || fld x 4 2 == 0) && (fld x 0 4 != 15 || fld x 8 24 == 0)
/-- A map descriptor for `n` triangles. -/
def mapOk (m n : Nat) : Bool := (List.range 16).all (fun i => if i < n then mapEntryOk (w32 m (4 * i)) else w32 m (4 * i) == 0)

/-- The checks made at the handoff of a whole block without its map (R74, R79 to R85). -/
def blockOk (ty v : Nat) : Bool :=
  let n := lfCount v
  headOk ty v &&
  (match ty with
   | 3 => triOk v
   | 4 => bytesAt v 3 5 == 0 && bytesAt v 0x10 48 == 0 && (List.range n).all (fun i => (List.range 16).all (fun j =>
        let x := w32 v (0x40 + 64 * i + 4 * j)
        f32Finite x && (j % 4 != 3 || !fLt x 0)))
   | 5 => bytesAt v 3 5 == 0 && bytesAt v 0x10 16 == 0 && (List.range n).all (fun i => (List.range 4).all (fun j =>
        let x := w32 v (0x20 + 16 * i + 4 * j)
        f32Finite x && (j != 3 || !fLt x 0)))
   | 6 => bytesAt v 3 1 == 0 && f32Finite (w32 v 4) && bytesAt v 0x10 16 == 0 && (List.range n).all (fun i =>
        (List.range 10).all (fun j => f32Finite (w32 v (0x20 + 48 * i + 4 * j))) && !fLt (w32 v (0x44 + 48 * i)) 0 &&
        bytesAt v (0x48 + 48 * i) 8 == 0)
   | 7 => bytesAt v 4 4 == 0
   | _ => false)

/-! ## Primitive tests -/

/-- A vector of three patterns at a byte offset. -/
def vecAt (v o : Nat) : Vec3 := { x := w32 v o, y := w32 v (o + 4), z := w32 v (o + 8) }

/-- What the intersector finds for primitive i of a block: t, U, V and FRONT. The triangle's t is not checked against the
interval here; the others choose their root by it (R128, R129). -/
def primTest (ty v i : Nat) (o d : Vec3) (iv : Ival) : Option (Nat × Nat × Nat × Bool) :=
  match ty with
  | 3 => (triTest o d (vertexOf v (triIndex v i 0)) (vertexOf v (triIndex v i 1)) (vertexOf v (triIndex v i 2))).map
      (fun h => (h.t, h.u, h.v, h.front))
  | 4 => (curveTest o d (fun p c => w32 v (0x40 + 64 * i + 16 * p + 4 * c)) iv).map (fun h => (h.t, h.u, 0, h.front))
  | 5 => (sphereTest o d (vecAt v (0x20 + 16 * i)) (w32 v (0x2C + 16 * i)) iv).map (fun h => (h.t, 0, 0, h.front))
  | 6 => (splatTest o d (vecAt v (0x20 + 48 * i)) (fun j => w32 v (0x2C + 48 * i + 4 * j)) (w32 v (0x44 + 48 * i)) (w32 v 4) iv).map
      (fun h => (h.t, h.u, 0, false))
  | _ => none

/-! ## Opacity (R87, R88) -/

/-- Opacity states. -/
def opOpaque : Nat := 0
def opTransparent : Nat := 1
def opUnkOpaque : Nat := 2
def opUnkTransparent : Nat := 3

/-- Where the state of a triangle's candidate stands: known, or at this byte of the map data at this bit. -/
inductive MapAt where
  | state (s : Nat)
  | data (addr bit : Nat)
  deriving DecidableEq, Repr

/-- The state of a candidate of triangle i with weights u and v: descriptor at address `ma` with bytes m (R87, R89). -/
def mapState (ma m i u v : Nat) : MapAt :=
  let e := w32 m (4 * i)
  if fld e 0 4 = 15 then .state (fld e 4 2)
  else
    let x := microOf (fld e 0 4) u v
    .data (ma + 16 * fld e 8 24 + 2 * x / 8) (2 * x % 8)

/-- FORCE_OPAQUE turns unknown states into opaque (R88). -/
def forceState (force : Bool) (s : Nat) : Nat := if force && decide (2 ≤ s) then opOpaque else s

end Sys2Proof.Machine
end

