-- ==== Sys2Proof/Machine/Shape.lean ====
section
/-! DEFINITION. The tests of OVERLAP and POINT on boxes and primitives (R151 to R153), evaluated exactly. Only a curve against an ellipsoid uses
a bounded subdivision; a case it does not decide is the opaque Config.hardMeet (log 10). -/

namespace Sys2Proof.Machine

/-! ## Exact affine maps (R153) -/

/-- An exact affine map from the query's space to the current object space, and nine matrix entries by rows. -/
structure Aff where
  m : List Dy
  t : List Dy
  deriving DecidableEq, Repr, Inhabited

def dyAt (l : List Dy) (i : Nat) : Dy := l.getD i Dy.zero
def dySum (l : List Dy) : Dy := l.foldl Dy.add Dy.zero
def dot3 (a b : List Dy) : Dy := dySum ((List.range 3).map (fun i => (dyAt a i).mul (dyAt b i)))
def sub3 (a b : List Dy) : List Dy := (List.range 3).map (fun i => (dyAt a i).sub (dyAt b i))
def cross3 (a b : List Dy) : List Dy :=
  let c := fun i j => ((dyAt a i).mul (dyAt b j)).sub ((dyAt a j).mul (dyAt b i))
  [c 1 2, c 2 0, c 0 1]
def Aff.id : Aff := { m := [1, 0, 0, 0, 1, 0, 0, 0, 1].map Dy.ofInt, t := [0, 0, 0].map Dy.ofInt }
def Aff.row (f : Aff) (r : Nat) : List Dy := [dyAt f.m (3 * r), dyAt f.m (3 * r + 1), dyAt f.m (3 * r + 2)]
def Aff.col (f : Aff) (c : Nat) : List Dy := [dyAt f.m c, dyAt f.m (3 + c), dyAt f.m (6 + c)]
/-- The entry of an XFORM, row r, column c. -/
def xfAt (xf r c : Nat) : Dy := fVal (w32 xf (4 * (4 * r + c)))
/-- The map followed by an XFORM. -/
def Aff.next (f : Aff) (xf : Nat) : Aff :=
  let row := fun r => [xfAt xf r 0, xfAt xf r 1, xfAt xf r 2]
  { m := (List.range 9).map (fun i => dot3 (row (i / 3)) (f.col (i % 3))),
    t := (List.range 3).map (fun r => (dot3 (row r) f.t).add (xfAt xf r 3)) }
/-- The determinant of the linear part. -/
def Aff.det (f : Aff) : Dy := dot3 (f.row 0) (cross3 (f.row 1) (f.row 2))
/-- Rows of the adjugate. -/
def Aff.adj (f : Aff) (i : Nat) : List Dy :=
  let c := fun k => cross3 (f.row ((k + 1) % 3)) (f.row ((k + 2) % 3))
  [dyAt (c 0) i, dyAt (c 1) i, dyAt (c 2) i]
/-- det × the query-space image of an object-space point. -/
def Aff.back (f : Aff) (x : List Dy) : List Dy := (List.range 3).map (fun i => dot3 (f.adj i) (sub3 x f.t))
/-- Whether the linear part of one XFORM is singular. -/
def xfSingular (xf : Nat) : Bool := ((Aff.id.next xf).det).m == 0

/-! ## Extended intervals -/

/-- c × x, with 0 × ±∞ = 0. -/
def extScale (c : Dy) (x : Ext) : Ext :=
  if c.m = 0 then .fin Dy.zero
  else match x with
    | .fin d => .fin (c.mul d)
    | .ninf => if c.m < 0 then .pinf else .ninf
    | .pinf => if c.m < 0 then .ninf else .pinf
/-- x + y where one kind of infinity can occur. -/
def extAdd (x y : Ext) : Ext :=
  match x, y with
  | .fin a, .fin b => .fin (a.add b)
  | .fin _, e => e
  | e, _ => e
/-- The range of a linear form n·x + k over a box. -/
def linRange (n : List Dy) (k : Dy) (b : Box) : Ext × Ext :=
  let term := fun (i : Nat) (up : Bool) =>
    let c := dyAt n i
    extScale c (if (decide (c.m < 0)) != up then b.hi.getD i .pinf else b.lo.getD i .ninf)
  ((List.range 3).foldl (fun a i => extAdd a (term i false)) (.fin k), (List.range 3).foldl (fun a i => extAdd a (term i true)) (.fin k))

/-! ## Shapes -/

/-- The shape of an OVERLAP or POINT query in its own space. -/
inductive QShape where
  | point (p : Vec3)
  | box (b : Box)
  | ball (c : Vec3) (r : Nat)
  deriving DecidableEq, Repr, Inhabited

/-- The shape of a record (R46). -/
def QRec.qshape (r : QRec) : QShape :=
  if r.kind = 8 then .point { x := r.b32 0x10, y := r.b32 0x14, z := r.b32 0x18 }
  else if r.shape then .ball { x := r.b32 0x10, y := r.b32 0x14, z := r.b32 0x18 } (r.b32 0x1C)
  else .box { lo := [0x10, 0x14, 0x18].map (fun o => fExt (r.b32 o)), hi := [0x1C, 0x20, 0x24].map (fun o => fExt (r.b32 o)) }

def vecD (v : Vec3) : List Dy := [fVal v.x, fVal v.y, fVal v.z]

/-! ## Bounded subdivision -/

/-- A condition on points of a region: whether a cell may hold one, and whether a point meets it. -/
structure Con where
  may : List (Dy × Dy) → Bool
  ok : List Dy → Bool

/-- The middle of a cell. -/
def cellMid (c : List (Dy × Dy)) : List Dy := c.map (fun p => (p.1.add p.2).scale (-1))
/-- A cell cut in two across its widest side. -/
def cellCut (c : List (Dy × Dy)) : List (List (Dy × Dy)) :=
  let wide := (List.range c.length).foldl (fun b i =>
    let w := fun j => let p := c.getD j (Dy.zero, Dy.zero); p.2.sub p.1
    if (w b).lt (w i) then i else b) 0
  let p := c.getD wide (Dy.zero, Dy.zero)
  let mid := (p.1.add p.2).scale (-1)
  [c.set wide (p.1, mid), c.set wide (mid, p.2)]

/-- Whether some point of the cells meets every condition; none when `fuel` cells did not decide it. -/
def meetSearch (cs : List Con) : (fuel : Nat) → List (List (Dy × Dy)) → Option Bool
  | _, [] => some false
  | 0, _ => none
  | f + 1, c :: r =>
    if !cs.all (fun k => k.may c) then meetSearch cs f r
    else if cs.all (fun k => k.ok (cellMid c)) || cs.all (fun k => k.ok (c.map (fun p => p.1))) then some true
    else meetSearch cs f (cellCut c ++ r)

/-- Range of a linear form over a cell. -/
def cellLin (n : List Dy) (k : Dy) (c : List (Dy × Dy)) : Dy × Dy :=
  (List.range c.length).foldl (fun a i =>
    let p := c.getD i (Dy.zero, Dy.zero)
    let x := (dyAt n i).mul p.1
    let y := (dyAt n i).mul p.2
    (a.1.add (x.min y), a.2.add (x.max y))) (k, k)
/-- Range of the square of a range. -/
def sqRange (p : Dy × Dy) : Dy × Dy :=
  let a := p.1.mul p.1
  let b := p.2.mul p.2
  (if p.1.m ≤ 0 ∧ 0 ≤ p.2.m then Dy.zero else a.min b, a.max b)
/-- The value of a linear form at a point of any dimension. -/
def linAt (n : List Dy) (k : Dy) (x : List Dy) : Dy :=
  (List.range x.length).foldl (fun a i => a.add ((dyAt n i).mul (dyAt x i))) k

/-- Σ (nᵢ·x + kᵢ)² − (m·x + l)² ≤ bound. -/
def conNorm (fs : List (List Dy × Dy)) (m : List Dy) (l : Dy) (bnd : Dy) : Con :=
  { may := fun c =>
      let lo := dySum (fs.map (fun f => (sqRange (cellLin f.1 f.2 c)).1))
      (lo.sub (sqRange (cellLin m l c)).2).le bnd,
    ok := fun x => ((dySum (fs.map (fun f => let v := linAt f.1 f.2 x; v.mul v))).sub (let v := linAt m l x; v.mul v)).le bnd }
/-- lo ≤ n·x + k ≤ hi with extended limits. -/
def conLin (n : List Dy) (k : Dy) (lo hi : Ext) : Con :=
  { may := fun c => let p := cellLin n k c; lo.le (.fin p.2) && (Ext.fin p.1).le hi,
    ok := fun x => let v := linAt n k x; lo.le (.fin v) && (Ext.fin v).le hi }

/-- The conditions that the object-space point x lies in the mapped shape (R153). -/
def shapeCons (f : Aff) (q : QShape) : List Con :=
  let d := f.det
  let form := fun i => (f.adj i, (dot3 (f.adj i) f.t).neg)
  match q with
  | .point _ => []
  | .box b => (List.range 3).map (fun i =>
      let l := extScale d (b.lo.getD i .ninf)
      let h := extScale d (b.hi.getD i .pinf)
      conLin (form i).1 (form i).2 (if d.m < 0 then h else l) (if d.m < 0 then l else h))
  | .ball c r =>
    if fInf r then []
    else [conNorm ((List.range 3).map (fun i => ((form i).1, (form i).2.sub (d.mul (fVal (c.get i)))))) [] Dy.zero (((fVal r).mul d).mul ((fVal r).mul d))]

/-- Cells of a region, searched; undecided cases are opaque. -/
def meets3 (cs : List Con) (cell : List (Dy × Dy)) (tag : Nat) : Bool :=
  match meetSearch cs 20000 [cell] with
  | some b => b
  | none => Config.hardMeet tag 0

/-! ## Balls, exactly -/

/-- σ² of a map whose linear part is σ times an orthogonal one. -/
def Aff.sim (f : Aff) : Option Dy :=
  let g := fun i j => dot3 (f.col i) (f.col j)
  if (g 0 1).m = 0 ∧ (g 0 2).m = 0 ∧ (g 1 2).m = 0 ∧ (g 0 0).cmp (g 1 1) = 0 ∧ (g 0 0).cmp (g 2 2) = 0 ∧ 0 < (g 0 0).m then some (g 0 0) else none

/-- The image of a point. -/
def Aff.image (f : Aff) (x : List Dy) : List Dy := (List.range 3).map (fun r => (dot3 (f.row r) x).add (dyAt f.t r))

/-- The squared distance from a point to a closed box with extended bounds, none where no point of the box is at a distance. -/
def boxDist2 (lo hi : Nat → Ext) (p : List Dy) : Option Dy :=
  let dist := fun a =>
    let x := Ext.fin (dyAt p a)
    if x.lt (lo a) then (match lo a with | .fin l => some (l.sub (dyAt p a)) | _ => none)
    else if (hi a).lt x then (match hi a with | .fin h => some ((dyAt p a).sub h) | _ => none)
    else some Dy.zero
  match dist 0, dist 1, dist 2 with
  | some x, some y, some z => some (((x.mul x).add (y.mul y)).add (z.mul z))
  | _, _, _ => none

/-- √a ≤ √b + √c for a, b and c not negative. -/
def rootLe (a b c : Dy) : Bool :=
  let l := (a.sub b).sub c
  decide (l.m ≤ 0) || (l.mul l).le ((b.mul c).scale 2)

/-! ## Parallelepipeds, exactly -/

/-- A parallelepiped: a corner and three edges. -/
structure Par where
  p : List Dy
  e : List (List Dy)
  deriving DecidableEq, Repr, Inhabited

def add3 (a b : List Dy) : List Dy := (List.range 3).map (fun i => (dyAt a i).add (dyAt b i))
def mul3 (k : Dy) (a : List Dy) : List Dy := (List.range 3).map (fun i => k.mul (dyAt a i))
def Par.edge (x : Par) (i : Nat) : List Dy := x.e.getD i []
/-- The corners that lie on no edge of the listed axes: the corner p plus the edges of every subset of the others. -/
def Par.bases (x : Par) (axes : List Nat) : List (List Dy) :=
  ((List.range 3).filter (fun i => !axes.contains i)).foldl (fun l i => l ++ l.map (fun q => add3 q (x.edge i))) [x.p]

/-- Whether some σ in [0, 1] has every linear form l0 + l1 σ ≥ 0 and q0 + q1 σ + q2 σ² ≤ 0: it is enough to try the ends, where a form is zero,
and where the quadratic is least. -/
def someSigma (lins : List (Dy × Dy)) (q : Dy × Dy × Dy) : Bool :=
  let all := (Dy.zero, Dy.ofInt 1) :: (Dy.ofInt 1, Dy.ofInt (-1)) :: lins
  let root := fun (l : Dy × Dy) => if l.2.m = 0 then none else if l.2.m < 0 then some (l.1, l.2.neg) else some (l.1.neg, l.2)
  let tries := all.filterMap root ++ (root (q.2.1, q.2.2.scale 1)).toList
  tries.any (fun s =>
    all.all (fun l => decide (0 ≤ ((l.1.mul s.2).add (l.2.mul s.1)).m)) &&
    decide (((((q.1.mul s.2).mul s.2).add ((q.2.1.mul s.1).mul s.2)).add ((q.2.2.mul s.1).mul s.1)).m ≤ 0))

/-- Whether, for some σ in [0, 1], the ball of radius r0 + r1 σ at c0 + c1 σ meets the surface of a parallelepiped: the nearest point of a face, an edge or
a corner to the centre is its projection there. -/
def surfaceMeets (c0 c1 : List Dy) (r0 r1 : Dy) (x : Par) : Bool :=
  let rr := (r0.mul r0, (r0.mul r1).scale 1, r1.mul r1)
  let two := fun (a b : Dy × Dy) => (a.1.mul b.1, (a.1.mul b.2).add (a.2.mul b.1), a.2.mul b.2)
  let lin := fun (k : Dy) (a : Dy × Dy) => (k.mul a.1, k.mul a.2)
  let minus := fun (a b : Dy × Dy) => (a.1.sub b.1, a.2.sub b.2)
  let sq := fun (k : Dy) (a b c : Dy × Dy × Dy) => -- k (a − c) − b
    (((k.mul (a.1.sub c.1)).sub b.1), ((k.mul (a.2.1.sub c.2.1)).sub b.2.1), ((k.mul (a.2.2.sub c.2.2)).sub b.2.2))
  let w := fun (p : List Dy) => (sub3 c0 p, c1)
  let ip := fun (v : List Dy × List Dy) (u : List Dy) => (dot3 v.1 u, dot3 v.2 u)
  let ww := fun (v : List Dy × List Dy) => (dot3 v.1 v.1, (dot3 v.1 v.2).scale 1, dot3 v.2 v.2)
  let zero := (Dy.zero, Dy.zero, Dy.zero)
  let corner := fun p => someSigma [] (sq (Dy.ofInt 1) (ww (w p)) zero rr)
  let side := fun p u =>
    let uu := dot3 u u
    let a := ip (w p) u
    decide (0 < uu.m) && someSigma [a, minus (uu, Dy.zero) a] (sq uu (ww (w p)) (two a a) rr)
  let face := fun p u v =>
    let det := ((dot3 u u).mul (dot3 v v)).sub ((dot3 u v).mul (dot3 u v))
    let a := ip (w p) u
    let b := ip (w p) v
    let s := minus (lin (dot3 v v) a) (lin (dot3 u v) b)
    let t := minus (lin (dot3 u u) b) (lin (dot3 u v) a)
    let ab := two a s
    let bt := two b t
    decide (0 < det.m) && someSigma [s, minus (det, Dy.zero) s, t, minus (det, Dy.zero) t]
      (sq det (ww (w p)) (ab.1.add bt.1, ab.2.1.add bt.2.1, ab.2.2.add bt.2.2) rr)
  (x.bases []).any corner ||
  (List.range 3).any (fun i => (x.bases [i]).any (fun p => side p (x.edge i))) ||
  [(0, 1), (0, 2), (1, 2)].any (fun ij => (x.bases [ij.1, ij.2]).any (fun p => face p (x.edge ij.1) (x.edge ij.2)))

/-- The squared lengths from c, in the metric of a quadratic form, to the projections on the faces, edges and corners of a parallelepiped that lie in
them, each as numerator and denominator: the least is its distance. -/
def surfaceDists (ip : List Dy → List Dy → Dy) (c : List Dy) (x : Par) : List (Dy × Dy) :=
  let corner := fun p => let w := sub3 c p; [(ip w w, Dy.ofInt 1)]
  let side := fun p u =>
    let w := sub3 c p
    let uu := ip u u
    let a := ip w u
    if 0 < uu.m ∧ 0 ≤ a.m ∧ a.le uu then [((uu.mul (ip w w)).sub (a.mul a), uu)] else []
  let face := fun p u v =>
    let w := sub3 c p
    let det := ((ip u u).mul (ip v v)).sub ((ip u v).mul (ip u v))
    let a := ip w u
    let b := ip w v
    let s := ((ip v v).mul a).sub ((ip u v).mul b)
    let t := ((ip u u).mul b).sub ((ip u v).mul a)
    if 0 < det.m ∧ 0 ≤ s.m ∧ s.le det ∧ 0 ≤ t.m ∧ t.le det then [((det.mul (ip w w)).sub ((a.mul s).add (b.mul t)), det)] else []
  (x.bases []).flatMap corner ++
  (List.range 3).flatMap (fun i => (x.bases [i]).flatMap (fun p => side p (x.edge i))) ++
  [(0, 1), (0, 2), (1, 2)].flatMap (fun ij => (x.bases [ij.1, ij.2]).flatMap (fun p => face p (x.edge ij.1) (x.edge ij.2)))

/-- A bound of an extended interval, or where it is infinite a finite one beyond what is of interest. -/
def Ext.orD (x : Ext) (d : Dy) : Dy := match x with | .fin k => k | _ => d

/-- det × the image of a query box, cut to what a region of the object space (a range for each axis) can meet; none where the box is empty there. The
forms y = adj·(x − t) take the values det × box. -/
def Aff.parOf (f : Aff) (b : Box) (region : List (Dy × Dy)) : Option Par :=
  let d := f.det
  let lo := fun i => extScale d (if d.m < 0 then b.hi.getD i .pinf else b.lo.getD i .ninf)
  let hi := fun i => extScale d (if d.m < 0 then b.lo.getD i .ninf else b.hi.getD i .pinf)
  let near := fun i => let n := f.adj i; (List.range 3).foldl (fun (a : Dy × Dy) k =>
    let r := region.getD k (Dy.zero, Dy.zero)
    let u := (dyAt n k).mul r.1
    let v := (dyAt n k).mul r.2
    (a.1.add (u.min v), a.2.add (u.max v))) ((dot3 n f.t).neg, (dot3 n f.t).neg)
  let l := fun i => (lo i).orD (near i).1
  let h := fun i => (hi i).orD (near i).2
  if (List.range 3).any (fun i => (h i).lt (l i) || lo i == .pinf || hi i == .ninf) then none
  else some {
    p := (List.range 3).foldl (fun x i => add3 x (mul3 (l i) (f.col i))) (mul3 d f.t),
    e := (List.range 3).map (fun i => mul3 ((h i).sub (l i)) (f.col i)) }

/-- Whether, for some σ in [0, 1], the point c0 + c1 σ lies in the image of a query box. -/
def Aff.axisIn (f : Aff) (b : Box) (c0 c1 : List Dy) : Bool :=
  let d := f.det
  let lo := fun i => extScale d (if d.m < 0 then b.hi.getD i .pinf else b.lo.getD i .ninf)
  let hi := fun i => extScale d (if d.m < 0 then b.lo.getD i .ninf else b.hi.getD i .pinf)
  !(List.range 3).any (fun i => lo i == .pinf || hi i == .ninf) &&
  someSigma ((List.range 3).flatMap (fun i =>
    let y0 := dot3 (f.adj i) (sub3 c0 f.t)
    let y1 := dot3 (f.adj i) c1
    (match lo i with | .fin k => [(y0.sub k, y1)] | _ => []) ++ (match hi i with | .fin k => [(k.sub y0, y1.neg)] | _ => [])))
    (Dy.zero, Dy.zero, Dy.zero)

/-! ## Ellipsoids, exactly -/

/-- Polynomials with the constant term first. -/
def pAdd (a b : List Dy) : List Dy := (List.range (max a.length b.length)).map (fun i => (dyAt a i).add (dyAt b i))
def pMul (a b : List Dy) : List Dy :=
  (List.range a.length).foldl (fun r i => pAdd r ((List.range i).map (fun _ => Dy.zero) ++ b.map (fun x => (dyAt a i).mul x))) []
def pNeg (a : List Dy) : List Dy := a.map Dy.neg
/-- Without leading zeros. -/
def pTrim (a : List Dy) : List Dy := (a.reverse.dropWhile (fun x => x.m == 0)).reverse

/-- The determinant of a matrix of polynomials, by its first row. -/
def pDet : (n : Nat) → List (List (List Dy)) → List Dy
  | 0, _ => [Dy.ofInt 1]
  | n + 1, m =>
    let first := m.headD []
    (List.range (n + 1)).foldl (fun a j =>
      let minor := (m.drop 1).map (fun r => r.eraseIdx j)
      let x := pMul (first.getD j []) (pDet n minor)
      pAdd a (if j % 2 = 0 then x else pNeg x)) []

/-- A positive multiple of the remainder of a by b. -/
def pRem : (fuel : Nat) → (a b : List Dy) → List Dy
  | 0, a, _ => a
  | f + 1, a, b =>
    let a := pTrim a
    if a.length < b.length then a
    else
      let la := a.getLastD Dy.zero
      let lb := b.getLastD Dy.zero
      let k := if lb.m < 0 then la.neg else la
      pRem f (pAdd (a.map (fun x => lb.abs.mul x)) (pNeg ((List.range (a.length - b.length)).map (fun _ => Dy.zero) ++ b.map (fun x => k.mul x)))).dropLast b

/-- The Sturm sequence from two polynomials on. -/
def sturm : (fuel : Nat) → (a b : List Dy) → List (List Dy)
  | 0, a, _ => [a]
  | f + 1, a, b => if b.isEmpty then [a] else a :: sturm f b (pTrim (pNeg (pRem 16 a b)))

/-- Changes of sign in a sequence, zeros left out. -/
def signChanges (l : List Int) : Nat :=
  let l := l.filter (fun x => x != 0)
  ((l.zip (l.drop 1)).filter (fun p => decide (p.1 * p.2 < 0))).length

/-- The number of different positive roots of a polynomial, by Sturm's theorem. -/
def posRoots (a : List Dy) : Nat :=
  let p := pTrim a
  let d := ((List.range (p.length - 1)).map (fun i => (Dy.ofInt (i + 1 : Nat)).mul (dyAt p (i + 1))))
  let seq := sturm 8 p (pTrim d)
  let low := fun (q : List Dy) => ((q.find? (fun x => x.m != 0)).getD Dy.zero).m.sign
  let high := fun (q : List Dy) => (q.getLastD Dy.zero).m.sign
  signChanges (seq.map low) - signChanges (seq.map high)

/-- A quadric: the symmetric 4 × 4 matrix of a quadratic function that is at most 0 in an ellipsoid, from affine forms (three factors and a constant)
with their squares summed, less a constant. -/
def quadricOf (forms : List (List Dy × Dy)) (c : Dy) : List (List Dy) :=
  (List.range 4).map (fun i => (List.range 4).map (fun j =>
    let at_ := fun (f : List Dy × Dy) k => if k = 3 then f.2 else dyAt f.1 k
    (dySum (forms.map (fun f => (at_ f i).mul (at_ f j)))).sub (if i = 3 ∧ j = 3 then c else Dy.zero)))

/-- Whether two solid ellipsoids have a common point: they have none just where det(λA + B) has two different positive roots. -/
def quadricsMeet (a b : List (List Dy)) : Bool :=
  decide (posRoots (pDet 4 ((List.range 4).map (fun i => (List.range 4).map (fun j => [dyAt (b.getD i []) j, dyAt (a.getD i []) j])))) < 2)

/-- The image of a query's ball under a map, as a quadric. -/
def Aff.ballQuadric (f : Aff) (c : List Dy) (r : Dy) : List (List Dy) :=
  let d := f.det
  quadricOf ((List.range 3).map (fun i => (f.adj i, ((dot3 (f.adj i) f.t).add (d.mul (dyAt c i))).neg))) ((r.mul d).mul (r.mul d))
/-- A ball as a quadric. -/
def ballQuadric (c : List Dy) (r : Dy) : List (List Dy) :=
  quadricOf ((List.range 3).map (fun i => ((List.range 3).map (fun k => if k = i then Dy.ofInt 1 else Dy.zero), (dyAt c i).neg))) (r.mul r)
/-- Whether an object-space point lies in the image of a query's ball. -/
def Aff.inBall (f : Aff) (c : List Dy) (r : Dy) (x : List Dy) : Bool :=
  let d := f.det
  let w := sub3 (f.back x) (mul3 d c)
  (dot3 w w).le ((r.mul d).mul (r.mul d))

/-! ## Boxes (R151) -/

/-- Whether a decoded box survives the node test (R151, R153). `p` is the mapped point of a POINT query. -/
def boxMeets (f : Aff) (inst : Bool) (q : QShape) (p : Vec3) (b : Box) : Bool :=
  let lo := fun i => b.lo.getD i .ninf
  let hi := fun i => b.hi.getD i .pinf
  let ok := fun (l h : Ext) (l2 h2 : Ext) => l.le h2 && l2.le h
  match q with
  | .point _ => (List.range 3).all (fun a => (lo a).le (fExt (p.get a)) && (fExt (p.get a)).le (hi a))
  | .box s =>
    if !inst then (List.range 3).all (fun a => ok (lo a) (hi a) (s.lo.getD a .ninf) (s.hi.getD a .pinf))
    else
      let e := fun i => (List.range 3).map (fun k => if k = i then Dy.ofInt 1 else Dy.zero)
      let axes := (List.range 3).map e ++ (List.range 3).map f.adj ++ (List.range 9).map (fun i => cross3 (e (i / 3)) (f.col (i % 3)))
      axes.all (fun n =>
        let a := linRange n Dy.zero b
        let m := linRange ((List.range 3).map (fun j => dot3 n (f.col j))) (dot3 n f.t) s
        ok a.1 a.2 m.1 m.2)
  | .ball c r =>
    if fInf r then true
    else
      let rr := (fVal r).mul (fVal r)
      let near := fun (s2 : Dy) (k : List Dy) => match boxDist2 lo hi k with | some d => d.le (rr.mul s2) | none => false
      if !inst then near (Dy.ofInt 1) (vecD c)
      else match f.sim with
      | some s2 => near s2 (f.image (vecD c))
      | none =>
        -- in the ball's own space, with the box cut to the ball's bounds
        let k := f.image (vecD c)
        let reach := fun a => (fVal r).mul (dySum ((f.row a).map Dy.abs))
        let l := fun a => (lo a).orD ((dyAt k a).sub (reach a))
        let h := fun a => (hi a).orD ((dyAt k a).add (reach a))
        if (List.range 3).any (fun a => (h a).lt (l a) || lo a == .pinf || hi a == .ninf) then false
        else
          let adjCol := fun a => (List.range 3).map (fun i => dyAt (f.adj i) a)
          let par : Par := {
            p := f.back ((List.range 3).map l), e := (List.range 3).map (fun a => mul3 ((h a).sub (l a)) (adjCol a)) }
          (List.range 3).all (fun a => (l a).le (dyAt k a) && (dyAt k a).le (h a)) ||
          surfaceMeets (mul3 f.det (vecD c)) [] ((fVal r).mul f.det) Dy.zero par

/-! ## Triangles (R152) -/

/-- Whether the squared distance from p to the segment a b is at most r2. -/
def nearSeg (p a b : List Dy) (r2 : Dy) : Bool :=
  let d := sub3 b a
  let w := sub3 p a
  let t := dot3 w d
  let dd := dot3 d d
  if t.m ≤ 0 then (dot3 w w).le r2
  else if dd.le t then (let u := sub3 p b; (dot3 u u).le r2)
  else (((dot3 w w).mul dd).sub (t.mul t)).le (r2.mul dd)

/-- Whether the squared distance from p to the closed triangle a b c is at most r2. -/
def nearTri (p a b c : List Dy) (r2 : Dy) : Bool :=
  let n := cross3 (sub3 b a) (sub3 c a)
  let nn := dot3 n n
  let w := sub3 p a
  let inside := fun (x y : List Dy) => decide (0 ≤ (dot3 (cross3 (sub3 y x) (sub3 p x)) n).m)
  if nn.m ≠ 0 ∧ inside a b ∧ inside b c ∧ inside c a then (let h := dot3 w n; (h.mul h).le (r2.mul nn))
  else nearSeg p a b r2 || nearSeg p b c r2 || nearSeg p c a r2

/-- Clips a convex polygon of homogeneous points (four numbers, last one positive) by n·x + k·w ≥ 0. -/
def clipHalf (n : List Dy) (poly : List (List Dy)) : List (List Dy) :=
  let val := fun (p : List Dy) => linAt n Dy.zero p
  let prs := poly.zip (poly.drop 1 ++ poly.take 1)
  prs.flatMap (fun (p, q) =>
    let a := val p
    let b := val q
    let keep := if 0 ≤ a.m then [p] else []
    if (a.m < 0 ∧ 0 < b.m) ∨ (0 < a.m ∧ b.m < 0) then
      keep ++ [(List.range 4).map (fun i => ((dyAt p i).mul b.abs).add ((dyAt q i).mul a.abs))]
    else keep)

/-- Whether a triangle meets a box with extended bounds: clipped by each finite face. -/
def triBox (a b c : List Dy) (lo hi : Nat → Ext) : Bool :=
  let one := Dy.ofInt 1
  let e := fun i (s : Int) (k : Dy) => (List.range 4).map (fun j => if j = i then Dy.ofInt s else if j = 3 then k else Dy.zero)
  if (List.range 3).any (fun i => lo i == .pinf || hi i == .ninf) then false
  else
    let p := (List.range 3).foldl (fun poly i =>
      let p1 := match lo i with | .fin l => clipHalf (e i 1 l.neg) poly | _ => poly
      match hi i with | .fin h => clipHalf (e i (-1) h) p1 | _ => p1) [a ++ [one], b ++ [one], c ++ [one]]
    !p.isEmpty

/-- Whether the shape meets a triangle (R152, R153). -/
def triMeets (f : Aff) (q : QShape) (p a b c : Vec3) : Bool :=
  match q with
  | .point _ => fFin p.x && fFin p.y && fFin p.z && nearTri (vecD p) (vecD a) (vecD b) (vecD c) Dy.zero
  | .box s =>
    let d := f.det
    let lo := fun i => extScale d (if d.m < 0 then s.hi.getD i .pinf else s.lo.getD i .ninf)
    let hi := fun i => extScale d (if d.m < 0 then s.lo.getD i .ninf else s.hi.getD i .pinf)
    triBox (f.back (vecD a)) (f.back (vecD b)) (f.back (vecD c)) lo hi
  | .ball k r =>
    if fInf r then true
    else
      let d := f.det
      let rd := (fVal r).mul d
      nearTri ((vecD k).map (fun x => d.mul x)) (f.back (vecD a)) (f.back (vecD b)) (f.back (vecD c)) (rd.mul rd)

/-! ## Balls, cones, splats (R152) -/

/-- Whether a point lies in the hull of two spheres (R128). -/
def inCone (p c0 c1 : List Dy) (r0 r1 : Dy) : Bool :=
  let v := sub3 c1 c0
  let dr := r1.sub r0
  let A := (dot3 v v).sub (dr.mul dr)
  let m := sub3 p c0
  let in0 := (dot3 m m).le (r0.mul r0)
  let in1 := (let u := sub3 p c1; (dot3 u u).le (r1.mul r1))
  let P := (dot3 m v).add (r0.mul dr)
  if A.m ≤ 0 then in0 || in1
  else if P.m ≤ 0 then in0
  else if A.le P then in1
  else (A.mul ((dot3 m m).sub (r0.mul r0))).le (P.mul P)

/-- The unit form of coordinate a in `n` dimensions. -/
def unitForm (n a : Nat) : List Dy := (List.range n).map (fun k => if k = a then Dy.ofInt 1 else Dy.zero)

/-- Whether the mapped shape meets the hull of two spheres: a box by its image, cut to the hull's bounds; a ball under a similarity by a hull with larger
spheres; and a ball that becomes an ellipsoid by a bounded subdivision. -/
def coneMeets (f : Aff) (q : QShape) (c0 c1 : List Dy) (r0 r1 : Dy) (tag : Nat) : Bool :=
  let v := sub3 c1 c0
  let dr := r1.sub r0
  let side := fun a => (((dyAt c0 a).sub r0).min ((dyAt c1 a).sub r1), ((dyAt c0 a).add r0).max ((dyAt c1 a).add r1))
  let region := (List.range 3).map side
  let d := f.det
  match q with
  | .point _ => false
  | .box b =>
    f.axisIn b c0 v ||
    (match f.parOf b region with
     | some x => surfaceMeets (mul3 d c0) (mul3 d v) (d.mul r0) (d.mul dr) x
     | none => false)
  | .ball k r =>
    if fInf r then true
    else match f.sim with
    | some s2 =>
      let rho := (fVal r).mul d.abs
      inCone (mul3 s2 (f.image (vecD k))) (mul3 s2 c0) (mul3 s2 c1) ((s2.mul r0).add rho) ((s2.mul r1).add rho)
    | none =>
      if (fVal r).m = 0 then inCone (f.image (vecD k)) c0 c1 r0 r1
      else if (dot3 v v).m = 0 ∧ dr.m = 0 then
        (if r0.m = 0 then f.inBall (vecD k) (fVal r) c0 else quadricsMeet (ballQuadric c0 r0) (f.ballQuadric (vecD k) (fVal r)))
      else
        -- x ranges over the hull's bounds, the fourth variable over [0, 1]
        let con := conNorm ((List.range 3).map (fun a => ((unitForm 3 a) ++ [(dyAt v a).neg], (dyAt c0 a).neg)))
          [Dy.zero, Dy.zero, Dy.zero, dr] r0 Dy.zero
        meets3 (con :: shapeCons f q) (region ++ [(Dy.zero, Dy.ofInt 1)]) tag

/-- Whether the mapped shape meets a ball. -/
def ballMeets (f : Aff) (q : QShape) (c : List Dy) (r : Dy) (tag : Nat) : Bool :=
  if r.m < 0 then false else coneMeets f q c c r r tag

/-- k e^(−y/z) ≥ th for th > 0 and z > 0. Except where y is 0 the two differ, and the precision doubles until it tells them apart; what 2^32 times the
first precision did not would be the opaque Config.hardMeet (log 10). -/
def expGe (k y z th : Dy) : Bool :=
  if y.m = 0 then th.le k
  else if ((Dy.ofInt 256).mul z).lt y then false
  else go 32 640
where go : (fuel : Nat) → (p : Nat) → Bool
  | 0, _ => Config.hardMeet 0 0
  | f + 1, p =>
    let v := expNeg p y.m.natAbs z.m.natAbs (y.e - z.e)
    let eps := v / 2 ^ (p - 440) + 1
    let at_ := fun (n : Nat) => ({ m := k.m * (n : Int), e := k.e - p } : Dy)
    if th.le (at_ (v - eps)) then true else if (at_ (v + eps)).lt th then false else go f (2 * p)

/-- The bilinear form of a splat. -/
def splatIp (a : Nat → Dy) (v w : List Dy) : Dy :=
  dot3 v [dot3 [a 0, a 1, a 2] w, dot3 [a 1, a 3, a 4] w, dot3 [a 2, a 4, a 5] w]
/-- The quadratic form of a splat at an offset from its centre. -/
def splatForm (a : Nat → Dy) (w : List Dy) : Dy := splatIp a w w

/-- The ellipsoid where the form of a splat at C is at most l. -/
def splatQuadric (a : Nat → Dy) (c : List Dy) (l : Dy) : List (List Dy) :=
  let rows := [[a 0, a 1, a 2], [a 1, a 3, a 4], [a 2, a 4, a 5]]
  let ac := rows.map (fun r => (dot3 r c).neg)
  (List.range 3).map (fun i => rows.getD i [] ++ [dyAt ac i]) ++ [ac ++ [(splatForm a c).sub l]]

/-- Whether A is positive definite. -/
def posDef (a : Nat → Dy) : Bool :=
  let d2 := ((a 0).mul (a 3)).sub ((a 1).mul (a 1))
  let r0 := [a 0, a 1, a 2]
  let d3 := dot3 r0 (cross3 [a 1, a 3, a 4] [a 2, a 4, a 5])
  decide (0 < (a 0).m) && decide (0 < d2.m) && decide (0 < d3.m)

/-- Whether the ellipsoid of a splat, where the form is at most 2 ln(AMP / THRESH), meets another: the level is enclosed ever closer until both of its
bounds agree, which they do as it is transcendental. -/
def splatLevel (a : Nat → Dy) (c : List Dy) (amp th : Dy) (other : List (List Dy)) (tag : Nat) : (fuel : Nat) → (lo hi : Dy) → Bool
  | 0, _, _ => Config.hardMeet tag 0
  | f + 1, lo, hi =>
    if lo.m ≠ 0 && quadricsMeet (splatQuadric a c lo) other then true
    else if !quadricsMeet (splatQuadric a c hi) other then false
    else
      let mid := (lo.add hi).scale (-1)
      if expGe amp mid (Dy.ofInt 2) th then splatLevel a c amp th other tag f mid hi else splatLevel a c amp th other tag f lo mid

/-- Whether the region of a splat where the response is at least THRESH meets the shape (R152). -/
def splatMeets (f : Aff) (q : QShape) (p c : Vec3) (a : Nat → Dy) (amp th : Dy) (tag : Nat) : Bool :=
  let c := vecD c
  let two := Dy.ofInt 2
  if !posDef a then false
  else match q with
    | .point _ => fFin p.x && fFin p.y && fFin p.z && (decide (th.m ≤ 0) || expGe amp (splatForm a (sub3 (vecD p) c)) two th)
    | .box b =>
      if th.m ≤ 0 then !(List.range 3).any (fun i => b.lo.getD i .ninf == .pinf || b.hi.getD i .pinf == .ninf)
      else if amp.lt th then false
      else
        -- the form is below bnd in the region
        let ratio := amp.quot th
        let bnd := Dy.ofInt (2 * (Nat.log2 (ratio.floor.toNat + 1) + 1) : Nat)
        let det := dot3 [a 0, a 1, a 2] (cross3 [a 1, a 3, a 4] [a 2, a 4, a 5])
        let cof := [((a 3).mul (a 5)).sub ((a 4).mul (a 4)), ((a 0).mul (a 5)).sub ((a 2).mul (a 2)), ((a 0).mul (a 3)).sub ((a 1).mul (a 1))]
        let half := fun i => (((bnd.mul (dyAt cof i)).quot det).sqrt).scale 1
        let region := (List.range 3).map (fun i => ((dyAt c i).sub (half i), (dyAt c i).add (half i)))
        let d := f.det
        f.axisIn b c [] ||
        (match f.parOf b region with
         | some x => (surfaceDists (splatIp a) (mul3 d c) x).any (fun n => expGe amp n.1 ((n.2.mul (d.mul d)).scale 1) th)
         | none => false)
    | .ball k r =>
      if th.m ≤ 0 ∨ fInf r then (decide (th.m ≤ 0) || th.le amp)
      else if amp.lt th then false
      else if f.inBall (vecD k) (fVal r) c then true
      else if (fVal r).m = 0 then expGe amp (splatForm a (sub3 (f.image (vecD k)) c)) two th
      else if amp.le th then false
      else splatLevel a c amp th (f.ballQuadric (vecD k) (fVal r)) tag 4096 Dy.zero (Dy.ofInt 1024)

/-- Whether primitive i of a block of type 3 to 6 is a result of an OVERLAP or POINT query (R152). -/
def primMeets (ty v i : Nat) (f : Aff) (q : QShape) (p : Vec3) (tag : Nat) : Bool :=
  match ty with
  | 3 => triMeets f q p (vertexOf v (triIndex v i 0)) (vertexOf v (triIndex v i 1)) (vertexOf v (triIndex v i 2))
  | 4 =>
    let cp := fun pt c => w32 v (0x40 + 64 * i + 16 * pt + 4 * c)
    let b := fun k c => fVal (bezier (cp 0 c) (cp 1 c) (cp 2 c) (cp 3 c) k)
    let pt := fun k => [b k 0, b k 1, b k 2]
    (List.range 16).any (fun k => match q with
      | .point _ => fFin p.x && fFin p.y && fFin p.z && inCone (vecD p) (pt k) (pt (k + 1)) (b k 3) (b (k + 1) 3)
      | _ => coneMeets f q (pt k) (pt (k + 1)) (b k 3) (b (k + 1) 3) (tag * 16 + k))
  | 5 =>
    let c := vecD (vecAt v (0x20 + 16 * i))
    let r := fVal (w32 v (0x2C + 16 * i))
    (match q with
     | .point _ => decide (0 ≤ r.m) && fFin p.x && fFin p.y && fFin p.z && (let u := sub3 (vecD p) c; (dot3 u u).le (r.mul r))
     | _ => ballMeets f q c r (tag * 16))
  | 6 => splatMeets f q p (vecAt v (0x20 + 48 * i)) (fun j => fVal (w32 v (0x2C + 48 * i + 4 * j))) (fVal (w32 v (0x44 + 48 * i))) (fVal (w32 v 4)) tag
  | _ => false

end Sys2Proof.Machine
end

