-- ==== Sys2Proof/Machine/Walk.lean ====
section
/-! DEFINITION. The walk of a Needle: trails and the short stack (R107 to R114), what a Needle picks (R103), node visits
(R106, R120, R151), remote stubs (R93), and the start of leaf handoffs (R116, R147, R171). -/

namespace Sys2Proof.Machine

/-! ## Trails (R107, R111) -/

def ordAt (t l : Nat) : Nat := fld t (4 * l) 4
def setOrd (t l v : Nat) : Nat := setFld t (4 * l) 4 v
/-- TDEPTH := n and ORD[k] := 0 for every k ≥ n. -/
def setDepth (t n : Nat) : Nat := t % 16 ^ min n 15 + n % 16 * 2 ^ 60

/-- finish(L) of R107 for a walk that starts at level `base`: the trail, and whether the walk is done (R359). -/
def trailFinish (base : Nat) : (l : Nat) → (t : Nat) → Nat × Bool
  | 0, _ => (0, true)
  | l + 1, t =>
    let t1 := setDepth t (l + 1)
    if l + 1 ≤ base then (t1, true)
    else if ordAt t1 l = 15 then trailFinish base l t1
    else (setOrd t1 l (ordAt t1 l + 1), false)

/-- The pops of R107 after an item is done: the stack left, the trail, entries discarded, the entry to go on with, and
whether a discard ended the walk. -/
def popStack (base : Nat) (beyond : Nat → Bool) : List StackE → (t d : Nat) → List StackE × Nat × Nat × Option StackE × Bool
  | [], t, d => ([], t, d, none, false)
  | x :: r, t, d =>
    let t1 := if x.plevel + 1 < tdepth t then setOrd t x.plevel (ordAt t x.plevel + 1) else t
    let t2 := setDepth t1 (x.plevel + 1)
    if beyond x.tkey then
      match trailFinish base (x.plevel + 1) t2 with
      | (t3, true) => (r, t3, d + 1, none, true)
      | (t3, false) => popStack base beyond r t3 (d + 1)
    else (r, t2, d, some x, false)

/-- A push (R109): the stack, whether an entry was dropped or not pushed. -/
def pushStack (st : List StackE) (x : StackE) : List StackE × Bool :=
  if 2 ^ 50 ≤ x.addr then (st, true) else if 16 ≤ st.length then (x :: st.take 15, true) else (x :: st, false)

/-! ## Orders -/

/-- Insertion sort. -/
def insSort {α : Type} (lt : α → α → Bool) : List α → List α
  | [] => []
  | a :: r => ins a (insSort lt r)
where ins (a : α) : List α → List α
  | [] => [a]
  | b :: r => if lt b a then b :: ins a r else a :: b :: r

/-- Ray-store entries of Bobbin b that hold a query. -/
def State.occupants (s : State) (b : Nat) : List (Nat × Entry) :=
  (s.rs.filter (fun e => e.1 / 8192 == b && e.2.slot.isSome && !e.2.retired)).map (fun e => (e.1 % 8192, e.2))

/-- Class 0 before the others, then the earlier number, then the lower entry (R103, R133, R154, R208). -/
def servedBefore (num : Entry → Nat) (x y : Nat × Entry) : Bool :=
  let cx := b2n (x.2.qr.cls != 0)
  let cy := b2n (y.2.qr.cls != 0)
  decide (cx < cy) || (cx == cy && (decide (num x.2 < num y.2) || (num x.2 == num y.2 && decide (x.1 < y.1))))

/-- Occupants of a Needle in the order of R103. -/
def State.needleList (s : State) (b n : Nat) : List (Nat × Entry) :=
  insSort (servedBefore (fun x => x.order)) ((s.occupants b).filter (fun x => x.1 / 512 == n))

/-! ## The current space (R121) -/

/-- The ray, or the mapped point, in the current space. -/
def Entry.org (x : Entry) : Vec3 := match x.spaces.getLast? with | some p => p.o | none => x.qr.vec3 0x10
def Entry.dir (x : Entry) : Vec3 := match x.spaces.getLast? with | some p => p.d | none => x.qr.vec3 0x20
/-- FORCE_OPAQUE from the descriptor or an instance on the path (R88). -/
def Entry.force (x : Entry) : Bool := x.qr.forceOpaque || x.spaces.any (fun p => p.opq)
/-- An odd number of FLIP_FACING instances. -/
def Entry.flipped (x : Entry) : Bool := (x.spaces.filter (fun p => p.flip)).length % 2 == 1
/-- The instance path. -/
def Entry.path (x : Entry) : List Nat := x.spaces.map (fun p => p.inst)
/-- The exact map from the query's space (R153). -/
def Entry.aff (x : Entry) : Aff := x.spaces.foldl (fun f p => f.next p.xf) Aff.id

/-- O' and D' of R120. -/
def xfPoint (xf : Nat) (v : Vec3) (move : Bool) : Vec3 :=
  let m := fun r c => w32 xf (4 * (4 * r + c))
  let row := fun r =>
    let a := fAdd (fAdd (fMul (m r 0) v.x) (fMul (m r 1) v.y)) (fMul (m r 2) v.z)
    if move then fAdd a (m r 3) else a
  { x := row 0, y := row 1, z := row 2 }
def Vec3.all (v : Vec3) (p : Nat → Bool) : Bool := p v.x && p v.y && p v.z

/-! ## Bounds (R107, R122, R143) -/

/-- The pruning threshold P (R143). -/
def pruneP (accF : Bool) (r : QRec) : Ext :=
  let eps : Int := fld (r.b32 0x1C) 0 9
  let b := r.bound
  let p := fun (d : Dy) => Ext.fin (d.sub ((d.abs.mul (Dy.ofInt eps)).scale (-8)))
  if accF then (if fInf b then (if fNeg b then .ninf else .pinf) else p (fVal b))
  else if b = 0x7FFFFFFF then .pinf else p (Dy.ofInt (toSigned 32 b))

/-- lim_lo and lim_hi (R122). -/
def Entry.lims (x : Entry) : Nat × Nat := if x.phase = 2 then (x.tlo, x.thi) else (x.qr.b32 0x1C, x.qr.tmax)

/-- Whether a popped entry lies beyond the bound (R107, R143). -/
def Entry.beyond (x : Entry) (accF : Bool) (tkey : Nat) : Bool :=
  if isRay x.qr.kind then (fExt x.lims.2).lt (tkeyVal tkey)
  else if isMetric x.qr.kind then (pruneP accF x.qr).lt (tkeyVal tkey)
  else false

/-! ## Changes of one entry -/

/-- Empties an entry; a retired one stays retired (R372). -/
def State.leave (s : State) (b e : Nat) : State := s.modEnt b e (fun x => { retired := x.retired })

/-- The walk ends with this status before it is complete (R61). -/
def State.failEntry (s : State) (b e st : Nat) : State :=
  s.modEnt b e (fun x => { x with phase := 3, status := some st, item := none, op := none, pqSlot := none, pqTab := [], pqWait := false, waits := [], owed := [], held := [] })

/-- The next item of a walk. -/
def State.setItem (s : State) (b e : Nat) (it : Item) : State :=
  s.modEnt b e (fun x => { x with item := some it, counted := false, waits := [], owed := [], held := [], spaces := x.spaces.filter (fun p => decide (p.level < it.level)),
                                  redescend := if x.redescend ≤ it.level then 0 else x.redescend })

/-- The walk is done (R110, R118): on to the finishing walk, to the repeated test of a valid best register (R56, R119), or to
completion. -/
def State.endWalk (s : State) (b e : Nat) : State :=
  let x := s.ent b e
  let ends := fun (ph tr : Nat) => s.modEnt b e (fun x =>
    { x with phase := ph, item := none, stack := [], dropped := false, pqSlot := none, pqTab := [], pqWait := false, spaces := [], waits := [], owed := [], held := [], qr := { x.qr with trail := tr } })
  let list := match x.slot with | some k => (s.q k).list | none => []
  let single := x.qr.kind == kRayClosest || x.qr.kind == kRayAny
  if x.phase = 0 ∧ ((single ∧ x.qr.haveHit ∧ x.best.isNone) ∨ (x.qr.kind = kKhit ∧ !list.isEmpty)) then ends 1 trailFinishing
  else match x.best with
    | some h =>
      if x.phase = 0 ∧ single ∧ !x.remoteForm then
        (ends 4 x.qr.trail).modEnt b e (fun y =>
          { y with item := some { ty := h.ptype, addr := y.bestLeaf, level := 0 }, spaces := y.bestSpaces, counted := false })
      else ends 3 x.qr.trail
    | none => ends 3 x.qr.trail

/-- After an item is done (R107): pop, restart, or end. -/
def State.walkNext (s : State) (b e : Nat) : State :=
  let x := s.ent b e
  let k := x.slot.getD 0
  let accF := (s.hndOf x.qr.handle).accF
  match popStack x.base (x.beyond accF) x.stack x.qr.trail 0 with
  | (st, t, d, next, done) =>
    let s1 := (s.modEnt b e (fun x => { x with stack := st, qr := { x.qr with trail := t } })).oAdd (0x4200 + b) 5 d
    match next with
    | some p => s1.setItem b e { ty := p.ty, addr := p.addr, level := p.plevel + 1 }
    | none =>
      if done || !x.dropped then s1.endWalk b e
      else ((s1.modEnt b e (fun x => { x with stack := [], dropped := false })).setItem b e (s1.rootItem k)).oInc (0x4200 + b) 3

/-- finish(L), then what follows (R107). -/
def State.finishAt (s : State) (b e lvl : Nat) : State :=
  let x := s.ent b e
  let r := trailFinish x.base lvl x.qr.trail
  let s1 := s.modEnt b e (fun x => { x with qr := { x.qr with trail := r.1 }, redescend := if lvl < x.redescend then 0 else x.redescend })
  if r.2 then s1.endWalk b e else s1.walkNext b e

/-- A node at level lvl has these survivors in visiting order, each with its TKEY (R107). -/
def State.descend (s : State) (b e lvl : Nat) (l : List (Nat × Ref)) : State :=
  let x := s.ent b e
  let t := x.qr.trail
  let j := if lvl < tdepth t then ordAt t lvl else 0
  match l.drop j with
  | [] => s.finishAt b e lvl
  | c :: rest =>
    let push := rest.reverse.foldl (fun (a : List StackE × Nat) p =>
      let r := pushStack a.1 { ty := p.2.ty, plevel := lvl, tkey := p.1, addr := p.2.addr }
      (r.1, a.2 + b2n r.2)) (x.stack, 0)
    let t1 := setOrd t lvl j
    let t2 := if tdepth t ≤ lvl then t1 % 2 ^ 60 + (lvl + 1) % 16 * 2 ^ 60 else t1
    ((s.modEnt b e (fun x => { x with stack := push.1, dropped := x.dropped || push.2 != 0, qr := { x.qr with trail := t2 } })).oAdd (0x4200 + b) 4 push.2).setItem
      b e { ty := c.2.ty, addr := c.2.addr, level := lvl + 1 }

/-! ## Box and instance nodes (R76, R77, R106, R120, R151, R153) -/

/-- The decoded box of child i (R76). -/
def childBox (v i : Nat) : Box :=
  let b := fun (dn : Bool) (o a : Nat) => bound dn (w32 v (4 * a)) (bytesAt v (0xC + a) 1) (bytesAt v (o + 16 * a + i) 1)
  { lo := [b true 0x20 0, b true 0x20 1, b true 0x20 2], hi := [b false 0x50 0, b false 0x50 1, b false 0x50 2] }
/-- LO_a ≤ HI_a on every axis (R77). -/
def childOpen (v i : Nat) : Bool := (List.range 3).all (fun a => decide (bytesAt v (0x20 + 16 * a + i) 1 ≤ bytesAt v (0x50 + 16 * a + i) 1))

/-- A number that names an undecided geometric case: the query and the place. -/
def Entry.tag (x : Entry) (addr i : Nat) : Nat := (x.qr.body * 2 ^ 64 + addr) * 64 + i

/-- The survivors of a box node in visiting order: entry value, slot, reference (R106, R151). -/
def Entry.survivors (x : Entry) (v : Nat) : List (Ext × Nat × Ref) :=
  let ray := isRay x.qr.kind
  let f := if ray then Aff.id else x.aff
  let lim := x.lims
  let lo := fExt lim.1
  let hi := fExt lim.2
  let o := x.org
  let d := x.dir
  let q := x.qr.qshape
  let test := fun (i : Nat) =>
    if boxPresent v i && childOpen v i then
      let bx := childBox v i
      let ent := if ray then slabTest bx o d lo hi
        else if boxMeets f (!x.spaces.isEmpty) q o bx then some (Ext.fin Dy.zero) else none
      match ent, boxChild v i with
      | some t, some r => some (t, i, r)
      | _, _ => none
    else none
  insSort (fun a b => a.1.lt b.1 || (!b.1.lt a.1 && decide (a.2.1 < b.2.1))) ((List.range 16).filterMap test)

/-- A box-node visit completes (R106, R107). -/
def State.visitBox (s : State) (b e v : Nat) : State :=
  let x := s.ent b e
  match x.item with
  | none => s
  | some it =>
    let s1 := (s.modEnt b e (fun x => { x with ops := x.ops + 1 })).oInc (0x4200 + b) 1
    if boxOk (s.hndOf x.qr.handle) v then
      s1.descend b e it.level ((x.survivors v).map (fun p => (if isRay x.qr.kind then tkeyOf p.1 else 0, p.2.2)))
    else s1.failEntry b e stFormat

/-- The space below an instance node, none when it has no survivor (R120, R153). -/
def Entry.enter (x : Entry) (v level : Nat) : Option Space :=
  let xf := bytesAt v 0 48
  let o := xfPoint xf x.org true
  let d := xfPoint xf x.dir false
  let ok :=
    if isRay x.qr.kind then d.all fFin && o.all fFin && !d.all binary32.isZero
    else !xfSingular xf && (x.qr.kind != kPoint || o.all fFin)
  if x.qr.vismask &&& bytesAt v 0x33 1 ≠ 0 ∧ ok then
    some { level := level, inst := fld (w32 v 0x30) 0 24, flip := bit (w32 v 0x34) 1, opq := bit (w32 v 0x34) 0, xf := xf, o := o, d := d }
  else none

/-- An instance-node visit completes (R120, R121). -/
def State.visitInst (s : State) (b e v : Nat) : State :=
  let x := s.ent b e
  match x.item with
  | none => s
  | some it =>
    let s1 := (s.modEnt b e (fun x => { x with ops := x.ops + 1 })).oInc (0x4200 + b) 1
    if !instOk (s.hndOf x.qr.handle) v || decide (4 ≤ x.spaces.length) then s1.failEntry b e stFormat
    else match x.enter v it.level, longRef (bytesAt v 0x38 8) with
      | some sp, some r =>
        let s2 := s1.modEnt b e (fun x => { x with spaces := x.spaces ++ [sp] })
        s2.descend b e it.level [(0, r)]
      | _, _ => s1.finishAt b e it.level

/-! ## Reads for an entry (R103) -/

/-- The sectors that a read of n sectors touches, as far as they translate. -/
def State.sectorsOf (s : State) (c a n : Nat) (held : List (Nat × Trans) := []) : List (Nat × Nat) :=
  (List.range n).filterMap (fun i => (s.reachHeld c (a + 64 * i) held).map (fun t => (t.port, t.pa / 64)))

/-- The translations of a read of n sectors, added to those that stand already (R298). -/
def State.holdTrans (s : State) (c a n : Nat) (held : List (Nat × Trans)) : List (Nat × Trans) :=
  (List.range n).foldl (fun l i =>
    let p := a / 64 + i
    if l.any (fun e => e.1 == p) then l
    else match s.reach c (64 * p) .xi with | some t => l ++ [(p, t)] | none => l) held

/-- Whether a sector is on its way to the node cache of Bobbin b (R309). -/
def State.arriving (s : State) (b : Nat) (w : Nat × Nat) : Bool :=
  match (s.ncGet b (ncSetOf (w.2 / 4))).look w.1 (w.2 / 4) with
  | some x => x.filling && !bit x.valid (w.2 % 4)
  | none => false

/-- Whether an item or handoff waits for a sector: its query is not ready (R103). -/
def State.stillWaits (s : State) (b : Nat) (x : Entry) : Bool := x.waits.any (fun w => s.arriving b w)

/-- Reads n sectors for the query in an entry; while they are missing the entry waits for them. A line whose fill was in flight
counts as one merge (R309, R330). The translations made stand (R298). -/
def State.entRead (s : State) (b e a n : Nat) : Got × State :=
  let x := s.ent b e
  let c := x.qr.ctx
  let secs := s.sectorsOf c a n x.held
  let join := (secs.filter (fun w => s.arriving b w && !x.waits.any (fun v => v.1 == w.1 && v.2 / 4 == w.2 / 4))).map (fun w => (w.1, w.2 / 4))
  let s0 := s.oAdd (0x4340 + b) 6 join.eraseDups.length
  match s0.ncRead b c x.qr.stream x.qr.handle a n x.owed x.held with
  | (.wait, s1) => (.wait, s1.modEnt b e (fun x => { x with waits := x.waits ++ secs.filter (fun w => !x.waits.contains w), held := s.holdTrans c a n x.held }))
  | r => r

/-- Reads several ranges, asking for all of them. -/
def State.entReads (b e : Nat) : List (Nat × Nat) → State → Option (List Nat) × Bool × State
  | [], s => (some [], false, s)
  | (a, n) :: r, s =>
    match s.entRead b e a n with
    | (.fault, s1) => (none, true, s1)
    | (g, s1) =>
      match State.entReads b e r s1 with
      | (_, true, s2) => (none, true, s2)
      | (l, false, s2) => (match g, l with | .bytes v, some vs => some (v :: vs) | _, _ => none, false, s2)

/-- As entRead for a Needle's node access, counted once for each item (R189, R331). -/
def State.itemRead (s : State) (b e a n : Nat) : Got × State :=
  let first := !(s.ent b e).counted
  let s0 := s.modEnt b e (fun x => { x with counted := true, waits := [] })
  match s0.entRead b e a n with
  | (.bytes v, s1) => (.bytes v, if first then s1.oInc (0x4340 + b) 1 else s1)
  | (g, s1) => (g, if first then s1.oInc (0x4340 + b) 2 else s1)

/-! ## Write-back (R28, R114, R119, R188) -/

/-- The trail a write-back leaves: FINISHING once the main walk has ended (R119, R134). -/
def Entry.parkTrail (x : Entry) : Nat := if x.phase = 1 ∨ x.phase = 2 ∨ x.phase = 4 then trailFinishing else x.qr.trail
/-- The next item reported with it (R188), 0 for ROOT: the item at hand once the walk is at its trail's depth. While it comes back to there
(R109, R112) the item that its trail names is the one reported before, `kept`, and after a restart inside the activation the Needle does
not hold it (DEDUCED; log 77). -/
def Entry.parkNext (x : Entry) (kept : Nat) : Nat :=
  if x.phase ≠ 0 ∨ x.qr.trail = 0 then 0
  else match x.item with
    | some it => if tdepth x.qr.trail ≤ it.level then it.addr else if x.redescend ≠ 0 then kept else 0
    | none => 0

/-- Writes the query of an entry back to its parking slot, releases its records, and empties the entry. -/
def State.parkBack (s : State) (b e trail next : Nat) : State :=
  let x := s.ent b e
  match x.slot with
  | none => s
  | some k =>
    let s1 := s.modQ k (fun q => { q with qr := { x.qr with trail := trail }, nextItem := next, extDirty := false,
                                          remoteHit := if x.best.isSome && !x.remoteForm then {} else q.remoteHit })
    (s1.releaseOut k x.pend x.samples).leave b e

/-- Room for what a write-back would release (R249); traced records need none. -/
def State.releaseFits (s : State) (b e : Nat) : Bool :=
  let x := s.ent b e
  match x.slot with
  | some k => (s.q k).served.isSome || s.rbRoom x.qr.ctx x.qr.stream (recsSize x.pend)
  | none => true

/-- A query meets the stub of another home (R93, R358): its activation ends there, and it waits to be sent. One that came
with HOPS = 3 fails (R358). -/
def State.toRemote (s : State) (b e home : Nat) (root : Ref) (lvl : Nat) : State :=
  let x := s.ent b e
  match x.slot with
  | none => s
  | some k =>
    let q := s.q k
    if (match q.served with | some v => decide (3 ≤ v.hops) | none => false) then s.failEntry b e stMigration
    else if !s.releaseFits b e then s.rbStop x.qr.ctx x.qr.stream
    else
      let fin := x.phase == 2
      let m : MigInfo := { home := home, root := root.addr + root.ty, level := lvl, path := x.spaces.map (fun p => (p.inst, p.flip)),
                           opq := x.spaces.any (fun p => p.opq), o := x.org, d := x.dir, closed := fin, tlo := x.tlo, thi := x.thi,
                           next := if fin then 0 else (x.stack.head?.map (fun p => p.addr)).getD 0 }
      (s.parkBack b e x.qr.trail 0).modQ k (fun q => { q with place := .remote, mig := some m, fin := if fin then some x.collected else none })

/-! ## Conditions of a leaf (R116, R147, R171, R359) -/

/-- Entries of the pending-record buffer that records take: a hit or a sample one, two neighbour records one (R116, R147, R171). -/
def pendSize (p : List Rec) (sm : List Sample) : Nat :=
  (p.filter (fun r => match r with | .nbr _ => false | _ => true)).length +
    ((p.filter (fun r => match r with | .nbr _ => true | _ => false)).length + 1) / 2 + sm.length

/-- Entries of a Needle's pending-record buffer in use, with those that leaves in flight hold. -/
def State.pendUse (s : State) (b n : Nat) : Nat :=
  ((s.occupants b).filter (fun x => x.1 / 512 == n)).foldl (fun a x =>
    a + (match x.2.op with
      | some h => max (pendSize h.loc.pend h.loc.samples) (pendSize x.2.pend x.2.samples + h.hold)
      | none => pendSize x.2.pend x.2.samples)) 0

/-- Entries that a leaf needs free before it starts: 16, or as many as a vector block or a traced network leaf may take; `v` is its first
sector. -/
def Entry.leafHold (x : Entry) (ty v : Nat) : Nat :=
  let r := x.qr
  if x.phase ≠ 0 then 0
  else if r.kind = kRayAll ∨ r.kind = kOverlap ∨ r.kind = kPoint then 16
  else if r.kind = kRadius ∧ ty = 0xA then (bytesAt v 0 2 + 1) / 2
  else if r.trace ∧ ty = 8 then bytesAt v 4 2
  else 0

/-- The walk of a served query stops for want of reserved records (R359). -/
def Served.stop (v : Served) : Served := { v with partial_ := true }

/-- What stands in the way of starting a leaf. -/
inductive LeafGate where
  | open_ | wait | park | partial_
  deriving DecidableEq, Repr

/-- Whether the leaf of an entry may start; `v` is its first sector. A traced network leaf whose MAXIT no leaf can have starts, and faults
(R160). -/
def State.leafGate (s : State) (b e ty v : Nat) : LeafGate :=
  let x := s.ent b e
  let r := x.qr
  let free := 1024 - s.pendUse b (e / 512)
  let recs := x.phase = 0 ∧ (r.kind = kRayAll ∨ r.kind = kOverlap ∨ r.kind = kPoint)
  let full := match x.slot with
    | some k => (match (s.q k).served with
      | some sv => (isStreamed r.kind || r.trace) && decide (sv.rcap < sv.sent + 512)
      | none => false)
    | none => false
  if full && x.phase != 4 then .partial_
  else if recs ∧ (16 ≤ x.pend.length ∨ free < 16) then .park
  else if r.kind = kRadius ∧ ty = 0xA then
    (if !x.pend.isEmpty then .park else if free < x.leafHold ty v then .wait else .open_)
  else if r.trace ∧ ty = 8 ∧ x.phase = 0 then
    (if !x.samples.isEmpty then .park else if free < x.leafHold ty v ∧ bytesAt v 4 2 ≤ 256 then .wait else .open_)
  else .open_

/-- Handoffs waiting or running in the Baste queue of a Bobbin (R208). -/
def State.basteQueue (s : State) (b : Nat) : List (Nat × Entry) :=
  (s.occupants b).filter (fun x => match x.2.op with | some h => h.unit == 3 && h.engine.isNone | none => false)

/-! ## Table slots (R149, R174) -/

/-- KiB of PQ tables in a bank; a bank holds 96. -/
def State.pqUse (s : State) (b bank : Nat) : Nat :=
  (s.occupants b).foldl (fun a x => match x.2.pqSlot with
    | some k => if k = bank ∨ k = 2 then a + (s.hndOf x.2.qr.handle).pqM else a
    | none => a) 0

/-- The bank in which a table of m KiB can be built, 2 for one that spans both (R149). A pending bank takes none (R174). -/
def State.pqBank (s : State) (b m : Nat) : Option Nat :=
  let v := s.bobOf b
  let open_ := fun i => bit v.pqBanks i && !bit v.pendBanks i
  if m = 128 then (if open_ 0 && open_ 1 && s.pqUse b 0 == 0 && s.pqUse b 1 == 0 then some 2 else none)
  else firstIdx 2 (fun i => open_ i && decide (s.pqUse b i + m ≤ 96))

/-- The bank in which an entry is given a table slot now: none while none is free, or while a waiting query that goes before it can take it
(R149). -/
def State.pqFor (s : State) (b e : Nat) : Option Nat :=
  let m := fun (x : Entry) => (s.hndOf x.qr.handle).pqM
  if (s.occupants b).any (fun y => y.1 != e && y.2.pqWait && (s.pqBank b (m y.2)).isSome && servedBefore (fun x => x.order) y (e, s.ent b e)) then none
  else s.pqBank b (m (s.ent b e))

/-! ## The pick of R103 -/

/-- The unit a leaf goes to: 1 intersector, 2 leaf array, 3 Baste. -/
def leafUnit (ty : Nat) : Nat := if 3 ≤ ty ∧ ty ≤ 6 then 1 else if ty = 7 then 3 else 2

/-- Sectors that a ready query needs of its next item. -/
def itemSectors (ty : Nat) : Nat := if ty = 1 then 3 else if ty = 9 then 4 else 1

/-- Looks at the next item of an entry: its bytes when the query is ready. A missing item is asked for; a stub is resolved
(R93); an item that cannot be walked ends the query. -/
def State.tryItem (b e : Nat) : (fuel : Nat) → State → State × Option Nat
  | 0, s => (s, none)
  | f + 1, s =>
    let x := s.ent b e
    match x.item with
    | none => (s, none)
    | some it =>
      if ((it.ty = 1 ∨ it.ty = 2 ∨ it.ty = 9) ∧ 15 ≤ it.level) ∨ (it.ty = 9 ∧ it.addr % 256 ≠ 0) then (s.failEntry b e stFormat, none)
      else if (it.ty = 8 ∨ it.ty = 9 ∨ it.ty = 0xA) ∧ !s.arrayOk b then (s, none)
      else match s.itemRead b e it.addr (itemSectors it.ty) with
        | (.wait, s1) => (s1, none)
        | (.fault, s1) => (s1.failEntry b e stWindow, none)
        | (.bytes v, s1) =>
          if it.ty = 0xB then
            match stubOf (s1.hndOf x.qr.handle) v with
            | none => (s1.failEntry b e stFormat, none)
            | some (home, r) =>
              if home = (s1.hndOf x.qr.handle).self then State.tryItem b e f (s1.setItem b e { ty := r.ty, addr := r.addr, level := it.level })
              else (s1.toRemote b e home r it.level, none)
          else if it.ty = 1 ∨ it.ty = 2 ∨ it.ty = 9 then (s1, some v)
          else if it.ty = 7 ∧ 32 ≤ (s1.basteQueue b).length then (s1, none)
          else if it.ty = 0xA ∧ bit v 16 ∧ x.pqSlot = none ∧ s1.pqFor b e = none then
            (s1.modEnt b e (fun x => { x with pqWait := true }), none)
          else match s1.leafGate b e it.ty v with
            | .open_ => (s1, some v)
            | .partial_ =>
              let s2 := (match x.slot with
                | some k => s1.modQ k (fun q => { q with served := q.served.map Served.stop })
                | none => s1)
              (s2.modEnt b e (fun x => { x with phase := 3, item := none, pqSlot := none }), none)
            | _ => (s1, none)

/-- Whether an entry can issue, its data apart (R103, R249, R374, R474). -/
def State.mayIssue (s : State) (b : Nat) (x : Entry) : Bool :=
  s.ncOn && x.op.isNone && !x.relWait && !s.stillWaits b x && (x.phase == 0 || x.phase == 2 || x.phase == 4) && x.item.isSome && s.inService b &&
  (match x.slot with | some k => (s.q k).kill.isNone && !(s.ctxOf x.qr.ctx).aborting | none => false)

/-- The first ready query of a list of entries, with the bytes of its item. -/
def State.firstReady (b : Nat) : List Nat → State → State × Option (Nat × Nat)
  | [], s => (s, none)
  | e :: r, s =>
    match s.tryItem b e 2 with
    | (s1, some v) => (s1, some (e, v))
    | (s1, none) => State.firstReady b r s1

/-- What a Needle picks (R103). -/
def State.pick (s : State) (b n : Nat) : State × Option (Nat × Nat) :=
  if b < 48 ∧ n < 16 ∧ s.run ∧ s.bobRuns b then
    s.firstReady b (((s.needleList b n).filter (fun x => s.mayIssue b x.2)).map (fun x => x.1))
  else (s, none)

/-- The picked entry if its item is of a wanted type. -/
def State.pickOf (s : State) (b n : Nat) (p : Nat → Bool) : State × Option (Nat × Nat) :=
  match s.pick b n with
  | (s1, some (e, v)) =>
    (match (s1.ent b e).item with
     | some it => (s1, if p it.ty then some (e, v) else none)
     | none => (s1, none))
  | r => r

/-! ## Handoffs -/

/-- The local copy a handoff starts with (R211). -/
def State.startLoc (s : State) (x : Entry) : Loc :=
  let q := s.q (x.slot.getD 0)
  let r := x.qr
  { tmax := r.tmax, haveHit := r.haveHit, best := x.best, bestW := if r.kind = 1 ∧ r.trace then q.tbest else r.w38, bestInst := r.w0c,
    bestT := if r.kind = 2 then q.anyT else r.tmax, list := q.list, bound := r.bound, collected := x.collected, pend := x.pend,
    samples := x.samples }

/-- The primitive a handoff starts with: the registered one for a repeated test (R119). -/
def Entry.firstPrim (x : Entry) : Nat := if x.phase = 4 then (x.best.map (fun h => h.idx)).getD 0 else 0

/-- Issues a handoff for the item of an entry (R103), whose first sector is `v`; the query of a PQ block takes its table slot (R149). -/
def State.handoff (s : State) (b e v : Nat) : State :=
  let x := s.ent b e
  match x.item with
  | none => s
  | some it =>
    let t := ((if it.ty = 8 then s.began (0x4280 + b) 6 else if it.ty = 0xA then s.began (0x4240 + b) 6 else s).began (0x42C0 + b) 8).tick
    let pq := if it.ty = 0xA ∧ bit v 16 ∧ x.pqSlot = none then s.pqFor b e else x.pqSlot
    (t.2.modEnt b e (fun y => { y with ops := y.ops + 1, pqSlot := pq, pqWait := false, op := some { unit := leafUnit it.ty, order := t.1, step := x.firstPrim, hold := x.leafHold it.ty v, loc := s.startLoc x } })).oInc (0x4200 + b) 2

end Sys2Proof.Machine
end

