-- ==== Sys2Proof/Machine/Isect.lean ====
section
/-! DEFINITION. Candidates and their acceptance (R115 to R118, R145, R147, R152), opacity and filters (R88, R210, R211), the
primitive intersector (R133), and what ends a handoff (R104). -/

namespace Sys2Proof.Machine

/-! ## Intervals and admission (R115, R117, R118, R129) -/

/-- The interval in which a candidate may lie, for a handoff's local copy. -/
def Entry.ival (x : Entry) (l : Loc) : Ival :=
  if x.phase = 2 then { lo := x.tlo, loC := true, hi := x.thi, hiC := true }
  else { lo := x.qr.b32 0x1C, loC := false, hi := l.tmax, hiC := x.qr.kind == kRayClosest && l.best.isSome }

/-- The interval check of R115 with the equal-t rule of R117. -/
def Entry.admits (x : Entry) (l : Loc) (h : Hit) : Bool :=
  (x.ival l).has h.t &&
  (x.phase == 2 || x.qr.kind != kRayClosest || !fEq h.t l.tmax || (match l.best with | some b => keyLt h b | none => false))

/-- PRIM and GEOM as one word, and BEST_INST (R53). -/
def Hit.primw (h : Hit) : Nat := h.prim % 2 ^ 44 + h.geom % 2 ^ 20 * 2 ^ 44
def Hit.instw (h : Hit) : Nat := (h.path.getLast?).getD 0xFFFFFF % 2 ^ 24 + h.path.length % 8 * 2 ^ 24 + h.ptype % 16 * 2 ^ 28
/-- The INST word of a hit record (R55). -/
def Hit.inst (h : Hit) : Nat := h.instw + b2n h.front * 2 ^ 27
/-- The hit record of a hit (R55). -/
def Hit.record (h : Hit) (r : QRec) (ord : Nat) : Rec := .hit (hitBytes r.seq h.t h.primw h.inst h.u h.v 0 (2 + r.rflags) ord)

/-- Results a query has released or holds pending. -/
def Loc.count (l : Loc) (r : QRec) : Nat := r.w38 / 2 ^ 32 + l.pend.length

/-- Inserts into a list in ascending t, after entries of equal t (R115). -/
def insT (l : List LEntry) (x : LEntry) : List LEntry :=
  match l with
  | [] => [x]
  | y :: r => if fLt x.t y.t then x :: y :: r else y :: insT r x

/-- Inserts into the collected hits by key; a key already there takes no place (R118). -/
def insKey (l : List Hit) (h : Hit) : List Hit :=
  match l with
  | [] => [h]
  | y :: r => if keyEq h y then y :: r else if keyLt h y then h :: y :: r else y :: insKey r h

/-- K of the finishing buffer (R118). -/
def QRec.finK (r : QRec) : Nat := if r.kind = kKhit then r.km1 + 1 else 1

/-- Whether a hit is the BEST of a RAY_ANY query (R118). -/
def Loc.isBest (l : Loc) (h : Hit) : Bool := fEq h.t l.bestT && h.primw == l.bestW && fld h.instw 0 27 == fld l.bestInst 0 27

/-- An accepted candidate of a ray kind acts on the local copy (R115, R118). -/
def Entry.accept (x : Entry) (l : Loc) (h : Hit) : Loc :=
  let r := x.qr
  if x.phase = 2 then
    if r.kind = kRayAny ∧ l.isBest h then { l with collected := [h], ended := true }
    else { l with collected := (insKey l.collected h).take r.finK }
  else match r.kind with
    | 1 => { l with best := some h, haveHit := true, tmax := h.t, bestW := h.primw, bestInst := h.instw, bestT := h.t, extChanged := l.extChanged || r.trace }
    | 2 => { l with best := some h, haveHit := true, bestW := h.primw, bestInst := h.instw, bestT := h.t, ended := true }
    | 3 =>
      let m := (insT l.list { t := h.t, w := h.instw, id := h.primw }).take (r.km1 + 1)
      { l with list := m, haveHit := true, extChanged := true,
               tmax := if m.length = r.km1 + 1 then ((m.getLast?).map (fun y => y.t)).getD l.tmax else l.tmax }
    | _ => { l with pend := l.pend ++ [h.record r (l.count r)] }

/-- The attributes that a repeated test gives the best hit (R56). -/
def Loc.again (l : Loc) (u v : Nat) (front : Bool) : Loc :=
  { l with best := l.best.map (fun h => { h with u := u, v := v, front := front }) }

/-- A result of a shape query, or a neighbour, is recorded unless LIMIT is reached (R147, R152). -/
def Entry.addStreamed (x : Entry) (l : Loc) (mk : Nat → Rec) : Loc :=
  let n := l.count x.qr
  if x.qr.w0c ≠ 0 ∧ x.qr.w0c ≤ n then { l with ended := true, truncated := true }
  else { l with pend := l.pend ++ [mk n] }

/-- A primitive that meets a shape query's shape (R152). -/
def Entry.shapeHit (x : Entry) (l : Loc) (ptype prim geom : Nat) : Loc :=
  let h : Hit := { t := 0, ptype := ptype, prim := prim, geom := geom, path := x.path }
  x.addStreamed l (fun n => h.record x.qr n)

/-! ## Opacity (R88, R210) -/

/-- The resolved FILTER program of a query (R210). -/
def State.filterProg (s : State) (x : Entry) : Nat := if x.qr.filter ≠ 0 then x.qr.filter else (s.hndOf x.qr.handle).defFilter

/-- What follows from an opacity state: the candidate is accepted, rejected, or goes to a filter. -/
inductive Verdict where
  | accept | reject | filter
  deriving DecidableEq, Repr

/-- The verdict of a state under FORCE_OPAQUE and the resolved program (R88, R210). -/
def verdict (force : Bool) (prog st : Nat) : Verdict :=
  let t := forceState force st
  if t = opOpaque then .accept
  else if t = opTransparent then .reject
  else if prog = 0 then (if t = opUnkOpaque then .accept else .reject)
  else .filter

/-! ## The end of a handoff (R104, R211) -/

/-- A query leaves its entry with a status decided elsewhere (R67, R476): what it had pending is released, and an aborted
one is dropped without a record. -/
def State.endKilled (s : State) (b e k st : Nat) : State :=
  if st = stAborted then
    let s1 := s.leave b e
    match (s.q k).served with
    | some _ => s1.answerEnd k stAborted
    | none => s1.freeQuery k
  else (s.failEntry b e st)

/-- Acts on a kill mark at an operation boundary. A status that the walk has met stands where R61 puts it first; an abort leaves none (R30,
R476). -/
def State.boundary (s : State) (b e : Nat) : State :=
  match (s.ent b e).slot with
  | none => s
  | some k => match (s.q k).kill with
    | some st =>
      let met := match (s.ent b e).status with | some y => st != stAborted && decide (statusRank y ≤ statusRank st) | none => false
      if (s.ent b e).op.isNone && !met then s.endKilled b e k st else s
    | none => s

/-- The record takes the local copy (R211). -/
def State.takeLoc (s : State) (b e : Nat) (l : Loc) : State :=
  let x := s.ent b e
  let r := x.qr
  let body1 := if isRay r.kind then putBytes r.body 0x1C 4 l.tmax else if isMetric r.kind then putBytes r.body 0x10 4 l.bound else r.body
  let w38 := if r.kind = 2 ∨ (r.kind = 1 ∧ !r.trace) then l.bestW
    else if r.kind = 3 ∨ r.kind = 5 then setFld r.w38 24 9 l.list.length else r.w38
  let r1 := { r with body := body1, haveHit := l.haveHit, w38 := w38, w0c := if r.kind = 1 ∨ r.kind = 2 then l.bestInst else r.w0c }
  let s1 := s.modEnt b e (fun y =>
    { y with qr := r1, remoteForm := y.remoteForm && decide (l.best = y.best), best := l.best,
             bestLeaf := if l.best = y.best then y.bestLeaf else (y.item.map (fun i => i.addr)).getD 0,
             bestSpaces := if l.best = y.best then y.bestSpaces else y.spaces, collected := l.collected, pend := l.pend,
             samples := l.samples, truncated := y.truncated || l.truncated })
  match x.slot with
  | none => s1
  | some k => s1.modQ k (fun q => { q with list := if r.kind = 3 ∨ r.kind = 5 then l.list else q.list,
                                           tbest := if r.kind = 1 ∧ r.trace then l.bestW else q.tbest,
                                           anyT := if r.kind = 2 then l.bestT else q.anyT, extDirty := q.extDirty || l.extChanged })

/-- A leaf handoff completes: its copy is applied, and the walk goes on or ends (R107, R110). -/
def State.leafDone (s : State) (b e : Nat) (l : Loc) : State :=
  let x := s.ent b e
  let lvl := (x.item.map (fun i => i.level)).getD 0
  let s1 := (s.takeLoc b e l).modEnt b e (fun y => { y with op := none, waits := [], owed := [], held := [] })
  (if l.ended ∨ x.phase = 4 then s1.endWalk b e else s1.finishAt b e lvl).boundary b e

/-- A handoff ends with a fault: the record keeps what it was (R213). -/
def State.leafFault (s : State) (b e st : Nat) : State := (s.failEntry b e st).boundary b e

/-- A handoff is stopped and applies nothing; the trail still names the leaf (R213, R374). -/
def State.leafStop (s : State) (b e : Nat) : State := (s.modEnt b e (fun y => { y with op := none, waits := [], owed := [], held := [] })).boundary b e

/-- Keeps the state of a handoff that goes on later. -/
def State.leafKeep (s : State) (b e : Nat) (h : Handoff) : State := s.modEnt b e (fun y => { y with op := some h })

/-! ## The primitive intersector (R133) -/

/-- What one primitive does to a handoff. -/
inductive PrimStep where
  /-- The copy after it. -/
  | next (l : Loc)
  /-- A filter is due. -/
  | filter (h : Hit) (st : Nat)
  | wait
  | fault (st : Nat)
  deriving DecidableEq, Repr

/-- Primitive i of a block on a ray query: the test, the interval, the opacity (R115). -/
def State.rayPrim (s : State) (b e ty addr v m i : Nat) (l : Loc) : PrimStep × State :=
  let x := s.ent b e
  match primTest ty v i x.org x.dir (x.ival l) with
  | none => (.next l, s)
  | some (t, u, w, fr) =>
    let h : Hit := { t := t, ptype := ty, prim := lfPrim v + i, geom := lfGeom v, path := x.path, front := fr != x.flipped, u := u, v := w, idx := i }
    if !x.admits l h then (.next l, s)
    else
      let act := fun (s : State) (st : Nat) => match verdict x.force (s.filterProg x) st with
        | .accept => (PrimStep.next (x.accept l h), s)
        | .reject => (PrimStep.next l, s)
        | .filter => (PrimStep.filter h st, s)
      if ty = 6 then (.next (x.accept l h), s)
      else if ty = 3 ∧ lfMap v then
        match mapState (addr + 64 * lfSize v) m i u w with
        | .state st => act s st
        | .data a bt =>
          match s.entRead b e (a / 64 * 64) 1 with
          | (.bytes d, s1) => act s1 (fld (bytesAt d (a % 64) 1) bt 2)
          | (.wait, s1) => (.wait, s1)
          | (.fault, s1) => (.fault stWindow, s1)
      else act s (if lfOpaque v then opOpaque else opUnkOpaque)

/-- Runs the primitives of a block from number i on: the handoff's state, and what stopped it. -/
def State.primLoop (b e ty addr v m : Nat) : (fuel i : Nat) → Loc → State → (Loc × Nat × Option PrimStep) × State
  | 0, i, l, s => ((l, i, none), s)
  | f + 1, i, l, s =>
    let x := s.ent b e
    if l.ended then ((l, i, none), s)
    else if isRay x.qr.kind then
      match s.rayPrim b e ty addr v m i l with
      | (.next l1, s1) => State.primLoop b e ty addr v m f (i + 1) l1 s1
      | (p, s1) => ((l, i, some p), s1)
    else
      let hit := primMeets ty v i x.aff x.qr.qshape x.org (x.tag addr (i + 16))
      State.primLoop b e ty addr v m f (i + 1) (if hit then x.shapeHit l ty (lfPrim v + i) (lfGeom v) else l) s

/-- Goes on with a block handoff whose bytes are in: to its end, to a filter, or until map data arrive. A repeated test is of the registered
primitive alone (R119). -/
def State.blockRun (s : State) (b e : Nat) (h : Handoff) (ty addr v m : Nat) : State :=
  let x := s.ent b e
  if x.phase = 4 then
    s.leafDone b e (match primTest ty v h.step x.org x.dir (x.ival h.loc) with
      | some (_, u, w, fr) => h.loc.again u w (fr != x.flipped)
      | none => h.loc)
  else match s.primLoop b e ty addr v m (lfCount v - h.step) h.step h.loc with
  | ((l, _, none), s1) => s1.leafDone b e l
  | ((l, i, some (.filter c st)), s1) =>
    if h.engine.isSome ∨ (s1.basteQueue b).length < 32 then
      s1.leafKeep b e { h with loc := l, step := i, cand := some (c, st), unit := 3, block := some v, map := m }
    else s1.leafKeep b e { h with loc := l, step := i, block := some v, map := m }
  | ((_, _, some (.fault st)), s1) => s1.leafFault b e st
  | ((l, i, some _), s1) => s1.leafKeep b e { h with loc := l, step := i, block := some v, map := m }

/-- The bytes of a block are in: its checks, the counts, the tests. -/
def State.blockStart (s : State) (b e : Nat) (h : Handoff) (ty addr v : Nat) : State :=
  let n := if (s.ent b e).phase = 4 then 1 else lfCount v
  let m := if ty = 3 ∧ lfMap v then bytesAt v (64 * lfSize v) 64 else 0
  let blk := bytesAt v 0 (64 * lfSize v)
  if !blockOk ty blk || (ty == 3 && lfMap v && !mapOk m (lfCount v)) then s.leafFault b e stFormat
  else
    let s1 := if ty = 3 then s.oAdd (0x4200 + b) 7 n else s
    let s2 := if isRay (s.ent b e).qr.kind then s1 else s1.oAdd (0x4240 + b) 9 n
    s2.blockRun b e h ty addr blk m

/-- Reads a whole block for a handoff: the head, then as many units as it names. -/
def State.blockRead (s : State) (b e ty addr : Nat) : Got × State :=
  match s.entRead b e addr 1 with
  | (.bytes hd, s1) => if headOk ty hd then s1.entRead b e addr (leafUnits ty hd) else (.bytes hd, s1)
  | r => r

/-- One handoff of the intersector goes on; false when it waits. -/
def State.isectOne (s : State) (b e : Nat) : State × Bool :=
  let x := s.ent b e
  let wait := s.stillWaits b x
  let s := if wait then s else s.modEnt b e (fun y => { y with waits := [] })
  match x.op, x.item with
  | some h, some it =>
    if wait then (s, false)
    else match h.block with
    | some v => let s1 := s.blockRun b e h it.ty it.addr v h.map
      (s1, (s1.ent b e).op != some h)
    | none =>
      (match s.blockRead b e it.ty it.addr with
       | (.bytes v, s1) =>
         if headOk it.ty v then (s1.blockStart b e h it.ty it.addr v, true) else (s1.leafFault b e stFormat, true)
       | (.wait, s1) => (s1, false)
       | (.fault, s1) => (s1.leafFault b e stWindow, true))
  | _, _ => (s, false)

/-- Handoffs of a Bobbin's unit in the order it serves them (R133, R154, R208). -/
def State.queueOf (s : State) (b unit : Nat) : List Nat :=
  (insSort (servedBefore (fun x => match x.op with | some h => h.order | none => 0))
    ((s.occupants b).filter (fun x => match x.2.op with | some h => h.unit == unit && h.engine.isNone | none => false))).map (fun x => x.1)

/-- Serves the first handoff of a list that can go on. -/
def State.serve (one : State → Nat → State × Bool) : List Nat → State → State
  | [], s => s
  | e :: r, s => match one s e with
    | (s1, true) => s1
    | (s1, false) => State.serve one r s1

/-- The intersector returns a block's candidates, which are applied (R133). -/
def State.isectResult (s : State) (b : Nat) : State :=
  if b < 48 ∧ s.bobRuns b then State.serve (fun s e => s.isectOne b e) (s.queueOf b 1) s else s

end Sys2Proof.Machine
end

