-- ==== Sys2Proof/Machine/Metric.lean ====
section
/-! DEFINITION. Metric search (chapter Metric search): contract distances (R137 to R139), lower bounds and pruning evaluated
exactly (R141, R143), metric nodes (R140), vector blocks and lists (R144 to R147), product quantisation (R148, R149). -/

namespace Sys2Proof.Machine

/-! ## Contract distances (R138) -/

/-- Sums of neighbours. -/
def pairUp : List Nat → List Nat
  | a :: b :: r => fAdd a b :: pairUp r
  | l => l
/-- The fixed pairwise tree over 64 values. -/
def treeSum (l : List Nat) : Nat :=
  (pairUp (pairUp (pairUp (pairUp (pairUp (pairUp (l ++ List.replicate (64 - l.length) 0))))))).headD 0
/-- The sums of chunks of 64. -/
def chunkSums : (fuel : Nat) → List Nat → List Nat
  | 0, _ => []
  | _, [] => []
  | f + 1, l => treeSum (l.take 64) :: chunkSums f (l.drop 64)

/-- One product or squared difference in FP32. -/
def accTerm (diff : Bool) (a b : Nat) : Nat := if diff then fMul (fSub a b) (fSub a b) else fMul a b

/-- The contract value acc over decoded elements: an FP32 pattern (R138). -/
def accFp (diff : Bool) (q x : List Nat) : Nat :=
  match chunkSums (q.length + 1) ((q.zip x).map (fun p => accTerm diff p.1 p.2)) with
  | [] => 0
  | s :: r => r.foldl fAdd s
/-- The exact sum of INT8 indexes. -/
def accInt (diff : Bool) (q x : List Nat) : Int :=
  ((q.zip x).map (fun p => let a := (fVal p.1).floor; let b := (fVal p.2).floor; if diff then (a - b) * (a - b) else a * b)).foldl (· + ·) 0

/-- Decoded elements as FP32; none for a NaN or an infinity (R137). -/
def decodeElems (vfmt : Nat) (l : List Nat) : Option (List Nat) := l.mapM (elem32 vfmt)
/-- The first n elements of a run of bytes. -/
def Handle.elems (h : Handle) (bytes n : Nat) : List Nat := (List.range n).map (fun i => h.elem bytes i)

/-- METRIC 0, or not (R139). -/
def Handle.diff (h : Handle) : Bool := h.metricKind == 0
/-- The inner-product metric, which METRIC 2 is too with ACC = 0 (R139). -/
def Handle.inner (h : Handle) : Bool := h.metricKind == 1 || (h.metricKind == 2 && !h.accF)

/-- acc as a 32-bit pattern. -/
def Handle.acc (h : Handle) (diff : Bool) (q x : List Nat) : Nat := if h.accF then accFp diff q x else ofInt 32 (accInt diff q x)
/-- The distance from acc (R138, R148); none for a NaN. -/
def Handle.distOf (h : Handle) (a : Nat) : Option Nat :=
  let d := if h.metricKind = 0 then a
    else if h.inner then (if h.accF then fFlip a else ofInt 32 (-(toSigned 32 a)))
    else fSub 0x3F800000 a
  if h.accF && (fNan a || fNan d) then none else some d

/-- Comparisons of distances. -/
def distLt (accF : Bool) (a b : Nat) : Bool := if accF then fLt a b else decide (toSigned 32 a < toSigned 32 b)
def distEq (accF : Bool) (a b : Nat) : Bool := if accF then fEq a b else a == b
def distLe (accF : Bool) (a b : Nat) : Bool := distLt accF a b || distEq accF a b

/-! ## Exact sums of square roots -/

/-- A number u + v √p, nested: the radicands stand in a list, outermost first. -/
inductive Rad where
  | c (d : Dy)
  | ext (u v : Rad)
  deriving DecidableEq, Repr

def Rad.zero : (ps : List Dy) → Rad
  | [] => .c Dy.zero
  | _ :: r => .ext (Rad.zero r) (Rad.zero r)
def Rad.const : (ps : List Dy) → Dy → Rad
  | [], d => .c d
  | _ :: r, d => .ext (Rad.const r d) (Rad.zero r)
def Rad.add : (ps : List Dy) → Rad → Rad → Rad
  | [], .c a, .c b => .c (a.add b)
  | _ :: r, .ext u v, .ext x y => .ext (Rad.add r u x) (Rad.add r v y)
  | _, a, _ => a
def Rad.scale : (ps : List Dy) → Dy → Rad → Rad
  | [], k, .c a => .c (k.mul a)
  | _ :: r, k, .ext u v => .ext (Rad.scale r k u) (Rad.scale r k v)
  | _, _, a => a
def Rad.mul : (ps : List Dy) → Rad → Rad → Rad
  | [], .c a, .c b => .c (a.mul b)
  | p :: r, .ext u v, .ext x y =>
    .ext (Rad.add r (Rad.mul r u x) (Rad.scale r p (Rad.mul r v y))) (Rad.add r (Rad.mul r u y) (Rad.mul r v x))
  | _, a, _ => a
/-- The exact sign. -/
def Rad.sign : (ps : List Dy) → Rad → Int
  | [], .c a => a.sgn
  | p :: r, .ext u v =>
    let s := Rad.sign r u
    let t := if p.m = 0 then 0 else Rad.sign r v
    if t = 0 then s
    else if s = 0 ∨ s = t then t
    else
      let w := Rad.sign r (Rad.add r (Rad.mul r u u) (Rad.scale r p.neg (Rad.mul r v v)))
      if w = 0 then 0 else if 0 < w then s else t
  | _, _ => 0

/-- A lower bound: −∞, or x plus coefficients of square roots. -/
inductive Lb where
  | ninf
  | val (x : Dy) (roots : List (Dy × Dy))
  deriving DecidableEq, Repr

/-- x + Σ c √p over these radicands. -/
def radOf : List (Dy × Dy) → Dy → Rad
  | [], x => .c x
  | (k, _) :: r, x => .ext (radOf r x) (Rad.const (r.map (fun p => p.2)) k)
/-- The sign of a − b. -/
def Lb.cmp (a b : Lb) : Int :=
  match a, b with
  | .ninf, .ninf => 0
  | .ninf, _ => -1
  | _, .ninf => 1
  | .val x l, .val y m =>
    let all := l ++ m.map (fun p => (p.1.neg, p.2))
    Rad.sign (all.map (fun p => p.2)) (radOf all (x.sub y))
/-- Whether the bound is at most an extended number. -/
def Lb.leExt (a : Lb) (e : Ext) : Bool :=
  match a, e with
  | .ninf, _ => true
  | _, .pinf => true
  | _, .ninf => false
  | a, .fin d => decide (a.cmp (.val d []) ≤ 0)

/-- The value of a TKEY index: magnitudes in order, negative below. -/
def tkeyIdx (i : Int) : Nat := if i < 0 then 0x800 + i.natAbs else i.natAbs
/-- The largest index whose value is at most the bound, between lo (at most) and hi (above). -/
def Lb.search (a : Lb) : (fuel : Nat) → (lo hi : Int) → Int
  | 0, lo, _ => lo
  | f + 1, lo, hi =>
    if hi - lo ≤ 1 then lo
    else
      let mid := (lo + hi) / 2
      let ok := match tkeyVal (tkeyIdx mid) with | .ninf => true | .pinf => false | .fin d => decide (0 ≤ a.cmp (.val d []))
      if ok then a.search f mid hi else a.search f lo mid
/-- TKEY of a lower bound (R108, R143): no subnormals are produced (R122). -/
def Lb.tkey (a : Lb) : Nat :=
  match a with
  | .ninf => 0xFF8
  | _ =>
    let i := a.search 14 (-0x7F8) 0x7F8
    let j := if 0 < i ∧ i < 8 then 0 else if -8 < i ∧ i < 0 then -8 else i
    tkeyIdx j

/-- LB of a child (R141): d_c, RAD, acc of q with itself and of the centroid with itself, as patterns. -/
def Handle.lower (h : Handle) (d rad qq cc : Nat) : Lb :=
  let v := fun (x : Nat) => if h.accF then fVal x else Dy.ofInt (toSigned 32 x)
  let inf := fun (x : Nat) => h.accF && fInf x
  let g : Dy := if h.accF then { m := 1, e := -16 } else Dy.zero
  let one := Dy.ofInt 1
  let dn := one.sub g
  let up := one.add g
  let pos := fun (x : Dy) => if x.m < 0 then Dy.zero else x
  if inf d || inf rad || inf qq || inf cc then .ninf
  else if h.inner then .val (v d) [(up.neg, (pos (v qq)).mul (v rad)), (g.neg, (pos (v qq)).mul (pos (v cc)))]
  else
    let a := (dn.mul dn).mul (pos (v d))
    let b := (up.mul up).mul (v rad)
    if b.lt a then .val (a.add b) [(((dn.mul up).scale 1).neg, (pos (v d)).mul (v rad))] else .val Dy.zero []

/-! ## The query vector (R137, R357) -/

/-- The decoded query vector of an entry; where it is not there yet its read is started (R137). -/
def State.vecGet (s : State) (b e : Nat) : Option (List Nat) × State :=
  let x := s.ent b e
  let h := s.hndOf x.qr.handle
  match x.slot with
  | none => (none, s)
  | some k =>
    if x.vecState = 2 then (decodeElems h.vfmt x.vec, s)
    else if x.vecState = 1 then (none, s)
    else match (s.q k).served with
      | some v => match decodeElems h.vfmt v.vec with
        | some l => (some l, s.modEnt b e (fun y => { y with vec := v.vec, vecState := 2 }))
        | none => (none, s.leafFault b e stFormat)
      | none => (none, (s.modEnt b e (fun y => { y with vecState := 1 })).startJob (.qVec k (s.q k).uid) x.qr.ctx (bytesAt x.qr.body 0 8)
          (h.dim * h.elemSize) .rd x.qr.stream)

/-- The query vector has been read; false when the read failed with an error completion (R377). -/
def State.vecIn (s : State) (k uid : Nat) (j : Job) : State × Bool :=
  match (s.q k).place with
  | .rayStore b e =>
    let x := s.ent b e
    let h := s.hndOf x.qr.handle
    if (s.q k).uid ≠ uid ∨ x.vecState ≠ 1 then (s, true)
    else if j.err = 1 then (s.leafFault b e stWindow, true)
    else if j.err ≠ 0 then (s, false)
    else
      let v := h.elems (j.data / 256 ^ (j.addr % 64)) h.dim
      match decodeElems h.vfmt v with
      | some _ => (s.modEnt b e (fun y => { y with vec := v, vecState := 2 }), true)
      | none => (s.leafFault b e stFormat, true)
  | _ => (s, true)

/-! ## Metric nodes (R140, R143) -/

/-- The children of a metric node with their centroids' bytes: bound, slot, reference; none where R137 faults. -/
def Handle.metChildren (h : Handle) (v : Nat) (q : List Nat) (cents : List (Nat × Nat)) : Option (List (Lb × Nat × Ref)) :=
  let qq := h.acc false q q
  cents.mapM (fun c =>
    match decodeElems h.vfmt (h.elems c.2 h.dim), metChild v c.1 with
    | some x, some r =>
      (match h.distOf (h.acc h.diff q x) with
       | some d => some (h.lower d (metRad v c.1) qq (h.acc false x x), c.1, r)
       | none => none)
    | _, _ => none)

/-- A metric-node visit goes on in the leaf array; false while it waits (R140, R154). -/
def State.metOne (s : State) (b e : Nat) (it : Item) : State × Bool :=
  let x := s.ent b e
  let h := s.hndOf x.qr.handle
  match s.entRead b e it.addr 4 with
  | (.wait, s1) => (s1, false)
  | (.fault, s1) => (s1.leafFault b e stWindow, true)
  | (.bytes v, s1) =>
    if !metOk h v then (s1.leafFault b e stFormat, true)
    else
      let kids := (List.range 16).filter (fun i => metPresent v i)
      let n := (h.dim * h.elemSize + 63) / 64
      let g := s1.vecGet b e
      match State.entReads b e (kids.map (fun i => (metCentroid v i, n))) g.2 with
      | (_, true, s2) => (s2.leafFault b e stWindow, true)
      | (none, false, s2) => (s2, (s2.ent b e).op.isNone)
      | (some cs, false, s2) =>
        match g.1 with
        | none => (s2, (s2.ent b e).op.isNone)
        | some q =>
          match h.metChildren v q (kids.zip cs) with
          | none => (s2.leafFault b e stFormat, true)
          | some l =>
            let p := pruneP h.accF x.qr
            let live := insSort (fun a c => decide (a.1.cmp c.1 < 0) || (a.1.cmp c.1 == 0 && decide (a.2.1 < c.2.1))) (l.filter (fun c => c.1.leExt p))
            let s3 := ((s2.oInc (0x4240 + b) 1).oAdd (0x4240 + b) 2 (l.length - live.length)).modEnt b e (fun y => { y with op := none, waits := [], owed := [], held := [] })
            ((s3.descend b e it.level (live.map (fun c => (c.1.tkey, c.2.2)))).boundary b e, true)

/-! ## Lists (R145, R147) -/

/-- Whether (d, ID) is lower than or equal to an entry's. -/
def pairLt (accF : Bool) (d id : Nat) (y : LEntry) : Bool := distLt accF d y.t || (distEq accF d y.t && decide (id < y.id))
/-- Inserts after every entry that is lower or equal. -/
def insPair (accF : Bool) (l : List LEntry) (x : LEntry) : List LEntry :=
  match l with
  | [] => [x]
  | y :: r => if pairLt accF x.t x.id y then x :: y :: r else y :: insPair accF r x

/-- A KNN candidate on the local copy, and whether it was accepted (R145). -/
def knnStep (accF : Bool) (k : Nat) (l : Loc) (d id : Nat) : Loc × Bool :=
  let ok := distLe accF d l.bound && (decide (l.list.length < k) || (match l.list.getLast? with | some z => pairLt accF d id z | none => true))
  if ok then
    let m := (insPair accF l.list { t := d, w := 0, id := id }).take k
    ({ l with list := m, haveHit := true, extChanged := true,
              bound := if m.length = k then ((m.getLast?).map (fun y => y.t)).getD l.bound else l.bound }, true)
  else (l, false)

/-- Applies the candidates of a block in order (R144): the copy and the acceptances. -/
def Entry.neighbours (x : Entry) (accF : Bool) : List (Nat × Nat) → Loc → Nat → Loc × Nat
  | [], l, n => (l, n)
  | (d, id) :: r, l, n =>
    if l.ended then (l, n)
    else if x.qr.kind = kKnn then
      let y := knnStep accF (x.qr.km1 + 1) l d id
      x.neighbours accF r y.1 (n + b2n y.2)
    else if distLe accF d l.bound then
      x.neighbours accF r (x.addStreamed l (fun k => .nbr (nbrBytes x.qr.seq d id k false true 0))) n
    else x.neighbours accF r l n

/-! ## Vector blocks (R91, R144, R148) -/

/-- The checks of a vector block's header (R91). -/
def vecOk (h : Handle) (v : Nat) : Bool :=
  let n := bytesAt v 0 2
  decide (1 ≤ n) && decide (n ≤ 256) && fld v 18 6 == 0 && bytesAt v 3 1 == 0 && decide (1 ≤ w32 v 4) &&
  (!bit v 16 || h.pqM != 0) && bytesAt v 0x14 44 == 0 &&
  (if bit v 17 then bytesAt v 8 8 == 0 else fld (bytesAt v 8 8) 44 20 == 0 && w32 v 0x10 == 0)

/-- Table entries of sub-quantiser j from its 256 centroids' bytes (R92, R148); none where R137 faults. -/
def Handle.tabPart (h : Handle) (q : List Nat) (j data : Nat) : Option (List Nat) :=
  let n := h.dim / h.pqM
  let sub := (q.drop (j * n)).take n
  (List.range 256).mapM (fun c =>
    match decodeElems h.vfmt (h.elems (data / 256 ^ (c * n * h.elemSize)) n) with
    | some x => let a := h.acc h.diff sub x
      if h.accF && fNan a then none else some a
    | none => none)

/-- The distance of code vector bytes (R148). -/
def Handle.codeDist (h : Handle) (tab : List Nat) (code : Nat) : Option Nat :=
  let t := fun j => tab.getD (256 * j + bytesAt code j 1) 0
  let a := (List.range (h.pqM - 1)).foldl (fun a j =>
    if h.accF then fAdd a (t (j + 1)) else ofInt 32 (toSigned 32 a + toSigned 32 (t (j + 1)))) (t 0)
  h.distOf a

/-- The block's distances with the identifiers, in ascending index (R144); none where R137 faults or a check fails. An
identifier past 2^44 − 1 is not stated: a free value. -/
def Handle.blockDists (h : Handle) (v : Nat) (q : List Nat) (tab : List Nat) (data ids : Nat) (fv : Nat → Nat) : Option (List (Nat × Nat)) :=
  let n := bytesAt v 0 2
  let vs := (h.dim * h.elemSize + 63) / 64 * 64
  let used := h.dim * h.elemSize
  (List.range n).mapM (fun i =>
    let idv := bytesAt ids (8 * i) 8
    let id := if bit v 17 then idv else bytesAt v 8 8 + i
    let d := if bit v 16 then h.codeDist tab (bytesAt data (i * h.pqM) h.pqM)
      else if bytesAt data (i * vs + used) (vs - used) ≠ 0 then none
      else match decodeElems h.vfmt (h.elems (bytesAt data (i * vs) used) h.dim) with
        | some x => h.distOf (h.acc h.diff q x)
        | none => none
    if bit v 17 && idv / 2 ^ 44 != 0 then none
    else d.map (fun d => (d, if id < 2 ^ 44 then id else fv i % 2 ^ 44)))

/-- PLEFT after a block (R150): the word at 0x1C, and whether the count has run out. -/
def pleftStep (w : Nat) : Nat × Bool :=
  let p := w / 65536
  if p = 0 then (w, false) else (w - 65536, p == 1)

/-- Takes a table slot, or builds the next part of the table; true when the table is whole. -/
def State.tabStep (s : State) (b e : Nat) (q : List Nat) : State × Bool :=
  let x := s.ent b e
  let h := s.hndOf x.qr.handle
  let m := h.pqM
  if x.pqTab.length = 256 * m ∧ x.pqSlot.isSome then (s, true)
  else
    let got := match x.pqSlot with | some _ => x.pqSlot | none => s.pqBank b m
    match got with
    | none => (s.modEnt b e (fun y => { y with pqWait := true }), false)
    | some _ =>
      let s1 := s.modEnt b e (fun y => { y with pqSlot := got, pqWait := false })
      go q m m s1
where go (q : List Nat) (m : Nat) : (fuel : Nat) → State → State × Bool
  | 0, s => (s, (s.ent b e).pqTab.length == 256 * m)
  | f + 1, s =>
    let x := s.ent b e
    let h := s.hndOf x.qr.handle
    let j := x.pqTab.length / 256
    if m ≤ j then (s, true)
    else
      let bytes := 256 * (h.dim / m) * h.elemSize
      match s.entRead b e (h.codebook + j * bytes) (bytes / 64) with
      | (.wait, s1) => (s1, false)
      | (.fault, s1) => (s1.leafFault b e stWindow, false)
      | (.bytes d, s1) =>
        match h.tabPart q j d with
        | none => (s1.leafFault b e stFormat, false)
        | some l =>
          let s2 := s1.modEnt b e (fun y => { y with pqTab := y.pqTab ++ l })
          go q m f (if j + 1 = m then s2.oInc (0x4240 + b) 5 else s2)

/-- A vector block goes on in the leaf array; false while it waits (R144 to R150). -/
def State.vecOne (s : State) (b e : Nat) (it : Item) (hd : Handoff) : State × Bool :=
  let x := s.ent b e
  let h := s.hndOf x.qr.handle
  match s.entRead b e it.addr 1 with
  | (.wait, s1) => (s1, false)
  | (.fault, s1) => (s1.leafFault b e stWindow, true)
  | (.bytes v, s1) =>
    if !vecOk h v then (s1.leafFault b e stFormat, true)
    else
      let g := s1.vecGet b e
      match g.1 with
      | none => (g.2, (g.2.ent b e).op.isNone)
      | some q =>
        let t := if bit v 16 then g.2.tabStep b e q else (g.2, true)
        if !t.2 then (t.1, (t.1.ent b e).op.isNone)
        else
          let n := bytesAt v 0 2
          let vs := (h.dim * h.elemSize + 63) / 64
          let secs := if bit v 16 then (n * h.pqM + 63) / 64 else n * vs
          let idr := if bit v 17 then [(it.addr + 64 * w32 v 0x10, (8 * n + 63) / 64)] else []
          match State.entReads b e ((it.addr + 64 * w32 v 4, secs) :: idr) t.1 with
          | (_, true, s2) => (s2.leafFault b e stWindow, true)
          | (none, false, s2) => (s2, false)
          | (some ds, false, s2) =>
            match h.blockDists v q (s2.ent b e).pqTab (ds.headD 0) (ds.getD 1 0) (s2.openFn x.qr.ctx [257, h.entry, it.addr]) with
            | none => (s2.leafFault b e stFormat, true)
            | some l =>
              let past := !bit v 17 && decide (2 ^ 44 < bytesAt v 8 8 + n)
              let s3 := if past then { s2 with free := s2.free + n } else s2
              let r := x.neighbours h.accF l hd.loc 0
              let pl := pleftStep (x.qr.b32 0x1C)
              let s4 := ((if bit v 16 then s3.oAdd (0x4240 + b) 4 n else s3.oAdd (0x4240 + b) 3 n).oAdd (0x4240 + b) 7 r.2).modEnt b e
                (fun y => { y with qr := y.qr.setB32 0x1C pl.1 })
              let s5 := if pl.2 && !r.1.ended then s4.oInc (0x4240 + b) 8 else s4
              (s5.leafDone b e { r.1 with ended := r.1.ended || pl.2 }, true)

end Sys2Proof.Machine
end

