-- ==== Sys2Proof/Machine/Net.lean ====
section
/-! DEFINITION. Network leaves (chapter Network leaves and leaf arrays): the header and its checks (R158 to R160), the encoder
and the layers (R161 to R164), the marches (R166 to R169), weight slots and bank roles (R173, R174), and the leaf array's
queue (R154). -/

namespace Sys2Proof.Machine

/-! ## sin(πx) (R162, R164) -/

/-- ⌊π × 2^320⌋. -/
def piFix : Nat := 0x3243f6a8885a308d313198a2e03707344a4093822299f31d0082efa98ec4e6c89452821e638d01377

/-- Terms of the series of the sine in fixed point with 320 fraction bits. -/
def sinSeries (x : Nat) : (fuel i : Nat) → (term : Int) → (acc : Int) → Int
  | 0, _, _, acc => acc
  | f + 1, i, term, acc => sinSeries x f (i + 2) (-(term * (x * x / 2 ^ 320 : Nat)) / ((i * (i + 1) : Nat) * 2 ^ 320 : Int)) (acc + term)

/-- sin(πx) rounded once to FP16. A value that 280 bits do not separate is the opaque Config.hardRound (log 9). -/
def sinPi16 (x : Dy) : Nat :=
  if ((x.scale 1).floor : Int) = ((x.scale 1).neg.floor : Int) * (-1) then
    let h := (x.scale 1).floor % 4
    binary16.round .nearest false (Dy.ofInt (if h = 1 then 1 else if h = 3 then -1 else 0))
  else
    let r := ((x.scale 320).floor % (2 ^ 321 : Int)).toNat
    let neg := decide (2 ^ 320 ≤ r)
    let r1 := r % 2 ^ 320
    let r2 := if 2 ^ 319 < r1 then 2 ^ 320 - r1 else r1
    let y := piFix * r2 / 2 ^ 320
    let v := sinSeries y 50 2 y 0
    let at_ := fun (n : Int) => binary16.round .nearest false { m := if neg then -n else n, e := -320 }
    let a := at_ (v - 2 ^ 40)
    let b := at_ (v + 2 ^ 40)
    if a = b then a else Config.hardRound 2 (x.m.natAbs * 2 ^ 10 + x.e.natAbs)

/-! ## The header (R158 to R160) -/

def nkDensity (v : Nat) : Bool := fld v 0 2 == 1
def nkDir (v : Nat) : Bool := bit v 2
def nkFiltered (v : Nat) : Bool := bit v 3
def nLayers (v : Nat) : Nat := bytesAt v 1 1
def nFpos (v : Nat) : Nat := bytesAt v 2 1
def nFdir (v : Nat) : Nat := bytesAt v 3 1
def nMaxit (v : Nat) : Nat := bytesAt v 4 2
def nSize (v : Nat) : Nat := bytesAt v 6 2
/-- Layer descriptor l. -/
def layerAt (v l : Nat) : Nat := bytesAt v (0x40 + 16 * l) 16
def lyOut (d : Nat) : Nat := bytesAt d 0 1
def lyFmt (d : Nat) : Nat := fld d 8 2
def lyAct (d : Nat) : Nat := fld d 10 2
def lyScale (d : Nat) : Nat := bytesAt d 4 2
def lyOmega (d : Nat) : Nat := bytesAt d 6 2
def lyOff (d : Nat) : Nat := 64 * w32 d 8
/-- Bytes of a weight block (R159). -/
def lyBytes (d : Nat) : Nat := roundUp (64 * lyOut d + 128) 64

/-- The checks made when the handoff is taken (R158 to R160). -/
def netOk (v : Nat) : Bool :=
  let n := nLayers v
  let pos := fun o => fFin (w32 v o) && !fNeg (w32 v o) && !binary32.isZero (w32 v o)
  decide (fld v 0 2 < 2) && fld v 4 4 == 0 && decide (1 ≤ n) && decide (n ≤ 4) && decide (nFpos v ≤ 10) &&
  (if nkDir v then decide (nFdir v ≤ 10) else nFdir v == 0) &&
  decide (1 ≤ nMaxit v) && decide (nMaxit v ≤ (if nkDensity v then 256 else 64)) && decide (2 ≤ nSize v) && decide (nSize v ≤ 266) &&
  fFin (w32 v 0x10) && fFin (w32 v 0x14) && fFin (w32 v 0x18) && pos 0x1C && pos 0x20 && pos 0x24 && pos 0x28 &&
  fFin (w32 v 0x2C) && (!nkDensity v || (pos 0x2C && fLe (w32 v 0x2C) 0x3F800000)) && bytesAt v 0x30 16 == 0 &&
  decide (3 + 6 * nFpos v + (if nkDir v then 3 + 6 * nFdir v else 0) ≤ 63) &&
  (List.range 4).all (fun l =>
    let d := layerAt v l
    if l < n then
      decide (1 ≤ lyOut d) && decide (lyOut d ≤ (if l + 1 = n then 8 else 64)) && lyFmt d != 3 && lyAct d != 3 && fld d 12 4 == 0 &&
      bytesAt d 2 2 == 0 && bytesAt d 0xC 4 == 0 && binary16.isFin (lyScale d) &&
      (if lyAct d = 2 then binary16.isFin (lyOmega d) else lyOmega d == 0) && decide (0x80 ≤ lyOff d) && decide (lyOff d + lyBytes d ≤ 64 * nSize v)
    else d == 0)

/-- The check of the weight blocks when they are filled (R159, R160). -/
def weightsOk (v : Nat) : Bool :=
  (List.range (nLayers v)).all (fun l =>
    let d := layerAt v l
    let w := bytesAt v (lyOff d) (lyBytes d)
    (List.range (64 * lyOut d)).all (fun i => (elemVal (lyFmt d) (bytesAt w i 1)).isSome) &&
    (List.range 64).all (fun j => let b := bytesAt w (64 * lyOut d + 2 * j) 2
      if j < lyOut d then binary16.isFin b else b == 0) &&
    w / 256 ^ (64 * lyOut d + 128) == 0)

/-! ## The network (R162 to R164) -/

/-- An FP16 pattern as FP32. -/
def h32 (x : Nat) : Nat :=
  if binary16.isNan x then qNan else if binary16.isInf x then (if binary16.isNeg x then 0xFF800000 else 0x7F800000)
  else binary32.round .nearest (binary16.isNeg x) (binary16.val x)
/-- An FP32 value rounded to FP16; infinities and NaNs keep their kind. -/
def to16 (x : Nat) : Nat :=
  if fNan x then 0x7E00 else if fInf x then (if fNeg x then 0xFC00 else 0x7C00) else binary16.round .nearest (fNeg x) (fVal x)

/-- sinpi(2^k x), or cospi(2^k x), of an FP32 value: cospi(y) is sinpi(y + 1/2). DESIGN CHOICE (log 105): an infinite or NaN x has no sine,
and the feature is a free value. -/
def waveOf (x k : Nat) (cos : Bool) : Nat :=
  if fFin x then
    let y := (fVal x).scale (k : Int)
    sinPi16 (if cos then y.add { m := 1, e := -1 } else y)
  else (Config.sinOpen ((x * 16 + k) * 2 + b2n cos)).toNat
/-- The features of three FP32 values with `oct` octaves. -/
def features (u : List Nat) (oct : Nat) : List Nat :=
  u.map to16 ++ (List.range oct).flatMap (fun (k : Nat) => u.map (fun x => waveOf x k false) ++ u.map (fun x => waveOf x k true))

/-- The 64 inputs (R162): `n` is the unit direction, none for a point query. -/
def encoder (v : Nat) (u : List Nat) (n : Option (List Nat)) : List Nat :=
  let p := features u (nFpos v)
  let q := if nkDir v then (match n with | some l => features l (nFdir v) | none => List.replicate (3 + 6 * nFdir v) 0) else []
  let a := p ++ q
  a ++ List.replicate (63 - a.length) 0 ++ [0x3C00]

/-- What an activation gives for a NaN: a free value, but neither an infinity nor a NaN (R164; log 31). -/
def nanOut (y : Nat) : Nat :=
  let n := (Config.netNan y).toNat
  if binary16.isFin n then n else n % 1024
/-- act(y) (R164). -/
def activate (d y : Nat) : Nat :=
  let sat := fun (x : Nat) => if fNan x then nanOut y
    else let r := to16 x
      if binary16.isInf r then (if binary16.isNeg r then 0xFBFF else 0x7BFF) else r
  match lyAct d with
  | 0 => sat y
  | 1 => if fLe y 0 then 0 else sat y
  | _ =>
    let z := fMul (h32 (lyOmega d)) y
    if fNan z then nanOut y
    else
      let c := if fLt 0x42000000 z then 0x42000000 else if fLt z 0xC2000000 then 0xC2000000 else z
      sinPi16 (fVal c)

/-- The outputs of one layer (R163). -/
def layerOut (d w : Nat) (a : List Nat) : List Nat :=
  (List.range (lyOut d)).map (fun j =>
    let prods := (List.range 64).map (fun i =>
      fMul ((elem32 (lyFmt d) (bytesAt w (64 * j + i) 1)).getD 0) (h32 (a.getD i 0)))
    activate d (fAdd (fMul (h32 (lyScale d)) (treeSum prods)) (h32 (bytesAt w (64 * lyOut d + 2 * j) 2))))

/-- The outputs of the network for these inputs. -/
def network (v : Nat) : (n l : Nat) → List Nat → List Nat
  | 0, _, a => a
  | n + 1, l, a =>
    let d := layerAt v l
    network v n (l + 1) (layerOut d (bytesAt v (lyOff d) (lyBytes d)) a)

/-- u of a point (R161). -/
def netU (v : Nat) (p : Nat → Nat) : List Nat := (List.range 3).map (fun a => fMul (fSub (p a) (w32 v (0x10 + 4 * a))) (w32 v (0x20 + 4 * a)))

/-! ## Marches (R161, R166, R167) -/

/-- Exact fractions num / den with den > 0. -/
structure Frac where
  n : Dy
  d : Dy
  deriving DecidableEq, Repr
def Frac.le (a b : Frac) : Bool := (a.n.mul b.d).le (b.n.mul a.d)
def Frac.f32 (a : Frac) : Nat := if a.n.m = 0 then 0 else Sys2Proof.Machine.f32 (a.n.quot a.d)

/-- Where the ray meets the extent on one axis: unbounded, nowhere, or between two parameters. -/
inductive AxisSpan where
  | all | none | span (a b : Frac)
  deriving DecidableEq, Repr

/-- One axis of the extent. -/
def axisSpan (v a : Nat) (o d : Vec3) : AxisSpan :=
  let ih := fVal (w32 v (0x20 + 4 * a))
  let w := ((fVal (w32 v (0x10 + 4 * a))).sub (fVal (o.get a))).mul ih
  let dd := ih.mul (fVal (d.get a))
  let one := Dy.ofInt 1
  if dd.m = 0 then (if w.abs.le one then .all else .none)
  else if 0 < dd.m then .span { n := w.sub one, d := dd } { n := w.add one, d := dd }
  else .span { n := (w.add one).neg, d := dd.neg } { n := (w.sub one).neg, d := dd.neg }

/-- t_in and t_out, each rounded once (R161). -/
def extentSpan (v : Nat) (o d : Vec3) : Option (Nat × Nat) :=
  let l := (List.range 3).map (fun a => axisSpan v a o d)
  if l.contains .none then none
  else
    let ins := l.filterMap (fun x => match x with | .span a b => some (a, b) | _ => none)
    match ins with
    | [] => none
    | f :: r =>
      let lo := r.foldl (fun a x => if a.le x.1 then x.1 else a) f.1
      let hi := r.foldl (fun a x => if x.2.le a then x.2 else a) f.2
      if lo.le hi then some (lo.f32, hi.f32) else none

/-- A point of the ray in FP32. -/
def rayPoint (o d : Vec3) (t a : Nat) : Nat := fAdd (o.get a) (fMul t (d.get a))
/-- LD (R161). -/
def recLen (d : Vec3) : Nat := fDiv 0x3F800000 (fSqrt (fAdd (fAdd (fMul d.x d.x) (fMul d.y d.y)) (fMul d.z d.z)))

/-- What a march gives: the candidate's t and U, and the samples: n, t and outputs. -/
structure March where
  hit : Option (Nat × Nat) := none
  samples : List (Nat × Nat × List Nat) := []
  deriving DecidableEq, Repr

/-- The sphere trace of R166. DESIGN CHOICE (log 106): with a negative EPS_HIT a sample between it and 0 is no hit, as the rule's
pseudocode has it; its text calls every negative f a hit. -/
def traceDist (v : Nat) (outs : Nat → List Nat) (ld t1 : Nat) : (fuel n t : Nat) → March → March
  | 0, _, _, m => m
  | g + 1, n, t, m =>
    let y := outs t
    let f := fMul (h32 (y.headD 0)) (w32 v 0x1C)
    let m1 := { m with samples := m.samples ++ [(n, t, y)] }
    if fLe f (w32 v 0x2C) then { m1 with hit := some (t, f) }
    else
      let t2 := fAdd t (fMul f ld)
      if n + 1 = nMaxit v ∨ !fLe t2 t1 then m1 else traceDist v outs ld t1 g (n + 1) t2 m1

/-- σ of the first output, and the factor of one step (R167). -/
def stepFactor (v : Nat) (y : List Nat) : Nat :=
  let x := h32 (y.headD 0)
  let sg := if fLt 0 x then x else 0
  let k := fMul sg (w32 v 0x1C)
  if fFin k then scaledExp (Dy.ofInt 1) (fVal k) (Dy.ofInt 1) else 0

/-- The march of R167. -/
def marchDensity (v : Nat) (outs : Nat → List Nat) (dt t0 t1 : Nat) : (fuel n tr : Nat) → March → March
  | 0, _, _, m => m
  | g + 1, n, tr, m =>
    let o := if fFin dt then f32 ((fVal dt).mul { m := 2 * n + 1, e := -1 }) else dt
    let t := fAdd t0 o
    if !fLe t t1 then m
    else
      let y := outs t
      let tr1 := fMul tr (stepFactor v y)
      let m1 := { m with samples := m.samples ++ [(n, t, y)] }
      if fLt tr1 (w32 v 0x2C) then { m1 with hit := some (t, tr1) } else marchDensity v outs dt t0 t1 g (n + 1) tr1 m1

/-- A network leaf on a ray with limits (R161 to R167). -/
def netMarch (v : Nat) (o d : Vec3) (lo hi : Nat) : March :=
  match extentSpan v o d with
  | none => {}
  | some (a, b) =>
    let t0 := if fLt lo a then a else lo
    let t1 := if fLt b hi then b else hi
    if fLt t1 t0 then {}
    else
      let ld := recLen d
      let n := [d.x, d.y, d.z].map (fun c => fMul c ld)
      let outs := fun t => network v (nLayers v) 0 (encoder v (netU v (rayPoint o d t)) (some n))
      if nkDensity v then marchDensity v outs (fMul (w32 v 0x1C) ld) t0 t1 (nMaxit v) 0 0x3F800000 {}
      else traceDist v outs ld t1 (nMaxit v) 0 t0 {}

/-- Whether a finite point lies in the extent (R161, R168). -/
def inExtent (v : Nat) (p : Vec3) : Bool :=
  (List.range 3).all (fun a => fFin (p.get a) &&
    (((fVal (p.get a)).sub (fVal (w32 v (0x10 + 4 * a)))).mul (fVal (w32 v (0x20 + 4 * a)))).abs.le (Dy.ofInt 1))
/-- The network's answer for a point query (R168). -/
def netPoint (v : Nat) (p : Vec3) : Bool :=
  let y := network v (nLayers v) 0 (encoder v (netU v (fun a => p.get a)) none)
  if nkDensity v then fLt (stepFactor v y) (w32 v 0x2C) else fLe (fMul (h32 (y.headD 0)) (w32 v 0x1C)) (w32 v 0x2C)
/-- Whether the mapped shape meets the extent (R168): the extent is the unit box of u. -/
def netOverlap (v : Nat) (f : Aff) (q : QShape) : Bool :=
  let ih := fun a => fVal (w32 v (0x20 + 4 * a))
  let g : Aff := { m := (List.range 9).map (fun i => (dyAt f.m i).mul (ih (i / 3))),
                   t := (List.range 3).map (fun a => ((dyAt f.t a).sub (fVal (w32 v (0x10 + 4 * a)))).mul (ih a)) }
  let one := Ext.fin (Dy.ofInt 1)
  let mone := Ext.fin (Dy.ofInt (-1))
  boxMeets g true q {} { lo := [mone, mone, mone], hi := [one, one, one] }

/-! ## Weight slots (R173, R174) -/

/-- A leaf's port and physical address for a query, under the translations that stand for it (R298). -/
def State.leafKey (s : State) (c a : Nat) (held : List (Nat × Trans)) : Option (Nat × Nat) := (s.reachHeld c a held).map (fun t => (t.port, t.pa))

/-- Whether a slot holds, or is being filled with, the leaf at address a for context c: its key is the leaf's physical address (R173), and the
windows of c reach the bytes that were read for it (R71). -/
def State.slotFits (s : State) (c a : Nat) (held : List (Nat × Trans)) (w : WSlot) : Bool :=
  s.leafKey c a held == some (w.port, w.pa) && (!w.ready || (if w.bad = stWindow then w.ctx == c else w.secs == s.sectorsOf c a w.size held))
/-- Whether a slot serves a handoff of the Bobbin: it fits, and its bank is not pending, or the handoff was given the slot before (R174). -/
def State.slotServes (s : State) (b c a : Nat) (held : List (Nat × Trans)) (h : Handoff) (w : WSlot) : Bool :=
  s.slotFits c a held w && (!bit (s.bobOf b).pendBanks w.bank || h.wbank == some w.bank)
/-- Whether a queued or running handoff of the Bobbin uses a slot. -/
def State.slotUsed (s : State) (b : Nat) (w : WSlot) : Bool :=
  (s.occupants b).any (fun x => match x.2.op, x.2.item with
    | some h, some it => h.unit == 2 && it.ty == 8 && s.slotServes b x.2.qr.ctx it.addr x.2.held h w
    | _, _ => false)
/-- A slot for the leaf that an entry's handoff works on, filled or filling. -/
def State.slotOf (s : State) (b : Nat) (x : Entry) : Option WSlot :=
  match x.op, x.item with
  | some h, some it => if h.unit = 2 ∧ it.ty = 8 then (s.bobOf b).wslots.find? (fun w => s.slotServes b x.qr.ctx it.addr x.held h w) else none
  | _, _ => none

/-- Begins the fill of a slot for the leaf of an entry, if one can be given (R173, R174). -/
def State.weightAsk (s : State) (b e : Nat) : State :=
  let x := s.ent b e
  match x.item with
  | none => s
  | some it =>
    match s.leafKey x.qr.ctx it.addr x.held with
    | none => s
    | some (p, a) =>
      let v := s.bobOf b
      if (s.slotOf b x).isSome then s
      else
        let banks := (List.range 2).filter (fun i => !bit v.pqBanks i && !bit v.pendBanks i)
        let mk := fun (bank : Nat) => ({ bank := bank, port := p, pa := a, ctx := x.qr.ctx, strm := x.qr.stream, hnd := x.qr.handle, addr := it.addr, used := s.order, held := x.held } : WSlot)
        match banks.find? (fun i => decide ((v.wslots.filter (fun w => w.bank == i)).length < 5)) with
        | some i => s.modBob b (fun v => { v with wslots := v.wslots ++ [mk i] })
        | none =>
          let cand := v.wslots.filter (fun w => banks.contains w.bank && !s.slotUsed b w)
          match cand with
          | [] => s
          | f :: r =>
            let z := r.foldl (fun a w => if w.used < a.used then w else a) f
            s.modBob b (fun v => { v with wslots := v.wslots.filter (fun w => w != z) ++ [mk z.bank] })

/-- A fill ends (R173): the oldest one whose sectors are all there, checked under R160. -/
def State.weightFill (s : State) (b : Nat) : State :=
  if b < 48 ∧ s.bobRuns b then go (((s.bobOf b).wslots).filter (fun w => !w.ready)) s else s
where
  put (w z : WSlot) (s : State) : State := s.modBob b (fun v => { v with wslots := v.wslots.map (fun y => if y = w then z else y) })
  go : List WSlot → State → State
    | [], s => s
    | w :: r, s =>
      match s.ncRead b w.ctx w.strm w.hnd w.addr 2 [] w.held with
      | (.fault, s1) => put w { w with ready := true, bad := stWindow } s1
      | (.wait, s1) => go r (put w { w with held := s.holdTrans w.ctx w.addr 2 w.held } s1)
      | (.bytes hd, s1) =>
        if !netOk hd then put w { w with ready := true, bad := stFormat, size := 2, secs := s1.sectorsOf w.ctx w.addr 2 w.held } s1
        else match s1.ncRead b w.ctx w.strm w.hnd w.addr (nSize hd) [] w.held with
          | (.fault, s2) => put w { w with ready := true, bad := stWindow } s2
          | (.wait, s2) => go r (put w { w with held := s1.holdTrans w.ctx w.addr (nSize hd) w.held } s2)
          | (.bytes v, s2) =>
            let bad := if weightsOk v then 0 else stFormat
            (put w { w with ready := true, data := v, size := nSize hd, secs := s2.sectorsOf w.ctx w.addr (nSize hd) w.held, bad := bad } s2).oInc
              (0x4280 + b) 5

/-- A handoff has waited 256 cycles for a slot of the other role: the higher-numbered bank of the role being left becomes
pending (R174). The handoffs that have a slot there keep it; no later one is given one. The times are asserted by the sender (log 1). -/
def State.bankPending (s : State) (b : Nat) : State :=
  let v := s.bobOf b
  let leafWaits := (s.occupants b).any (fun x => match x.2.op, x.2.item with
    | some h, some it => h.unit == 2 && it.ty == 8 && (s.leafKey x.2.qr.ctx it.addr x.2.held).isSome && (s.slotOf b x.2).isNone
    | _, _ => false)
  let pqWaits := (s.occupants b).any (fun x => x.2.pqWait)
  let top := fun (pq : Bool) => if bit v.pqBanks 1 = pq then some 1 else if bit v.pqBanks 0 = pq then some 0 else none
  let go := fun (i : Option Nat) => match i with
    | some i =>
      if bit v.pendBanks i then s
      else (s.occupants b).foldl (fun (t : State) x => match s.slotOf b x.2 with
          | some w => if w.bank = i then t.modEnt b x.1 (fun y => { y with op := y.op.map (fun h => { h with wbank := some i }) }) else t
          | none => t) (s.modBob b (fun v => { v with pendBanks := v.pendBanks + 2 ^ i }))
    | none => s
  if b < 48 ∧ s.bobRuns b then (if leafWaits then go (top true) else if pqWaits then go (top false) else s) else s

/-- A pending bank that holds no live slot changes its role; its contents are invalid then (R174). -/
def State.roleChange (s : State) (b bank : Nat) : State :=
  let v := s.bobOf b
  let live := if bit v.pqBanks bank then s.pqUse b bank != 0 else v.wslots.any (fun w => w.bank == bank && s.slotUsed b w)
  if b < 48 ∧ bank < 2 ∧ bit v.pendBanks bank ∧ !live then
    (s.modBob b (fun v => { v with pendBanks := setFld v.pendBanks bank 1 0, pqBanks := setFld v.pqBanks bank 1 (b2n (!bit v.pqBanks bank)),
                                   wslots := v.wslots.filter (fun w => w.bank != bank) })).oInc (0x4280 + b) 8
  else s

/-! ## Network handoffs (R165, R168, R170) -/

/-- The outputs of a sample as eight FP16 values. -/
def packOuts (y : List Nat) : Nat := (List.range 8).foldl (fun a i => a + y.getD i 0 * 2 ^ (16 * i)) 0

/-- The result of a network leaf on a ray: candidate, staging, filter (R165, R170, R171). -/
def State.netRay (s : State) (b e : Nat) (hd : Handoff) (v : Nat) : State :=
  let x := s.ent b e
  let q := s.q (x.slot.getD 0)
  let l := hd.loc
  let lim := if x.phase = 2 then (x.tlo, x.thi) else (x.qr.b32 0x1C, l.tmax)
  let m := netMarch v x.org x.dir lim.1 lim.2
  let cand := m.hit.map (fun p => ({ t := p.1, ptype := 8, prim := fld (bytesAt v 8 8) 0 44, geom := fld (bytesAt v 8 8) 44 20, path := x.path, front := x.flipped, u := p.2 } : Hit))
  let nout := lyOut (layerAt v (nLayers v - 1))
  let room := q.traceCap - q.traceWritten - l.samples.length
  let stage := if x.qr.trace ∧ x.phase = 0 then m.samples.take room else []
  let last := m.samples.length - 1
  let new := stage.map (fun p => ({ t := p.2.1, sample := p.1, nout := nout, leaf := 0, outs := packOuts p.2.2,
                                    key := if p.1 = last ∧ m.hit.isSome then cand else none } : Sample))
  let n := m.samples.length
  let passes := (if nkDensity v then (n + 7) / 8 * 8 else n) * nLayers v
  let s1 := (((s.oInc (0x4280 + b) 1).oAdd (0x4280 + b) 2 n).oAdd (0x4280 + b) 3 passes).oAdd (0x4280 + b) 9 new.length
  let l1 := { l with samples := l.samples ++ new }
  match cand with
  | none => s1.leafDone b e l1
  | some h =>
    if x.phase = 4 then s1.leafDone b e (l1.again h.u h.v h.front)
    else if !x.admits l1 h then s1.leafDone b e l1
    else match verdict x.force (s1.filterProg x) (if nkFiltered v then opUnkOpaque else opOpaque) with
      | .accept => s1.leafDone b e (x.accept l1 h)
      | .reject => s1.leafDone b e l1
      | .filter => s1.leafKeep b e { hd with loc := l1, step := 1, cand := some (h, opUnkOpaque), unit := 3, block := some v }

/-- A network-leaf handoff goes on; false while it waits (R154, R168, R173). -/
def State.netOne (s : State) (b e : Nat) (it : Item) (hd : Handoff) : State × Bool :=
  let x := s.ent b e
  match s.entRead b e it.addr 2 with
  | (.wait, s1) => (s1, false)
  | (.fault, s1) => (s1.leafFault b e stWindow, true)
  | (.bytes v, s1) =>
    if !netOk v then (s1.leafFault b e stFormat, true)
    else
      let prim := fld (bytesAt v 8 8) 0 44
      let geom := fld (bytesAt v 8 8) 44 20
      if x.qr.kind = kOverlap then
        let hit := netOverlap v x.aff x.qr.qshape
        (((s1.oInc (0x4280 + b) 1).oInc (0x4240 + b) 9).leafDone b e (if hit then x.shapeHit hd.loc 8 prim geom else hd.loc), true)
      else
        let s2 := s1.weightAsk b e
        match s2.leafKey x.qr.ctx it.addr x.held with
        | none => (s2.leafFault b e stWindow, true)
        | some _ =>
          match (s2.slotOf b (s2.ent b e)).filter (fun w => w.ready) with
          | none => (s2.modEnt b e (fun y => { y with waits := s2.sectorsOf x.qr.ctx it.addr (nSize v) x.held, held := s2.holdTrans x.qr.ctx it.addr (nSize v) y.held }), false)
          | some w =>
            let s3 := s2.modBob b (fun y => { y with wslots := if w.bad ≠ 0 then y.wslots.filter (fun z => z != w) else y.wslots.map (fun z => if z = w then { z with used := s2.order } else z) })
            if w.bad ≠ 0 then (s3.leafFault b e w.bad, true)
            else if x.qr.kind = kPoint then
              let s4 := (((s3.oInc (0x4280 + b) 1).oInc (0x4280 + b) 2).oAdd (0x4280 + b) 3 (nLayers v)).oInc (0x4240 + b) 9
              (s4.leafDone b e (if netPoint w.data x.org && inExtent w.data x.org then x.shapeHit hd.loc 8 prim geom else hd.loc), true)
            else if (s3.basteQueue b).length < 32 ∨ !nkFiltered v then (s3.netRay b e hd w.data, true)
            else (s3, false)

/-- The handoff of a network leaf is taken: a fill that failed before is not its own, and its header and descriptors are checked, where they
are in the node cache; otherwise once they are (R160). -/
def State.netTaken (s : State) (b e : Nat) : State :=
  match (s.ent b e).item with
  | some it =>
    if it.ty = 8 then
      let x := s.ent b e
      let s := match s.slotOf b x with
        | some w => if w.bad = 0 then s else s.modBob b (fun v => { v with wslots := v.wslots.filter (fun z => z != w) })
        | none => s
      match s.entRead b e it.addr 2 with
      | (.bytes v, s1) => if netOk v then s1 else s1.leafFault b e stFormat
      | (_, s1) => s1
    else s
  | none => s

/-! ## The leaf array (R154) -/

/-- One handoff of the leaf array goes on; false while it waits. -/
def State.arrayOne (s : State) (b e : Nat) : State × Bool :=
  let x := s.ent b e
  let s0 := s.modEnt b e (fun y => { y with waits := [] })
  match x.op, x.item with
  | some h, some it =>
    if s.stillWaits b x then (s, false)
    else if it.ty = 9 then s0.metOne b e it
    else if it.ty = 0xA then s0.vecOne b e it h
    else s0.netOne b e it h
  | _, _ => (s, false)

/-- The leaf array returns the result of a whole handoff, which is applied (R154). -/
def State.arrayResult (s : State) (b : Nat) : State :=
  if b < 48 ∧ s.bobRuns b ∧ s.arrayOk b then State.serve (fun s e => s.arrayOne b e) (s.queueOf b 2) s else s

end Sys2Proof.Machine
end

