-- ==== Sys2Proof/Machine/Suspect.lean ====
section
/-! DEFINITION. Self-checks and what follows from them (R369 to R374, R376): mismatches, suspect units, and the start of a
withdrawal. -/

namespace Sys2Proof.Machine

/-! ## Engines of a Bobbin -/

/-- Frees a Baste engine: nothing of the invocation stays (R216). -/
def State.freeEng (s : State) (b g : Nat) : State := s.modEng b g (fun _ => {})

/-- The engine that runs the handoff of an entry. -/
def State.engineOf (s : State) (b e : Nat) : Option Nat := firstIdx 4 (fun g => (s.engOf b g).ent == some e)

/-- A Baste engine is withdrawn (R373, R394). -/
def State.engineOff (s : State) (b g : Nat) : Bool := bit (s.o 0x7010 3) (4 * b + g)

/-- The engine that runs for an entry stops, and an invocation on it counts as stopped (R213). -/
def State.cutOp (s : State) (b e : Nat) : State :=
  match s.engineOf b e with
  | some g => (if (s.engOf b g).kind ≠ 0 then s.oInc (0x42C0 + b) 9 else s).freeEng b g
  | none => s

/-- Stops the handoff of an entry: it applies nothing, and an invocation that ran for it is stopped (R213, R374). -/
def State.stopOp (s : State) (b e : Nat) : State :=
  if (s.engineOf b e).isSome ∨ (s.ent b e).op.isSome then (s.cutOp b e).leafStop b e else s

/-- A handoff that ran on an engine goes back to the Baste queue as the engine took it (R245). -/
def State.requeue (s : State) (b g : Nat) : State :=
  let en := s.engOf b g
  match en.ent with
  | none => s
  | some e =>
    (s.modEnt b e (fun x => { x with op := x.op.map (fun h => { h with loc := en.loc0, step := en.step0, cand := en.cand0, engine := none, unit := 3 }) })).freeEng b g

/-! ## Mismatches (R370, R371, R433) -/

/-- A mismatch of unit (kind, number) of Bobbin b; a first one counts toward MISMATCH_LIMIT and raises MISMATCH (R395, R397). -/
def State.mismatch (s : State) (b kind num : Nat) (first : Bool) : State :=
  let s1 := s.oInc 0x7020 1
  if first then (s1.raise (0x5100 + b) 0 (kind * 2 ^ 20 + num % 4096)).modTile (fun t => { t with mism := tmod 0 t.mism (kind * 2 ^ 20 + b * 64 + num) (fun n => n + 1) })
  else s1

/-- Whether the unit has reached MISMATCH_LIMIT in this interval (R371, R393). -/
def State.mismatched (s : State) (b kind num : Nat) : Bool :=
  decide (s.o 0x7000 4 ≤ tget 0 s.tile.mism (kind * 2 ^ 20 + b * 64 + num))

/-! ## Withdrawal (R373, R374, R376) -/

/-- The withdrawal of a Bobbin begins: its handoffs in flight are stopped and apply nothing (R374). -/
def State.withdraw (s : State) (b : Nat) : State :=
  if (s.bobOf b).wd || bit (s.o 0x7010 1) b then s
  else (s.occupants b).foldl (fun (s : State) x => s.stopOp b x.1) (s.modBob b (fun v => { v with wd := true }))

/-- The leaf array of a Bobbin is withdrawn: handoffs on it apply nothing, and their queries move to the partner (R376). -/
def State.withdrawArray (s : State) (b : Nat) : State :=
  if bit (s.o 0x7010 2) b then s
  else
    let s1 := (s.oSet 0x7010 2 (s.o 0x7010 2 + 2 ^ b)).logWithdrawal b
    let s2 := s1.raise (0x5100 + b) 4 ((s1.partner b).getD noWhat)
    ((s2.occupants b).filter (fun x => match x.2.op with | some h => h.unit == 2 | none => false)).foldl (fun (s : State) x => s.stopOp b x.1) s2

/-- A Baste engine is withdrawn; with the fourth its Bobbin is (R373). -/
def State.withdrawEngine (s : State) (b g : Nat) : State :=
  if s.engineOff b g then s
  else
    let s1 := ((s.oSet 0x7010 3 (s.o 0x7010 3 + 2 ^ (4 * b + g))).logWithdrawal b).requeue b g
    if (List.range 4).all (fun i => s1.engineOff b i) then s1.withdraw b else s1

/-- Whether the unit is withdrawn already. -/
def State.unitOff (s : State) (b kind num : Nat) : Bool :=
  (s.bobOf b).wd || bit (s.o 0x7010 1) b || (if kind = 3 then bit (s.o 0x7010 2) b else if kind = 4 then s.engineOff b num else false)

/-- A unit is marked suspect (R371, R373). -/
def State.suspect (s : State) (b kind num : Nat) : State :=
  if s.unitOff b kind num then s
  else
  let s1 := (s.oInc 0x7020 2).raise (0x5100 + b) 1 (kind * 2 ^ 20 + num % 4096)
  if kind = 3 then s1.withdrawArray b else if kind = 4 then s1.withdrawEngine b num else s1.withdraw b

/-- An operation with its self-check: right; wrong once, when the recomputation's result is used; or wrong twice, when the
result is not applied and the unit is suspect (R370, R371). One that a store's error has stopped does nothing (State.storeError). -/
def State.checked (s : State) (chk : Chk) (b kind num : Nat) (apply : State → State) : State :=
  match chk with
  | .ok => apply s
  | .once =>
    let s1 := apply (s.mismatch b kind num true)
    if s1.mismatched b kind num then s1.suspect b kind num else s1
  | .twice => ((s.mismatch b kind num true).mismatch b kind num false).suspect b kind num
  | _ => s

/-! ## Uncorrectable errors in a Bobbin's stores (R173, R310, R322, R372, R373) -/

/-- A node-cache way is reported and disabled; a Bobbin with more than 1,024 such ways is withdrawn (R373, R394, R433; log 119). -/
def State.wayOff (s : State) (b k i : Nat) : State :=
  let id := 16384 * b + 16 * k + i
  if s.tile.waysOff.contains id then s
  else
    let s0 := s.raise (0x5100 + b) 1 (5 * 2 ^ 20)
    let s1 := (s0.modTile (fun t => { t with waysOff := t.waysOff ++ [id] })).logJournal 5 (logSegs 53 8 (s0.logList 53 8 ++ [id + 1]))
    if 1024 < (s1.tile.waysOff.filter (fun w => w / 16384 == b)).length then s1.withdraw b else s1

/-- An uncorrectable error where a sector is read from a node cache: in its data, when the sector becomes invalid, or in the way's tag, when the
way does; its second error disables the way (R310, R322, R373). The reader waits as for a miss. -/
def State.wayError (s : State) (b port line sec : Nat) (tag : Bool) : State :=
  let k := ncSetOf line
  match (s.ncGet b k).look port line with
  | none => s
  | some w =>
    let id := 16384 * b + 16 * k + w.way
    let n := tget 0 s.tile.wayErrs id + 1
    let s1 := (s.modTile (fun t => { t with wayErrs := tset 0 t.wayErrs id n })).oInc (0x4340 + b) 0x0A
    let left := if tag || decide (2 ≤ n) then 0 else setFld w.valid sec 1 0
    let s2 :=
      if w.filling then
        (if left = 0 then (s1.oweLine b port line).modNc b k (fun x => x.put { w with noKeep := true, valid := 0 })
         else s1.modNc b k (fun x => x.put { w with valid := left }))
      else if left = 0 then s1.modNc b k (fun x => if 2 ≤ n then { x with ways := x.ways.filter (fun v => v.way != w.way) } else x.clear w)
      else s1.modNc b k (fun x => x.put { w with valid := left })
    let s3 := if w.locked && w.valid != 0 && left == 0 then s2.lockDrop b else s2
    if 2 ≤ n then s3.wayOff b k w.way else s3

/-- An uncorrectable error where a pass reads its weight slot: the slot becomes invalid and the handoff runs again from its start; a
slot still being filled is kept (R173, R178). -/
def State.slotError (s : State) (b e : Nat) : State :=
  match s.slotOf b (s.ent b e) with
  | some w => if w.ready then (s.modBob b (fun v => { v with wslots := v.wslots.filter (fun z => z != w) })).oInc (0x4280 + b) 7 else s
  | none => s

/-- An uncorrectable error where the item of an entry is read: in the weight slot of a network leaf that is filled, else in the node cache. -/
def State.readError (s : State) (b e : Nat) (tag : Bool) : State :=
  let x := s.ent b e
  match x.item with
  | none => s
  | some it =>
    if !tag && (s.slotOf b x).any (fun w => w.ready) then s.slotError b e
    else match s.reachHeld x.qr.ctx it.addr x.held with
      | some t => s.wayError b t.port (t.pa / 256) (t.pa / 64 % 4) tag
      | none => s

end Sys2Proof.Machine
end

