-- ==== Sys2Proof/Machine/Baste.lean ====
section
/-! DEFINITION. Baste handoffs and invocations (R208 to R213), windows (R224, R225), traps, repetition and budget (R236 to
R240), and the image (R217 to R221). -/

namespace Sys2Proof.Machine

/-! ## Code (R217, R218) -/

/-- A code word, and a word of the constant area. -/
def State.codeAt (s : State) (a : Nat) : Nat := tget 0 s.code a
def State.cstAt (s : State) (a : Nat) : Nat := tget 0 s.const a

/-- The entry of program n, if it is present and has the bit that the kind of invocation needs (R209, R210, R218). -/
def State.program (s : State) (kind n : Nat) : Option Nat :=
  let w := s.codeAt (0x10 + n)
  if n = 0 ∨ 256 ≤ n ∨ w = 0 then none
  else if bit w (if kind = 2 then 16 else if kind = 1 then 17 else 18) then some w else none

/-- The program number of an invocation (R210). -/
def State.progOf (s : State) (x : Entry) (kind v : Nat) : Nat :=
  if kind = 2 then s.filterProg x else if bytesAt v 3 1 ≠ 0 then bytesAt v 3 1 else (s.hndOf x.qr.handle).defProc

/-! ## Windows (R224, R225) -/

/-- The composite transform of a path (R224). -/
def composite (l : List Nat) : Nat :=
  l.foldl (fun m x =>
    let xe := fun r c => w32 x (4 * (4 * r + c))
    let me := fun r c => w32 m (4 * (4 * r + c))
    (List.range 12).foldl (fun a i =>
      let r := i / 4
      let c := i % 4
      let v := fAdd (fAdd (fMul (xe r 0) (me 0 c)) (fMul (xe r 1) (me 1 c))) (fMul (xe r 2) (me 2 c))
      a + (if c = 3 then fAdd v (xe r 3) else v) * 2 ^ (32 * i)) 0) idXform

/-- The query window (R224). -/
def queryWindow (x : Entry) (q : Query) (l : Loc) (prim kind pbase : Nat) : Nat :=
  let r := x.qr
  let ray := isRay r.kind
  let pack := fun (v : Vec3) => v.x + v.y * 2 ^ 32 + v.z * 2 ^ 64
  let lim := if x.phase = 2 then (x.tlo, x.thi) else (r.b32 0x1C, l.tmax)
  let wf := b2n (x.phase == 2) + 2 * b2n x.flipped + 4 * b2n x.force
  let inst := (List.range 4).foldl (fun a i => a + (x.path.getD i 0xFFFFFF) % 2 ^ 24 * 2 ^ (32 * i)) 0
  (if ray ∨ r.kind = kPoint then pack x.org else 0) + (if ray then lim.1 else 0) * 2 ^ 96 + (if ray then pack x.dir else 0) * 2 ^ 128 +
  (if ray then lim.2 else f32Inf) * 2 ^ 224 + r.qctrl * 2 ^ 256 + r.seq.toNat * 2 ^ 288 + r.handle % 65536 * 2 ^ 320 +
  x.spaces.length % 256 * 2 ^ 336 + wf * 2 ^ 344 + inst * 2 ^ 352 + prim % 256 * 2 ^ 480 + kind * 2 ^ 488 + pbase % 65536 * 2 ^ 496 +
  q.body0 % 2 ^ 256 * 2 ^ 512 + composite (x.spaces.map (fun p => p.xf)) * 2 ^ 768

/-- The candidate window at the start of an invocation (R225). -/
def candWindow (ty : Nat) (cand : Option (Hit × Nat)) (prim geom : Nat) : Nat :=
  match cand with
  | some (h, st) =>
    h.t + h.u * 2 ^ 32 + h.v * 2 ^ 64 + b2n h.front * 2 ^ 96 + b2n (st == opUnkOpaque) * 2 ^ 104 + st * 2 ^ 112 + ty % 256 * 2 ^ 120 +
    h.primw * 2 ^ 128 + h.inst * 2 ^ 192
  | none => f32Inf + ty % 256 * 2 ^ 120 + (prim % 2 ^ 44 + geom % 2 ^ 20 * 2 ^ 44) * 2 ^ 128

/-! ## The end of an invocation by a fault (R210, R213, R244) -/

/-- The query of an engine completes with BASTE_FAULT; the engine is free. -/
def State.bstFail (s : State) (b g what : Nat) : State :=
  let en := s.engOf b g
  let s1 := (s.oInc (0x42C0 + b) 7).raise 0x5600 0 what
  match en.ent with
  | some e => (s1.freeEng b g).leafFault b e stBaste
  | none => s1.freeEng b g

/-- WHAT of BST_FAULT for an invocation (R433). -/
def faultWhat (b g cause : Nat) : Nat := cause * 256 + (4 * b + g) % 256

/-! ## Invocations -/

/-- The registers and windows of an engine as an invocation of the handoff of entry e begins (R216): program n, whose entry is w. -/
def State.bstSet (s : State) (b g e kind : Nat) (h : Handoff) (n w : Nat) : State :=
  let x := s.ent b e
  let v := h.block.getD 0
  let ty := (x.item.map (fun i => i.ty)).getD 0
  let prim := if ty = 8 then 0 else h.step
  let pbase := if kind = 2 then 0 else 0x10 + fld w 20 8 * prim
  s.modEng b g (fun en =>
    { ent := some e, kind := kind, prim := prim, prog := n, pc := fld w 0 16, ectrl := s.ectrlInit, num := 4 * b + g, pbase := pbase,
      primW := v % 256 ^ 4096, queryW := queryWindow x (s.q (x.slot.getD 0)) h.loc prim kind pbase,
      candW := candWindow ty (if kind = 2 then h.cand else none) (lfPrim v + prim) (lfGeom v),
      loc0 := en.loc0, step0 := en.step0, cand0 := en.cand0 })

/-- The invocation in progress runs again from its start (R372, R242). -/
def State.bstAgain (s : State) (b g : Nat) : State :=
  let en := s.engOf b g
  match en.ent with
  | none => s
  | some e => match (s.ent b e).op with
    | some h => s.bstSet b g e en.kind h en.prog (s.codeAt (0x10 + en.prog))
    | none => s

/-- Starts an invocation on an engine that holds the handoff of entry e (R216), or refuses its program (R210). -/
def State.bstStart (s : State) (b g e kind : Nat) (h : Handoff) : State :=
  let x := s.ent b e
  let v := h.block.getD 0
  let n := s.progOf x kind v
  match s.program kind n with
  | none => s.bstFail b g (2 ^ 16 + faultWhat b g n)
  | some w =>
    let s1 := (s.oInc (0x42C0 + b) 1).began (0x42C0 + b) 4
    let s2 := if kind = 2 then s1.oInc (0x42C0 + b) 2 else s1
    (if kind = 3 then s2.oInc (0x4240 + b) 9 else s2).bstSet b g e kind h n w

/-- The handoff of an engine has ended: the engine is free. -/
def State.bstDone (s : State) (b g e : Nat) (l : Loc) : State := (s.freeEng b g).leafDone b e l

/-- What an engine does next for its handoff: a filter, the next primitive, or the end (R209, R211). -/
def State.bstNext (s : State) (b g : Nat) : State :=
  match (s.engOf b g).ent with
  | none => s
  | some e =>
    let x := s.ent b e
    match x.op, x.item with
    | some h, some it =>
      if h.cand.isSome then s.bstStart b g e 2 h
      else if s.stillWaits b x then s
      else
        let v := h.block.getD 0
        if it.ty = 7 then
          (if h.loc.ended ∨ lfCount v ≤ h.step ∨ (x.phase = 4 ∧ h.step ≠ x.firstPrim) then s.bstDone b g e h.loc else s.bstStart b g e (if isRay x.qr.kind then 1 else 3) h)
        else if it.ty = 8 then s.bstDone b g e h.loc
        else
          let s1 := (s.modEnt b e (fun y => { y with waits := [] })).blockRun b e h it.ty it.addr v h.map
          match (s1.ent b e).op with
          | some h1 => if h1.cand.isSome then s1.bstStart b g e 2 h1 else s1
          | none => s1.freeEng b g
    | _, _ => s.freeEng b g

/-- The invocation of an engine is over: its handoff goes on. -/
def State.bstOver (s : State) (b g e : Nat) (h : Handoff) : State :=
  ((s.modEnt b e (fun x => { x with op := some h })).modEng b g (fun en =>
    { ent := some e, loc0 := en.loc0, step0 := en.step0, cand0 := en.cand0 })).bstNext b g

/-- END: the tile reads the candidate window (R212). -/
def State.bstEnd (s : State) (b g : Nat) : State :=
  let en := s.engOf b g
  let c := en.candW
  let verd := bytesAt c 0xD 1
  match en.ent with
  | none => s
  | some e =>
    let x := s.ent b e
    match x.op with
    | none => s
    | some h =>
      let v := h.block.getD 0
      let front := bit (bytesAt c 0xC 1) 0 != x.flipped
      let next := fun (l : Loc) => { h with loc := l, step := h.step + 1, cand := none }
      if 2 ≤ verd then s.bstFail b g (faultWhat b g 0)
      else if en.kind = 2 then
        match h.cand with
        | some (ht, _) => s.bstOver b g e (next (if verd = 1 then x.accept h.loc ht else h.loc))
        | none => s.bstOver b g e (next h.loc)
      else if en.kind = 3 then
        s.bstOver b g e (next (if verd = 1 then x.shapeHit h.loc 7 (lfPrim v + h.step) (lfGeom v) else h.loc))
      else if verd = 0 then s.bstOver b g e (next h.loc)
      else if fNan (bytesAt c 0 4) then s.bstFail b g (faultWhat b g 0)
      else if x.phase = 4 then s.bstDone b g e (h.loc.again (bytesAt c 4 4) (bytesAt c 8 4) front)
      else
        let ht : Hit := { t := bytesAt c 0 4, ptype := 7, prim := lfPrim v + h.step, geom := lfGeom v, path := x.path,
                          front := front, u := bytesAt c 4 4, v := bytesAt c 8 4, idx := h.step }
        if !x.admits h.loc ht then s.bstOver b g e (next h.loc)
        else
          let st := if lfOpaque v then opOpaque else opUnkOpaque
          match verdict x.force (s.filterProg x) st with
          | .accept => s.bstOver b g e (next (x.accept h.loc ht))
          | .reject => s.bstOver b g e (next h.loc)
          | .filter => s.bstOver b g e { h with cand := some (ht, st) }

/-! ## Traps, repetition, budget (R236 to R240) -/

/-- A trap: the invocation ends in the trap state or without a handler; otherwise the engine enters the trap state (R237,
R239). A BUDGET trap gives the handler 256 instructions (R240). -/
def State.bstTrap (s : State) (b g cause tpc trem : Nat) (insn : Word) : State :=
  let en := s.engOf b g
  if en.trapped ∨ s.codeAt 8 = 0 then s.bstFail b g (faultWhat b g cause)
  else
    let s1 := (s.oInc (0x42C0 + b) 5).modEng b g (fun en =>
      { en with ta := en.a, tx := en.x, ty := en.y, tct := en.ct, tflg := BitVec.ofNat 8 en.fl.toNat, tcause := cause,
                tpc := BitVec.ofNat 16 tpc, tinsn := insn, trem := BitVec.ofNat 16 trem, trapped := true, pc := 8, rep := 0,
                budget := if cause = tcBudget then 256 else en.budget })
    if cause = tcBudget then (s1.oInc (0x42C0 + b) 6).raise 0x5600 1 (4 * b + g) else s1

/-- An instruction has acted: it counts, and the engine goes to pc with `rep` repetitions due; DZ and PC_RANGE traps follow it
(R236, R238, R240). -/
def State.bstGo (s : State) (b g : Nat) (en : Engine) (w : Word) (pc rep : Nat) (dz : Bool) : State :=
  let s1 := (s.oInc (0x42C0 + b) 3).modEng b g (fun _ => { en with pc := pc, rep := rep, last := w, budget := en.budget - 1 })
  if dz && en.trapDz then s1.bstTrap b g tcDz pc rep w
  else if 0x1000 ≤ pc then s1.bstTrap b g tcPcRange pc rep w
  else s1

/-- Applies what an instruction does (R232, R236 to R240). -/
def State.bstApply (s : State) (b g : Nat) (w : Word) (r : Res) : State :=
  let en := s.engOf b g
  let seqPc := if 1 < en.rep then en.pc else en.pc + 1
  match r with
  | .seq en1 dz => s.bstGo b g en1 w seqPc (en.rep - 1) dz
  | .jump en1 pc => s.bstGo b g en1 w pc 0 false
  | .trap c => s.bstTrap b g c en.pc en.rep w
  | .soft =>
    ((s.oInc (0x42C0 + b) 3).modEng b g (fun en => { en with last := w, budget := en.budget - 1 })).bstTrap b g tcSoft (en.pc + 1) 0 w
  | .latch n => s.bstGo b g en w (if n = 0 then en.pc + 2 else en.pc + 1) n false
  | .done => (s.oInc (0x42C0 + b) 3).bstEnd b g
  | .fault => (s.oInc (0x42C0 + b) 3).bstFail b g (faultWhat b g 0)
  | .rtt =>
    if en.tcause = tcBudget then (s.oInc (0x42C0 + b) 3).bstFail b g (faultWhat b g tcBudget)
    else
      let en1 := { en with a := en.ta, x := en.tx, y := en.ty, ct := en.tct, fl := Flags.ofNat en.tflg.toNat, trapped := false }
      s.bstGo b g en1 w en.tpc.toNat en.trem.toNat false

/-- The instruction at the PC of engine g, if an invocation runs there and can go on. -/
def State.bstWord (s : State) (b g : Nat) : Option Nat :=
  let en := s.engOf b g
  if b < 48 ∧ g < 4 ∧ s.bobRuns b ∧ en.kind ≠ 0 ∧ en.budget ≠ 0 then some (s.codeAt en.pc) else none

/-- Engine g executes the instruction at its PC, which has this opcode (R232). One of 0x60 to 0x69 after REP traps (R236). -/
def State.bstInstr (s : State) (b g : Nat) (chk : Chk) (opcode : Nat) (op : Op) : State :=
  match s.bstWord b g with
  | none => s
  | some w =>
    if iOp w ≠ opcode then s
    else s.checked chk b 4 g (fun s =>
      let en := s.engOf b g
      let ww := BitVec.ofNat 32 w
      if 0 < en.rep ∧ 0x60 ≤ opcode ∧ opcode ≤ 0x69 then s.bstTrap b g tcIllegal en.pc 0 ww
      else s.bstApply b g ww (op s.cstAt en w))

/-- The opcodes of R232. -/
def opKnown (o : Nat) : Bool :=
  (decide (1 ≤ o) && decide (o ≤ 0x13)) || (decide (0x20 ≤ o) && decide (o ≤ 0x38)) || (decide (0x40 ≤ o) && decide (o ≤ 0x4B)) ||
  (decide (0x60 ≤ o) && decide (o ≤ 0x69))

/-- A reserved opcode traps (R232, R238). -/
def State.bstIllegal (s : State) (b g : Nat) : State :=
  match s.bstWord b g with
  | none => s
  | some w => if opKnown (iOp w) then s else s.bstTrap b g tcIllegal (s.engOf b g).pc (s.engOf b g).rep (BitVec.ofNat 32 w)

/-- The budget is used up and the invocation has not ended (R240). -/
def State.bstBudget (s : State) (b g : Nat) : State :=
  let en := s.engOf b g
  if b < 48 ∧ g < 4 ∧ s.bobRuns b ∧ en.kind ≠ 0 ∧ en.budget = 0 then s.bstTrap b g tcBudget en.pc en.rep en.last else s

/-! ## Handoffs (R208, R220) -/

/-- An engine fills its primitive window with the block of its handoff (R241), and then runs; false while sectors of it are missing. -/
def State.bstFill (b : Nat) (s : State) (g : Nat) : State × Bool :=
  match (s.engOf b g).ent with
  | none => (s, true)
  | some e =>
    let x := s.ent b e
    match x.op, x.item with
    | some h, some it =>
      if s.stillWaits b x then (s, false)
      else if h.block.isSome ∨ it.ty ≠ 7 then
        let s1 := s.bstNext b g
        (s1, (s1.engOf b g).ent.isNone || (s1.engOf b g).kind != 0)
      else match (s.modEnt b e (fun y => { y with waits := [] })).blockRead b e 7 it.addr with
        | (.wait, s1) => (s1, false)
        | (.fault, s1) => ((s1.freeEng b g).leafFault b e stWindow, true)
        | (.bytes v, s1) =>
          let blk := bytesAt v 0 (64 * lfSize v)
          if !headOk 7 v || !blockOk 7 blk then ((s1.freeEng b g).leafFault b e stFormat, true)
          else ((s1.modEnt b e (fun y => { y with op := some { h with block := some blk }, waits := [] })).bstNext b g, true)
    | _, _ => (s.freeEng b g, true)

/-- Engine g takes the handoff of entry e (R208); one whose query has ended meanwhile is dropped. -/
def State.bstTake (s : State) (b g e : Nat) : State :=
  let x := s.ent b e
  match x.op with
  | none => s
  | some h =>
    if (match x.slot with | some k => (s.q k).kill.isSome | none => true) then s.leafStop b e
    else (State.bstFill b ((s.modEnt b e (fun y => { y with op := some { h with engine := some g } })).modEng b g (fun _ =>
      { ent := some e, loc0 := h.loc, step0 := h.step, cand0 := h.cand })) g).1

/-- An engine whose handoff waits for bytes goes on when they are in; otherwise the lowest-numbered free engine takes the
first handoff of the queue (R208), unless an image load waits (R220). -/
def State.basteHandoff (s : State) (b : Nat) : State :=
  if b < 48 ∧ s.bobRuns b then
    match goOn ((List.range 4).filter (fun g => (s.engOf b g).ent.isSome && (s.engOf b g).kind == 0)) s with
    | (s1, true) => s1
    | (s1, false) =>
      if s1.tile.imgStep ≠ 0 then s1
      else match firstIdx 4 (fun g => (s1.engOf b g).ent.isNone && !s1.engineOff b g), s1.queueOf b 3 with
        | some g, e :: _ => s1.bstTake b g e
        | _, _ => s1
  else s
where
  goOn : List Nat → State → State × Bool
    | [], s => (s, false)
    | g :: r, s => match State.bstFill b s g with
      | (s1, true) => (s1, true)
      | (s1, false) => goOn r s1

/-! ## The image (R219, R220, R221) -/

/-- NCODE, NCONST and the size of an image from its header (R219). DESIGN CHOICE: with NCONST = 0 the image ends at the next multiple of 64 after the code,
where its constants would begin (log 116). -/
def imgNcode (h : Nat) : Nat := bytesAt h 6 2
def imgNconst (h : Nat) : Nat := bytesAt h 8 4
def imgConstAt (h : Nat) : Nat := roundUp (0x40 + 4 * imgNcode h) 64
def imgSize (h : Nat) : Nat := imgConstAt h + imgNconst h

/-- The header's checks. -/
def imgHdrOk (h : Nat) : Bool :=
  w32 h 0 == 0x42545342 && bytesAt h 4 2 == 1 && decide (1 ≤ imgNcode h) && decide (imgNcode h ≤ 4096) && imgNconst h % 64 == 0 &&
  decide (imgNconst h ≤ 32768) && w32 h 0xC / 4 == 0 && bytesAt h 0x14 44 == 0

/-- One program-table entry: absent, or its res0 fields zero and ENTRY in range (R217, R218). -/
def progOk (i w : Nat) : Bool :=
  w == 0 || (i != 0 && bit w 19 == false && fld w 28 4 == 0 && decide (9 ≤ fld w 0 16) && decide (fld w 0 16 ≤ 0xFFF))

/-- The checks of a whole image. -/
def imgOk (v : Nat) : Bool :=
  let code := fun i => if i < imgNcode v then w32 v (0x40 + 4 * i) else 0
  imgHdrOk v && (List.range 8).all (fun i => code i == 0) && (List.range 256).all (fun i => progOk i (code (0x10 + i))) &&
  crc32 ((toBytes (imgSize v) v).drop 0x40) == w32 v 0x10

/-- The load ends with a refusal (R220, R244). -/
def State.imgFail (s : State) (status : Nat) : State :=
  ((s.modTile (fun t => { t with imgStep := 0 })).oSet 0x2500 3 status).raise 0x5600 3 status

/-- IMG_LOAD: STAT and the state (R220, R492). -/
def State.imgLoad (s : State) (code : Nat) : Nat × State :=
  if s.o 0x2500 3 = 1 then (0x83, s)
  else if code ≠ 1 then (0, s.oSet 0x2500 3 0x84)
  else if s.o 0x2500 1 < 64 ∧ s.ctxEn (s.o 0x2500 1) then (0, (s.oSet 0x2500 3 1).modTile (fun t => { t with imgStep := 1 }))
  else (0, s.imgFail 0x80)

/-- Handoffs are running: on an intersector or an array, or on an engine (R220). -/
def State.bstBusy (s : State) : Bool := s.eng.any (fun e => e.2.ent.isSome)

/-- No handoff runs: the tile reads the image (R220). -/
def State.imgWrite (s : State) : State :=
  if s.live ∧ s.tile.imgStep = 1 ∧ !s.bstBusy then
    (s.modTile (fun t => { t with imgStep := 2 })).startJob .bstHeader (s.o 0x2500 1) (s.o 0x2500 2) 64 .rd noWhat
  else s

/-- The words of an area as a table. -/
def wordTable (v o n : Nat) : Tbl Nat := ((List.range n).map (fun i => (i, w32 v (o + 4 * i)))).filter (fun p => p.2 != 0)

/-- The header is in: the body is read. A read that ends in an error is answered as a window fault is (log 35). -/
def State.imgHeader (s : State) (j : Job) : State :=
  if s.tile.imgStep ≠ 2 then s
  else if j.err ≠ 0 then s.imgFail 0x81
  else if !imgHdrOk j.data then s.imgFail 0x82
  else (s.modTile (fun t => { t with imgStep := 3 })).startJob (.bstImage (imgSize j.data)) (s.o 0x2500 1) (s.o 0x2500 2) (imgSize j.data) .rd noWhat

/-- The whole image is in: checked, and written into every engine (R220). -/
def State.imgBody (s : State) (j : Job) : State :=
  if s.tile.imgStep ≠ 3 then s
  else if j.err ≠ 0 then s.imgFail 0x81
  else if !imgOk j.data then s.imgFail 0x82
  else
    let v := j.data
    (((({ s with code := wordTable v 0x40 (imgNcode v), const := wordTable v (imgConstAt v) (imgNconst v / 4), ectrlInit := w32 v 0xC } : State).modTile
      (fun t => { t with imgStep := 0 })).oSet 0x2500 3 0).oSet 0x2500 4 (w32 v 0x10)).raise 0x5600 2 noWhat

end Sys2Proof.Machine
end

