-- ==== Sys2Proof/Machine/Finish.lean ====
section
/-! DEFINITION. How a query leaves its ray-store entry: the finishing walk (R118, R119), parks and victims (R196, R197, R376),
completion (R55 to R58, R172, R360), loss and recovery (R375, R377, R379), reverts (R391). -/

namespace Sys2Proof.Machine

/-! ## Finishing walks (R118, R119) -/

/-- Entries of a Needle's finishing buffer that its finishing walks hold, until their queries complete with what they collected. -/
def State.finUse (s : State) (b n : Nat) : Nat :=
  ((s.occupants b).filter (fun x => x.1 / 512 == n && (x.2.phase == 2 || (x.2.phase == 3 && !x.2.collected.isEmpty)))).foldl (fun a x => a + x.2.qr.finK) 0

/-- Starts the finishing walk of an entry when its buffer entries are free; earlier ones of the Needle go first (R119). -/
def State.finishingWalk (s : State) (b e : Nat) : State :=
  let x := s.ent b e
  match x.slot with
  | none => s
  | some k =>
    let first := ((s.needleList b (e / 512)).filter (fun y => y.2.phase == 1)).head?.map (fun y => y.1)
    if b < 48 ∧ s.run ∧ s.ncOn ∧ s.bobRuns b ∧ x.phase = 1 ∧ x.op = none ∧ first = some e ∧ s.inService b ∧ s.finUse b (e / 512) + x.qr.finK ≤ 256 ∧
      (s.q k).kill = none ∧ !(s.ctxOf x.qr.ctx).aborting then
      let q := s.q k
      let lim := q.finLims
      let s1 := s.modEnt b e (fun y =>
        { y with phase := 2, qr := { y.qr with trail := if q.fin.isSome ∨ q.served.isSome then (if y.qr.trail = trailFinishing then 0 else y.qr.trail) else 0 },
                 tlo := lim.1, thi := lim.2, collected := q.fin.getD [], stack := [], dropped := false })
      ((s1.modQ k (fun q => { q with fin := none })).setItem b e (s1.rootItem k)).oInc (0x4200 + b) 6
    else s

/-! ## Loss and recovery (R375, R377, R379) -/

/-- What a query has with the Hem and not delivered is dropped, records and pages (R377). -/
def State.dropRecords (s : State) (k : Nat) : State :=
  let q := s.q k
  s.modSt q.qr.ctx q.qr.stream (fun x => { x with hem := x.hem.filter (fun i => !(i.slot == k && !i.terminal && i.seq == q.qr.seq)) })

/-- The activations of a query end: it is in no entry and in no queue of the Pleater. -/
def State.detach (s : State) (k : Nat) : State :=
  match (s.q k).place with
  | .rayStore b e => (s.cutOp b e).leave b e
  | .binned | .held => s.unbin k
  | _ => s

/-- A loss (R377): UNRECOVERED, or in mending mode the wait for a reissue (R378, R379). -/
def State.loss (s : State) (k : Nat) : State :=
  let q := s.q k
  if q.place = .none ∨ q.place = .hem ∨ q.place = .parent ∨ q.place = .charged then s
  else
    let s1 := (s.detach k).dropRecords k
    if q.served.isNone && s.mending q.qr.ctx && !q.qr.isCont && decide (q.reissues < 2) && q.kill.isNone then
      s1.modQ k (fun q => { q with place := .lost, contRead := false })
    else s1.endSlot k (match q.kill with | some st => if st = stAborted then st else stUnrecovered | none => stUnrecovered)

/-- A query is recovered from parking: it goes on from the record as last written, unless its extension has changed since
(R375, R376), or it is to end (R67, R476). -/
def State.recover (s : State) (k : Nat) : State :=
  let s1 := s.oInc 0x7020 5
  match (s.q k).kill with
  | some st => s1.endSlot k st
  | none => if (s.q k).extDirty then s1.loss k else s1.insert k 1

/-- The query of an entry is recovered from parking in place of the entry, which it leaves (R375). -/
def State.recoverEnt (s : State) (b e : Nat) : State :=
  match (s.ent b e).slot with
  | some k => (((s.cutOp b e).leave b e).modQ k (fun q => { q with place := .binned })).recover k
  | none => s

/-- A ray-store entry has an uncorrectable error: it is reported and retired, and its query is recovered (R372, R373, R433; log 119). -/
def State.entError (s : State) (b e : Nat) : State :=
  ((s.raise (0x5100 + b) 1 (6 * 2 ^ 20 + e / 512 % 4096)).modEnt b e (fun x => { x with retired := true })).recoverEnt b e

/-- An operation of an entry's query meets an uncorrectable error of a store in place of being done (R372), or goes as `go` says. -/
def State.storeError (s : State) (chk : Chk) (b e : Nat) (go : State → State) : State :=
  match chk with
  | .data => s.readError b e false
  | .tag => s.readError b e true
  | .entry => s.entError b e
  | _ => go s

/-! ## Victims (R196, R134, R392) -/

/-- The victim in a Bobbin: the last loaded with no operation in flight, else the last loaded; a finishing walk only when its
Needle has no other, a re-descent never (R134, R392). DESIGN CHOICE: where a Needle holds only finishing walks and re-descents, neither is taken, as
R134 and R392 each defer to the other (log 113). -/
def State.victimOf (s : State) (b : Nat) : Option Nat :=
  let all := (s.occupants b).filter (fun x => x.2.qr.cls != 0 && x.2.phase < 3 && !x.2.parkAsked)
  let can := all.filter (fun x => x.2.redescend == 0 &&
    (x.2.phase != 2 || all.all (fun y => y.1 / 512 != x.1 / 512 || y.2.phase == 2)))
  let pick := fun (l : List (Nat × Entry)) => (maxBy (fun i => (s.ent b i).order) (l.map (fun x => x.1)))
  match pick (can.filter (fun x => x.2.op.isNone)) with
  | some e => some e
  | none => pick can

/-- Asks for a victim, one for each waiting class-0 query, in the awake Bobbin with the most queries of classes 1 to 3. -/
def State.askVictim (s : State) : State :=
  let asked := (s.rs.filter (fun e => e.2.slot.isSome && e.2.parkAsked)).length
  if s.tile.cl0.length ≤ asked then s
  else
    let load := fun b => ((s.occupants b).filter (fun x => x.2.qr.cls != 0)).length
    match maxBy load s.awakeList with
    | none => s
    | some b => match s.victimOf b with
      | some e => s.modEnt b e (fun x => { x with parkAsked := true })
      | none => s

/-- CL0_RELEASE: the head of the class-0 queue is served, or a victim is asked for (R194, R196). -/
def State.cl0Release (s : State) : State :=
  match s.cl0Load with
  | (s1, true) => s1
  | (s1, false) => s1.askVictim

/-- A freed entry goes to the head of the class-0 queue (R196). -/
def State.cl0Into (s : State) (b e : Nat) : State :=
  match s.tile.cl0.find? (fun k => !(s.ctxOf (s.q k).qr.ctx).aborting) with
  | none => s
  | some k =>
    let need := s.need k
    if s.run && s.ncOn && (need == .any || (need == .array && s.arrayOk b)) && s.mayTake b then
      (s.modTile (fun t => { t with cl0 := t.cl0.filter (fun j => j != k) })).load k b e
    else s

/-! ## Parks (R197, R376) -/

/-- The next item of an entry needs the leaf array (R376). -/
def Entry.wantsArray (x : Entry) : Bool := match x.item with | some it => it.ty == 8 || it.ty == 9 || it.ty == 0xA | none => false

/-- A bin of classes 1 to 3 is ripe while no Bobbin has free entries for it (R197). -/
def State.binsPress (s : State) : Bool :=
  s.tile.bins.any (fun e => e.2.entries.any s.releasable && s.binRipe e &&
    (s.targets (s.need (e.2.entries.headD 0))).all (fun b => s.freeEnts b == 0))

/-- The activation budget is used up (R197). -/
def State.budgetDue (s : State) (x : Entry) : Bool :=
  let lim := s.o 0x2400 0x0A
  lim != 0 && decide (lim ≤ x.ops) && s.binsPress

/-- The next leaf does not start for want of pending-record entries or for its own query's pending records (R116, R147, R171). -/
def State.pendDue (s : State) (b e : Nat) : Bool × State :=
  let x := s.ent b e
  match x.item with
  | none => (false, s)
  | some it =>
    if it.ty < 3 ∨ it.ty = 9 ∨ it.ty = 0xB ∨ x.phase ≠ 0 then (false, s)
    else match s.entRead b e it.addr 1 with
      | (.bytes v, s1) => (s1.leafGate b e it.ty v == .park, s1)
      | (_, s1) => (false, s1)

/-- Writes an unfinished query back to parking for one of the causes of R197, R326, R374 or R376. One that has its result is parked only where
its Bobbin cannot repeat the test (R30). A release that does not fit waits, and the query does not issue (R249). `bad`: the write-back meets an
uncorrectable ray-store entry (R374). -/
def State.queryPark (s : State) (b e : Nat) (bad : Bool) : State :=
  let x := s.ent b e
  match x.slot with
  | none => s
  | some k =>
    if !(decide (b < 48) && s.run && s.awake b) || x.op.isSome || x.phase == 3 || (s.q k).kill.isSome then s
    else
      let gone := x.wantsArray && s.inService b && !s.arrayOk b
      let budget := s.budgetDue x
      let v := s.bobOf b
      let must := v.wd || gone || !s.ncOn
      let pd := if must then (true, s) else if x.phase == 4 then (false, s)
        else if v.drain || x.parkAsked || x.relWait || budget then (true, s) else s.pendDue b e
      if !pd.1 then pd.2
      else if bad then pd.2.entError b e
      else if gone ∧ (s.partner b).isNone then s.failEntry b e stUnrecovered
      else
        let s1 := pd.2
        if !s1.releaseFits b e then (s1.modEnt b e (fun y => { y with relWait := true })).rbStop x.qr.ctx x.qr.stream
        else
          let s2 := s1.parkBack b e x.parkTrail (x.parkNext (s1.q k).nextItem)
          let s3 := if gone then (s2.modQ k (fun q => { q with moved := some b })).oInc 0x7020 6 else s2
          let s4 := s3.insert k 1
          if x.parkAsked then (s4.oInc 0x4300 0x0A).cl0Into b e else if budget then s4.oInc 0x4300 0x0C else s4

/-- REVERT: the releases of an entry have waited for pages too long (R391). -/
def State.revert (s : State) (b e : Nat) : State :=
  let x := s.ent b e
  match x.slot with
  | none => s
  | some _ =>
    if b < 48 ∧ s.run ∧ x.op = none ∧ !s.releaseFits b e then
      (s.oInc 0x7020 0x0B).recoverEnt b e
    else s

/-! ## Completion (R55 to R58, R118, R172) -/

/-- The hits that a ray query with a list or a single hit delivers: what its finishing walk collected, else its best
register. -/
def Entry.hits (x : Entry) : List Hit :=
  if x.qr.kind = kKhit then x.collected
  else if !x.collected.isEmpty then x.collected.take 1 else x.best.toList

/-- Marks the last of a list of records. -/
def lastMark (status : Nat) (l : List Rec) : List Rec :=
  match l.getLast? with
  | some r => l.dropLast ++ [r.last status]
  | none => l

/-- The records of a query that ends without a fault, and its status (R58). `fv` fills what a terminal neighbour record does
not state. -/
def State.finalRecs (s : State) (x : Entry) (k fv : Nat) (capped : Bool) : List Rec × Nat :=
  let q := s.q k
  let r := q.qr
  let cut := fun st => if capped || x.truncated then stTruncated else st
  let none_ := fun st => ([terminalRec r st fv], st)
  if r.kind = 0 then none_ stDone
  else if isStreamed r.kind then none_ (if x.truncated then stTruncated else if capped then stTruncated else if r.w38 / 2 ^ 32 = 0 then stNoHit else stDone)
  else if r.kind = kKnn then
    (if q.list.isEmpty then none_ stNoHit
     else (lastMark stDone ((List.range q.list.length).map (fun i =>
       let y := q.list.getD i default
       Rec.nbr (nbrBytes r.seq y.t y.id i false true 0))), stDone))
  else
    let hs := x.hits
    if hs.isEmpty then none_ (cut stNoHit)
    else (lastMark (cut stDone) ((List.range hs.length).map (fun i => (hs.getD i default).record r (if r.kind = kKhit then i else 0))), cut stDone)

/-- RESULT of a served query (R356, R359, R360). -/
def State.answerDone (s : State) (x : Entry) (k : Nat) (v : Served) : State :=
  let q := s.q k
  let v1 := q.served.getD v
  let hs := x.hits
  let single := q.qr.kind == kRayClosest || q.qr.kind == kRayAny
  let list := if q.qr.kind = kKhit ∧ v.closed then x.collected.map (fun h => ({ t := h.t, w := h.instw, id := h.primw } : LEntry)) else q.list
  let usesList := q.qr.kind == kKhit || q.qr.kind == kKnn
  let r := if usesList then { q.qr with w38 := setFld q.qr.w38 24 9 list.length } else q.qr
  let r1 := { r with ctx := v.octx }
  let attr := match single, hs.head? with
    | true, some h => h.t + h.u * 2 ^ 32 + h.v * 2 ^ 64 + h.inst * 2 ^ 96 + h.primw * 2 ^ 128 +
        (List.range 4).foldl (fun a i => a + (h.path.getD i 0xFFFFFF) % 2 ^ 24 * 2 ^ (256 + 32 * i)) 0
    | _, _ => 0
  let nl := if usesList then list.length else 0
  let lb := (List.range nl).foldl (fun a i =>
    let y := list.getD i default
    a + (y.t % 2 ^ 32 + y.w % 2 ^ 32 * 2 ^ 32 + y.id % 2 ^ 64 * 2 ^ 64) * 2 ^ (128 * i)) 0
  let rst := if x.truncated then stTruncated else 0
  let valid := single && !hs.isEmpty
  (s.toAnswer k).answer v1 2 (rst + b2n valid * 2 ^ 8 + b2n v1.partial_ * 2 ^ 9 + v1.sent * 2 ^ 32) q.qr.trail (0x70 + 16 * nl)
    (r1.bytes + attr * 2 ^ 512 + lb * 2 ^ 896) q.qr.handle

/-- COMPLETION: a query whose walk has ended goes to the Hem with its records (R58), or back to its origin (R359). What it had
pending is released with it (R59). -/
def State.completion (s : State) (b e : Nat) : State :=
  let x := s.ent b e
  match x.slot with
  | none => s
  | some k =>
    if !(decide (b < 48) && s.run && s.awake b) || x.op.isSome || x.phase != 3 then s
    else if !s.releaseFits b e then s.rbStop x.qr.ctx x.qr.stream
    else
      let s1 := s.modQ k (fun q => { q with qr := x.qr, remoteHit := if x.best.isSome && !x.remoteForm then {} else q.remoteHit })
      let s2 := (s1.releaseOut k x.pend x.samples).leave b e
      let q := s2.q k
      match x.status with
      | some st => s2.endSlot k st
      | none =>
        match q.served with
        | some v => s2.answerDone x k v
        | none =>
          let d := s2.openVal q.qr.ctx (s2.openKey q.qr q.body0 q.desc q.genN 256)
          let capped := q.qr.trace && decide (q.traceCap ≤ q.traceWritten)
          let fr := d.2.finalRecs x k d.1 capped
          (d.2.traceFlags k x.hits).toHem k fr.2 fr.1

end Sys2Proof.Machine
end

