-- ==== Sys2Proof/Machine/Hem.lean ====
section
/-! DEFINITION. The Hem, part 2: credit (R251, R254), grain order (R264), result rings (R250 to R253), slots (R254 to R263,
R267), delivery (R248) and the fallback ring (R262, R494). -/

namespace Sys2Proof.Machine

/-! ## Credit (R251, R254) -/

/-- A consumed count written by the host: applied if it is at most the producer's count, otherwise CRED_RANGE (R251). -/
def creditOk (v old prod : Word) : Bool := decide ((v - old).toNat ≤ (prod - old).toNat)

/-- A write of RCONS. -/
def State.rconsWrite (s : State) (c st : Nat) (v : Word) : State :=
  let x := s.st c st
  if creditOk v x.rcons x.prod then s.modSt c st (fun x => { x with rcons := v }) else s.raise (0x5900 + c) 4 st
/-- A write of SCRED. -/
def State.scredWrite (s : State) (c st : Nat) (v : Word) : State :=
  let x := s.st c st
  if creditOk v x.scred x.fills then s.modSt c st (fun x => { x with scred := v }) else s.raise (0x5900 + c) 4 (st + 16)

/-! ## Fields of the delivery objects (R246) -/

def State.rlog (s : State) (c st : Nat) : Nat := fld (s.resCtrl c st) 8 5
def State.redir (s : State) (c st : Nat) : Bool := bit (s.resCtrl c st) 16
def State.rfault (s : State) (c st : Nat) : Bool := bit (s.resCtrl c st) 17
def State.setResBit (s : State) (c st i : Nat) (v : Bool) : State := s.coSet c 0x12 (setFld (s.resCtrl c st) i 1 (b2n v)) (1 + st)
def State.slog (s : State) (c st : Nat) : Nat := fld (s.slotCtrl c st) 0 4
def State.sstride (s : State) (c st : Nat) : Nat := fld (s.slotCtrl c st) 8 16
def State.slotBase (s : State) (c st : Nat) : Nat := s.co c 0x14 (1 + st)

/-! ## Grain order (R264) -/

/-- Whether the query at place p of descriptor d comes before the one at p' of d' (R264). -/
def grainBefore (d p d' p' : Nat) : Bool := decide (d < d') || (d == d' && decide (p < p'))

/-- Whether two items are of one query. -/
def HemItem.same (i j : HemItem) : Bool := j.slot == i.slot && j.seq == i.seq && j.dord == i.dord && j.pos == i.pos

/-- Whether a query's terminal record has been placed in a fill or given its ring entry; a parent's slots stay for its continuations. -/
def StreamSt.taken (x : StreamSt) (k : Nat) (seq : Word) (d : Nat) : Bool :=
  let own := fun (j : HemItem) => j.slot == k && j.seq == seq && j.dord == d && j.terminal && j.frees
  x.ringOut.any (fun y => own y.2) || x.closing.any (fun f => f.placed.any own) || (match x.open_ with | some f => f.placed.any own | none => false)

/-- Whether a query of the stream goes before this item and has not been handed on. -/
def State.heldForGrain (s : State) (c st : Nat) (i : HemItem) : Bool :=
  s.grain c &&
  (let x := s.st c st
   x.hem.any (fun j => grainBefore j.dord j.pos i.dord i.pos) ||
   s.slot.any (fun e =>
     let q := e.2
     q.place != .none && q.place != .charged && q.served.isNone && q.qr.ctx == c && q.qr.stream == st && e.1 != i.slot && !x.taken e.1 q.qr.seq q.dord &&
     grainBefore q.dord (q.qr.grainPos q.genN) i.dord i.pos))

/-! ## Queries ready for a slot or for the fallback ring (R257) -/

/-- The whole of a finished query: its terminal item with every record released before. -/
def StreamSt.wholeOf (x : StreamSt) (i : HemItem) : HemItem :=
  let own := x.hem.filter (fun j => i.same j && !j.terminal)
  { i with recs := own.flatMap (fun j => j.recs) ++ i.recs }
/-- The stream without any item of that query. -/
def StreamSt.without (x : StreamSt) (i : HemItem) : StreamSt :=
  { x with hem := x.hem.filter (fun j => !i.same j) }

/-- The next whole query that is to go to a slot (or, in a redirected stream, to the fallback ring). -/
def State.nextWhole (s : State) (c st : Nat) : Option HemItem :=
  let x := s.st c st
  (x.hem.find? (fun i => i.terminal && i.paged && !i.fallback && !s.heldForGrain c st i)).map x.wholeOf

/-! ## Delivery (R43, R45, R52, R248) -/

/-- The key of an operand (R275): SEQ, stream, GEN, ISCONT, CIDX. -/
def opKey (seq : Word) (st flags : Nat) : Nat := seq.toNat + st % 8 * 2 ^ 32 + flags % 16 * 2 ^ 35

/-- `n` records of a query have been delivered, the terminal one among them when `last` (R43, R45, R97, R248). -/
def State.deliver (s : State) (c st : Nat) (i : HemItem) (n : Nat) (last : Bool) : State :=
  let own := (s.q i.slot).place != .none && (s.q i.slot).qr.ctx == c && (s.q i.slot).qr.seq == i.seq && (s.q i.slot).dord == i.dord &&
    (s.q i.slot).qr.grainPos (s.q i.slot).genN == i.pos
  let s1 := if own then s.modQ i.slot (fun q => { q with delivered := q.delivered + n }) else s
  if !last then s1
  else
    let s2 := if i.frees && own then s1.freeQuery i.slot else s1
    let s3 := if s2.ringPost c st then (s2.oInc 0x4320 1).modTile (fun t => { t with posts := t.posts ++ [{ key := opKey i.seq st i.flags, status := i.status, ctx := c }] }) else s2
    if s3.mending c then s3.advanceHead c st else s3

/-! ## Rings (R250 to R253) -/

/-- Writes n bytes of the Hem inside one 64-byte block, and counts them (R265). -/
def State.hemWrite (s : State) (c st a n data : Nat) (rel : Bool) (wp : WPurp) : State :=
  (s.writeOut c a (data % 256 ^ n * 256 ^ (a % 64)) ((2 ^ n - 1) * 2 ^ (a % 64)) rel wp st).oAdd 0x4310 9 n

/-- Writes the ring entry of count p (R250). -/
def State.ringPut (s : State) (c st : Nat) (p : Word) (r : Rec) : State :=
  s.hemWrite c st (s.co c 0x11 (1 + st) + 32 * (p.toNat % 2 ^ s.rlog c st)) 32 r.wide false (.ringEnt c st (s.st c st).ep p)

/-- The next item whose records go to the ring: of a ring stream, or one for the fallback ring. In a redirected slot stream a
whole query is taken (R262). In grain mode it waits for the fills ahead of it, but not for an open fill that R259 closes only
after it (log 45). -/
def State.ringItem (s : State) (c st : Nat) : Option HemItem :=
  let x := s.st c st
  let fits := fun (i : HemItem) => i.paged && !s.heldForGrain c st i
  let quiet := !s.grain c || (x.closing.isEmpty && (x.open_.isNone || fld (s.slotCtrl c st) 24 8 == 0))
  if !s.destSlot c st then x.hem.find? fits
  else if !quiet then none
  else match x.hem.find? (fun i => i.fallback && fits i) with
    | some i => some i
    | none => if s.redir c st then s.nextWhole c st else none

/-- RING_ENTRY_WRITE: the entries to be written again first (R253), then the next record of the stream (R251). A record that a
reissued query had delivered is discarded (R380). -/
def State.ringEntryWrite (s : State) (c st : Nat) : State :=
  let x := s.st c st
  if !(s.run && decide (c < 64) && decide (st < 8)) || s.rfault c st || (s.ctxOf c).aborting then s
  else match x.retry with
    | p :: rest =>
      let s1 := s.modSt c st (fun x => { x with retry := rest })
      (match x.ringOut.find? (fun y => y.1 == p) with
       | some y => s1.ringPut c st p (y.2.recs.headD (.trc 0))
       | none => s1)
    | [] =>
      match s.ringItem c st with
      | none => s
      | some i =>
        match i.recs with
        | [] => s.modSt c st (fun x => x.without i)
        | r :: rest =>
          let left := { i with recs := rest, fallback := i.fallback || s.destSlot c st }
          let put := fun (s : State) => s.modSt c st (fun x =>
            let y := if s.destSlot c st && !i.fallback then x.without i else { x with hem := x.hem.filter (fun j => j != i) }
            { y with hem := if rest.isEmpty then y.hem else left :: y.hem })
          let q := s.q i.slot
          if 0 < q.skip ∧ q.qr.seq = i.seq ∧ q.qr.ctx = c ∧ q.qr.stream = st ∧ !r.isLast then
            (put s).modQ i.slot (fun q => { q with skip := q.skip - 1 })
          else if (x.issued - x.rcons).toNat < 2 ^ s.rlog c st then
            let last := rest.isEmpty && i.terminal
            let s1 := ((put s).modSt c st (fun x => { x with issued := x.issued + 1, ringOut := x.ringOut ++ [(x.issued, { i with recs := [r], terminal := last })] })).oInc 0x4310 1
            s1.ringPut c st x.issued r
          else s

/-- PROD passes the entries whose writes have completed, in order (R252). -/
def State.prodStep (c st : Nat) : (fuel : Nat) → State → State
  | 0, s => s
  | f + 1, s =>
    let x := s.st c st
    if x.ringDone.contains x.prod then
      match x.ringOut.find? (fun y => y.1 == x.prod) with
      | some y =>
        let s1 := s.modSt c st (fun z => { z with prod := z.prod + 1, ringDone := z.ringDone.filter (fun p => p != x.prod), ringOut := z.ringOut.filter (fun p => p.1 != x.prod) })
        State.prodStep c st f (s1.deliver c st y.2 1 y.2.terminal)
      | none => s
    else s

/-- A ring-entry write has completed (R252, R253). -/
def State.ringWrote (s : State) (c st ep : Nat) (p : Word) (bad : Bool) : State :=
  let x := s.st c st
  if ep ≠ x.ep ∨ !x.ringOut.any (fun y => y.1 == p) then s
  else if bad then
    let nearer := match x.ringFail with | some f => if (p - x.prod).toNat < (f - x.prod).toNat then p else f | none => p
    let s1 := s.modSt c st (fun x => { x with ringFail := some nearer, ringDone := x.ringDone.filter (fun q => q != p) })
    if s1.rfault c st then s1 else (((s1.setResBit c st 17 true).oInc 0x4310 5).raise (0x5900 + c) 5 st)
  else
    State.prodStep c st (x.ringOut.length + 1) (s.modSt c st (fun x => { x with ringDone := if x.ringDone.contains p then x.ringDone else x.ringDone ++ [p] }))

/-- 1 written to RFAULT: the failed record and every later one whose write had been issued are written again (R253), among them what an
earlier retry had not come to. -/
def State.rfaultClear (s : State) (c st : Nat) : State :=
  if s.rfault c st then
    let x := s.st c st
    let f := x.ringFail.getD x.prod
    let base := match x.retry with | p :: _ => if (p - x.prod).toNat < (f - x.prod).toNat then p else f | [] => f
    let again := (x.ringOut.map (fun y => y.1)).filter (fun p => decide ((base - x.prod).toNat ≤ (p - x.prod).toNat))
    (s.setResBit c st 17 false).modSt c st (fun x => { x with retry := again, ringFail := none, ringDone := x.ringDone.filter (fun p => !again.contains p) })
  else s

/-- RES_WB: the producer report (R252); one that cannot be written is dropped (R493). -/
def State.resWb (s : State) (c st : Nat) : State :=
  let x := s.st c st
  if s.run ∧ c < 64 ∧ st < 8 ∧ bit (s.resCtrl c st) 1 ∧ x.prod ≠ x.prodRep ∧ (s.ctxOf c).aborting = false then
    (s.modSt c st (fun x => { x with prodRep := x.prod })).hemWrite c st (s.co c 0x13 (1 + st)) 4 x.prod.toNat true (.resWb c st)
  else s

/-- HEAD_WB: the HEAD report (R43). -/
def State.headWb (s : State) (c st : Nat) : State :=
  let x := s.st c st
  if s.run ∧ c < 64 ∧ st < 8 ∧ bit (s.ringCtrl c st) 2 ∧ x.head ≠ x.headRep ∧ (s.ctxOf c).aborting = false then
    let a := s.co c (0x1A + 5 * st)
    (s.modSt c st (fun x => { x with headRep := x.head })).writeOut c a (x.head.toNat * 256 ^ (a % 64)) (15 * 2 ^ (a % 64)) true (.headWb c st) st
  else s

/-! ## Slots (R254 to R263) -/

/-- Fields of a slot header (R255). -/
def Fill.transposed (f : Fill) : Bool := bit f.sctrl 0
def Fill.nbr (f : Fill) : Bool := bit f.sctrl 1
def Fill.qps (f : Fill) : Nat := fld f.sctrl 8 8 + 1
def Fill.perq (f : Fill) : Nat := fld f.sctrl 16 9 + 1
def Fill.rsz (f : Fill) : Nat := if f.nbr then 16 else 32
/-- Bytes of the data area. -/
def Fill.area (f : Fill) : Nat := f.pitch * (if f.transposed then f.perq else f.qps)

/-- The header's checks (R256). -/
def Fill.hdrOk (f : Fill) (hdr stride : Nat) : Bool :=
  fld f.sctrl 2 6 == 0 && fld f.sctrl 25 7 == 0 && bytesAt hdr 8 24 == 0 && decide (0 < f.pitch) && f.pitch % f.rsz == 0 &&
  decide (f.rsz * (if f.transposed then f.qps else f.perq) ≤ f.pitch) && decide (0x40 + f.area ≤ 64 * stride)

/-- A slot ring that lies in one window (R260). -/
def State.slotRingOk (s : State) (c st : Nat) : Bool :=
  let b := s.slotBase c st
  let e := b + 64 * s.sstride c st * 2 ^ s.slog c st
  match firstIdx 64 (fun w => s.winCovers c w b) with
  | some w => s.winCovers c w (e - 1) && (List.range w).all (fun v => !(bit (s.win c v 2) 0 && decide (s.win c v 0 < e) && decide (b < s.win c v 0 + 4096 * fld (s.win c v 2) 32 32)))
  | none => true

/-- A query's records for the fallback ring, with the terminal status that R494 gives them where R61 puts it
first (log 49). -/
def HemItem.toFallback (i : HemItem) (status : Nat) : HemItem :=
  if statusRank status < statusRank i.status then
    { i with recs := restatus i.recs status, status := status, fallback := true, paged := true }
  else { i with fallback := true, paged := true }

/-- A fill fails: REDIR, SLOT_FAULT, and its queries go to the fallback ring with DELIVERY_FAULT (R262, R267), the query that opened
it among them when none was placed. The open fill behind it goes with it. A fill of a context in abort is dropped and not counted (R476). -/
def State.fillFails (s : State) (c st num : Nat) : State :=
  let x := s.st c st
  let all := x.closing ++ x.open_.toList
  match all.find? (fun f => f.number == num) with
  | none => s
  | some f =>
    if (s.ctxOf c).aborting then s.modSt c st (fun x => { x with fills := x.fills - 1, closing := x.closing.filter (fun g => g.number != num) })
    else
    let isOpen := match x.open_ with | some o => o.number == num | none => false
    let also := match x.open_ with | some o => if isOpen then [] else o.placed | none => []
    let opener := if isOpen && f.placed.isEmpty then s.nextWhole c st else none
    let back := (f.placed ++ also ++ opener.toList).map (fun i => i.toFallback stDelivery)
    let s1 := s.modSt c st (fun x => let y := match opener with | some i => x.without i | none => x
      { y with hem := back ++ y.hem, closing := x.closing.filter (fun g => g.number != num), open_ := none })
    let n := if isOpen || x.open_.isNone then 1 else 2
    ((s1.setResBit c st 16 true).oAdd 0x4310 4 n).raise (0x5900 + c) 6 st

/-- Groups bytes by 64-byte block: block address, data, mask. -/
def addBytes (l : List (Nat × Nat × Nat)) (a n v : Nat) : List (Nat × Nat × Nat) :=
  let blk := a / 64 * 64
  let d := v % 256 ^ n * 256 ^ (a % 64)
  let m := (2 ^ n - 1) * 2 ^ (a % 64)
  if l.any (fun p => p.1 == blk) then l.map (fun p => if p.1 = blk then (blk, p.2.1 + d, p.2.2 + m) else p) else l ++ [(blk, d, m)]

/-- A terminal record in the format of the slot, where it is in the other (R258). -/
def Rec.toFormat (r : Rec) (nbr : Bool) : Option Rec :=
  match r with
  | .hit b => if !nbr then some r else if r.isHit then none else some (.nbr (nbrBytes (BitVec.ofNat 32 b) 0 0 0 r.isLast false r.status))
  | .nbr b => if nbr then some r else if r.isHit then none else some (.hit (hitBytes (BitVec.ofNat 32 b) f32Inf 0 0 0 0 r.status (b2n r.isLast) 0))
  | .trc _ => none

/-- A record of a query in the format of a slot: GEN, ISCONT and CIDX are the query's (R258). -/
def HemItem.inFormat (i : HemItem) (nbr : Bool) (r : Rec) : Option Rec :=
  match r with
  | .nbr _ => if nbr then some r else (r.toFormat false).map (fun x => match x with | .hit h => .hit (h + i.flags % 16 * 2 ^ 234) | y => y)
  | y => y.toFormat nbr

/-- The writes of a fill's data area, in ascending address (R258, R260). -/
def Fill.rows (f : Fill) : List (Nat × Nat × Nat) :=
  let one := fun (j : Nat) (l : List (Nat × Nat × Nat)) =>
    let i := f.placed.getD j default
    let recs := i.recs.map (fun r => (i.inFormat f.nbr r).getD r)
    (List.range recs.length).foldl (fun l r =>
      let a := f.addr + 0x40 + (if f.transposed then f.pitch * r + f.rsz * j else f.pitch * j + f.rsz * r)
      addBytes l a f.rsz (match recs.getD r (.trc 0) with | .hit b => b | .nbr b => b | .trc b => b)) l
  insSort (fun x y => decide (x.1 < y.1)) ((List.range f.placed.length).foldl (fun l j => one j l) [])

/-- Header bytes 0x20 to 0x3B (R255). -/
def Fill.header (f : Fill) : Nat :=
  let nrec := f.placed.foldl (fun a i => a + i.recs.length) 0
  nrec % 2 ^ 32 + f.placed.length % 65536 * 2 ^ 32 + (b2n f.flushed + 2 * b2n f.badHdr) * 2 ^ 48 +
  (match f.placed.head? with | some i => i.seq.toNat | none => 0) * 2 ^ 64

/-- An open fill closes, and the Hem writes it (R259, R260). -/
def State.fillClose (s : State) (c st : Nat) (f : Fill) : State :=
  let rows := f.rows
  let f1 := { f with closed := true, writes := rows.length + 1 }
  let s1 := s.modSt c st (fun x => { x with open_ := none, closing := x.closing ++ [f1] })
  let s2 := rows.foldl (fun (s : State) r =>
    (s.writeOut c r.1 r.2.1 r.2.2 false (.slotRow c st (s.st c st).ep f.number) st).oAdd 0x4310 9 ((List.range 64).filter (fun i => bit r.2.2 i)).length) s1
  s2.hemWrite c st (f.addr + 0x20) 28 f.header false (.slotRow c st (s.st c st).ep f.number)

/-- SLOT_FILL_OPEN: a query is ready for placement and the slot ring has credit (R254). -/
def State.slotFillOpen (s : State) (c st : Nat) : State :=
  let x := s.st c st
  if s.run && decide (c < 64) && decide (st < 8) && s.destSlot c st && !s.redir c st && x.open_.isNone && (s.nextWhole c st).isSome &&
      decide ((x.fills - x.scred).toNat < 2 ^ s.slog c st) && (!s.grain c || (x.closing.isEmpty && x.ringOut.isEmpty)) then
    let n := x.fills.toNat % (2 ^ 32 - 1) + 1
    let a := s.slotBase c st + 64 * s.sstride c st * (x.fills.toNat % 2 ^ s.slog c st)
    let s1 := s.modSt c st (fun x => { x with fills := x.fills + 1, open_ := some { number := n, addr := a } })
    if s.slotRingOk c st then s1.startJob (.slotHdr c st x.ep) c a 64 .rd st else s1.fillFails c st n
  else s

/-- The header of the open fill is in (R256, R262). -/
def State.slotHeader (s : State) (c st ep : Nat) (j : Job) : State :=
  let x := s.st c st
  match x.open_ with
  | none => s
  | some f =>
    if f.ready ∨ f.addr ≠ j.addr ∨ ep ≠ x.ep then s
    else if j.err ≠ 0 then s.fillFails c st f.number
    else
      let f1 := { f with sctrl := w32 j.data 0, pitch := w32 j.data 4, ready := true }
      if f1.hdrOk j.data (s.sstride c st) then s.modSt c st (fun x => { x with open_ := some f1 })
      else
        let f2 := { f1 with badHdr := true, flushed := true }
        let s1 := match s.nextWhole c st with
          | some i => s.modSt c st (fun x => let y := x.without i; { y with hem := i.toFallback stFormat :: y.hem })
          | none => s
        s1.fillClose c st f2

/-- Whether a query fits the slot as it is (R258). -/
def Fill.fits (f : Fill) (i : HemItem) : Bool :=
  decide (i.recs.length ≤ f.perq) && i.recs.all (fun r => (i.inFormat f.nbr r).isSome)

/-- Nothing of the stream is still on its way: every admitted query whose terminal record is not delivered is in this fill, and
no fetched entry waits (R259). A parent whose record is delivered has no more to come until its continuations are admitted. -/
def State.nothingLeft (s : State) (c st : Nat) (f : Fill) : Bool :=
  let x := s.st c st
  x.entries.isEmpty && x.gen.isNone && x.inFlight.isEmpty && x.old.isEmpty &&
  s.slot.all (fun e =>
    let q := e.2
    let own := fun (i : HemItem) => i.slot == e.1 && i.seq == q.qr.seq && i.dord == q.dord && i.pos == q.qr.grainPos q.genN && i.terminal
    q.place == .none || q.place == .charged || q.served.isSome || q.qr.ctx != c || q.qr.stream != st ||
    f.placed.any own || (q.place == .parent && !x.items.any own))

/-- The open fill of a stream takes what is ready, and closes when R259 says so. In grain mode a query is not placed behind one whose
entry of the fallback ring is not complete (R264). -/
def State.fillStep (c st : Nat) : (fuel : Nat) → State → State
  | 0, s => s
  | n + 1, s =>
    match (s.st c st).open_ with
    | none => s
    | some f =>
      if !f.ready then s
      else if f.qps ≤ f.placed.length then s.fillClose c st f
      else match s.nextWhole c st with
        | some i =>
          if s.grain c && !(s.st c st).ringOut.isEmpty then s
          else if f.fits i then State.fillStep c st n (s.modSt c st (fun x =>
               { x.without i with open_ := some { f with placed := f.placed ++ [i], opened := if f.placed.isEmpty then s.clkF else f.opened } }))
          else State.fillStep c st n (s.modSt c st (fun x => let y := x.without i; { y with hem := i.toFallback stFormat :: y.hem }))
        | none => if !f.placed.isEmpty && s.nothingLeft c st f then s.fillClose c st { f with flushed := true } else s

/-- FLUSH: the flush timer of the open fill expires (R259). -/
def State.flushFill (s : State) (c st : Nat) : State :=
  match (s.st c st).open_ with
  | some f =>
    if s.run && f.ready && !f.placed.isEmpty && fld (s.slotCtrl c st) 24 8 != 0 then s.fillClose c st { f with flushed := true } else s
  | none => s

/-- FLAG of every closed fill whose other writes have completed: a release write on the same port (R260). -/
def State.flagStep (s : State) (c st : Nat) : State :=
  ((s.st c st).closing.filter (fun f => f.writes == 0 && !f.flagSent)).foldl (fun (s : State) f =>
    (s.modSt c st (fun x => { x with closing := x.closing.map (fun g => if g.number = f.number then { g with flagSent := true } else g) })).hemWrite
      c st (f.addr + 0x3C) 4 f.number true (.slotFlag c st (s.st c st).ep f.number)) s

/-- A data or header write of a fill has completed (R260, R262). -/
def State.rowWrote (s : State) (c st ep num : Nat) (bad : Bool) : State :=
  if ep ≠ (s.st c st).ep then s
  else if bad then s.fillFails c st num
  else s.modSt c st (fun x => { x with closing := x.closing.map (fun g => if g.number = num then { g with writes := g.writes - 1 } else g) })

/-- The FLAG write has completed: the fill is delivered (R248, R260). -/
def State.flagWrote (s : State) (c st ep num : Nat) (bad : Bool) : State :=
  if ep ≠ (s.st c st).ep then s
  else if bad then s.fillFails c st num
  else match (s.st c st).closing.find? (fun f => f.number == num) with
    | none => s
    | some f =>
      let s1 := s.modSt c st (fun x => { x with closing := x.closing.filter (fun g => g.number != num) })
      let n := f.placed.foldl (fun a i => a + i.recs.length) 0
      f.placed.foldl (fun (s : State) i => s.deliver c st i i.recs.length true) ((s1.oInc 0x4310 2).oAdd 0x4310 3 n)

/-- What the Hem does by itself for every stream: pages for finished queries (R249), placement (R258), FLAG writes. -/
def State.hemStep (s : State) : State :=
  (s.strm.map (fun e => e.1)).foldl (fun (s : State) i =>
    let c := i / 8
    let st := i % 8
    let s1 := s.pageIn c st
    if !s1.run then s1
    else (State.fillStep c st ((s1.st c st).hem.length + 2) s1).flagStep c st) s

/-- 1 written to REDIR: slot delivery goes on with the next fill (R262). -/
def State.redirClear (s : State) (c st : Nat) : State := if s.redir c st then s.setResBit c st 16 false else s

end Sys2Proof.Machine
end

