-- ==== Sys2Proof/Machine/Bodkin.lean ====
section
/-! DEFINITION. The Bodkin (R268 to R293): operands and matching, commands and replies, ready threads and dispatch,
endpoints and credit. -/

namespace Sys2Proof.Machine

/-! ## Counts (R279, R287, R290) -/

/-- Object 0x17 of a context (R287). -/
def State.bdk (s : State) (c sub : Nat) : Nat := s.co c 0x17 sub
/-- BDK_CTRL.EN. -/
def State.bdkEn (s : State) (c : Nat) : Bool := bit (s.bdk c 1) 0
/-- MATCH_USE, ORPHAN_USE, THR_USE and READY_USE of a context. -/
def State.matchUse (s : State) (c : Nat) : Nat := (s.expct.filter (fun x => x.ctx == c)).length
def State.orphanUse (s : State) (c : Nat) : Nat := (s.orphan.filter (fun x => x.ctx == c)).length
def State.thrUse (s : State) (c : Nat) : Nat := (s.thr.filter (fun x => x.2.st != .free && x.2.ctx == c)).length
def State.readyUse (s : State) (c : Nat) : Nat := (s.thr.filter (fun x => x.2.st == .ready && x.2.ctx == c)).length
/-- Matching entries in use, tile-wide (R268). -/
def State.matchEntries (s : State) : Nat := s.expct.length + s.orphan.length
def State.postWaits (s : State) (c : Nat) : Bool := s.tile.waitPosts.any (fun p => p.ctx == c)

/-- POST_STOP and READY_STOP follow their conditions; each raises its cause when it begins (R286). -/
def State.bdkStops (s : State) (c : Nat) : State :=
  let x := s.ctxOf c
  let p := s.postWaits c
  let r := decide (s.bdk c 8 ≤ s.readyUse c)
  let s1 := s.modCtx c (fun x => { x with postStop := p, readyStop := r })
  let s2 := if p && !x.postStop then s1.raise 0x5500 3 c else s1
  if r && !x.readyStop then s2.raise 0x5500 4 c else s2

/-! ## Cycles (R269, R278)

A cycle of CLK_F holds up to four commands, then up to 32 operand posts, then up to four dispatches. -/

/-- The cycle in which the next step of a phase (0 a command, 1 a post, 2 a dispatch) of at most `lim` falls: the present one, or the next
where the present one has gone past that phase or has seen all its steps. -/
def State.bdkCycle (s : State) (phase lim : Nat) : State :=
  let t := s.tile
  let here := t.bdkClk == s.clkF
  if here && (decide (phase < t.bdkPhase) || (phase == t.bdkPhase && decide (lim ≤ t.bdkDone))) then
    { s with clkF := s.clkF + 1, tile := { t with bdkClk := s.clkF + 1, bdkPhase := phase, bdkDone := 1 } }
  else { s with tile := { t with bdkClk := s.clkF, bdkPhase := phase, bdkDone := if here && phase == t.bdkPhase then t.bdkDone + 1 else 1 } }

/-- The first step of a phase in the cycle after the present one. -/
def State.bdkAfter (s : State) (phase : Nat) : State :=
  { s with clkF := s.clkF + 1, tile := { s.tile with bdkClk := s.clkF + 1, bdkPhase := phase, bdkDone := 1 } }

/-! ## Threads (R273, R274) -/

/-- A thread joins its ready list (R279). -/
def State.makeReady (s : State) (t : Nat) : State :=
  (({ s with expct := s.expct.filter (fun x => x.thread != t) }.began 0x4320 0x0B).began 0x4320 0x0C).modThr t (fun x =>
    { x with st := .ready, readyAt := s.clkF, aged := false, affOver := false })

/-- Threads that have a turn in a flow: earlier ones with ORD = 1 not yet dispatched (R279). -/
def State.ordWaits (s : State) (x : Thread) : Bool :=
  x.ord && s.thr.any (fun y => (y.2.st == .waiting || y.2.st == .ready) && y.2.ord && y.2.flow == x.flow && decide (y.2.spawnOrd < x.spawnOrd))
/-- Whether a flow has a thread in DISPATCHED, or had one until this cycle (R279, R284, R285). -/
def State.flowBusy (s : State) (f : Nat) : Bool :=
  s.thr.any (fun y => y.2.st == .dispatched && y.2.flowEn && y.2.flow == f) || s.tile.flowsFreed.any (fun y => y.1 == f && decide (s.clkF ≤ y.2))
/-- A thread gives up its flow, which is free from the next cycle on (R284, R285). -/
def State.freeFlow (s : State) (x : Thread) : State :=
  if x.flowEn then s.modTile (fun t => { t with flowsFreed := (x.flow, s.clkF) :: t.flowsFreed.filter (fun y => y.1 != x.flow && decide (s.clkF ≤ y.2)) })
  else s
/-- Whether a READY thread has its turn in its flow (R279). -/
def State.offerable (s : State) (x : Thread) : Bool :=
  x.st == .ready && !(s.ctxOf x.ctx).aborting && !(x.flowEn && s.flowBusy x.flow) && !s.ordWaits x
/-- Whether a thread is offered for dispatch: from the cycle after the one in which it became READY (R278, R279). -/
def State.offered (s : State) (x : Thread) : Bool := s.offerable x && decide (x.readyAt < s.clkF)

/-! ## Operands and matching (R275 to R277) -/

/-- Whether an expectation covers a key: the same fields above SEQ, and SEQ within COUNT of the first (R276). -/
def Expect.covers (x : Expect) (c key : Nat) : Bool :=
  x.ctx == c && key / 2 ^ 32 == x.key / 2 ^ 32 && decide ((key + 2 ^ 32 - x.key % 2 ^ 32) % 2 ^ 32 < x.count)

/-- An operand is matched to an expectation (R277). -/
def State.matchOp (s : State) (e : Expect) (status : Nat) : State :=
  let left := e.remaining - 1
  let ex := if left = 0 then s.expct.filter (fun x => x.id != e.id) else s.expct.map (fun x => if x.id = e.id then { x with remaining := left } else x)
  let bad := !(status == stDone || status == stNoHit || status == stTruncated)
  let s0 : State := { s with expct := ex }
  let s1 := (s0.modThr e.thread (fun x =>
    { x with matched := x.matched + 1, nbad := x.nbad + b2n bad, firstBad := if bad && x.nbad == 0 then status else x.firstBad })).oInc 0x4320 2
  let x := s1.thrOf e.thread
  if x.matched = x.nexp then s1.makeReady e.thread else s1

/-- An operand is applied: matched, stored as an orphan, or not yet (R277). -/
def State.applyOp (s : State) (p : BdkPost) : Option State :=
  match s.expct.find? (fun e => e.covers p.ctx p.key) with
  | some e => some (s.matchOp e p.status)
  | none =>
    if s.orphanUse p.ctx < s.bdk p.ctx 7 ∧ s.matchEntries < 262144 then
      some (State.oInc { s with orphan := s.orphan ++ [{ ctx := p.ctx, key := p.key, status := p.status }] } 0x4320 3)
    else none

/-- Waiting posts of a context are retried in their order of posting, each on its own (R286). -/
def State.retryPosts (s : State) (c : Nat) : State :=
  let ws := s.tile.waitPosts
  let s1 := ws.foldl (fun (s : State) p =>
    if p.ctx ≠ c then s.modTile (fun t => { t with waitPosts := t.waitPosts ++ [p] })
    else match s.applyOp p with
      | some s' => s'
      | none => s.modTile (fun t => { t with waitPosts := t.waitPosts ++ [p] })) (s.modTile (fun t => { t with waitPosts := [] }))
  s1.bdkStops c

/-- OPERAND: the oldest posted operand is applied, waits, or is discarded (R275, R277, R286). -/
def State.operand (s : State) : State :=
  match s.tile.posts with
  | [] => s
  | p :: rest =>
    if !s.live then s
    else
      let s1 := (s.bdkCycle 1 32).modTile (fun t => { t with posts := rest })
      if !s1.bdkEn p.ctx then s1.oInc 0x4320 4
      else match s1.applyOp p with
        | some s2 => s2.bdkStops p.ctx
        | none => ((s1.began 0x4320 0x0D).modTile (fun t => { t with waitPosts := t.waitPosts ++ [p] })).bdkStops p.ctx

/-! ## Commands (R269 to R272) -/

def BdkCmd.code (w : BdkWords) : Nat := w.w0.toNat % 256
def BdkCmd.reply (w : BdkWords) : Bool := bit w.w0.toNat 8
def BdkCmd.ctag (w : BdkWords) : Nat := w.w0.toNat / 2 ^ 32
def BdkCmd.thread (w : BdkWords) : Nat := w.arg0.toNat % 65536

/-- A reserved code or a res0 field that is not zero (R269, R271). -/
def BdkCmd.bad (w : BdkWords) : Bool :=
  let a0 := w.arg0.toNat
  let a1 := w.arg1.toNat
  let a2 := w.arg2.toNat
  fld w.w0.toNat 9 23 != 0 ||
  (match BdkCmd.code w with
   | 1 => a0 / 2 ^ 54 != 0 || a2 / 2 ^ 11 != 0
   | 2 => a0 / 2 ^ 23 != 0 || a1 / 2 ^ 48 != 0 || a2 != 0
   | 3 => fld a0 17 15 != 0 || (!bit a0 16 && fld a0 32 16 != 0) || a0 / 2 ^ 48 != 0 || a1 != 0 || a2 != 0
   | 4 => a0 / 2 ^ 16 != 0 || a1 != 0 || a2 != 0
   | 5 => a0 % 65536 != 0 || a0 / 2 ^ 23 != 0 || a1 / 2 ^ 40 != 0 || a2 != 0
   | 6 => a0 / 2 ^ 8 != 0 || a1 != 0 || a2 != 0
   | _ => true)

/-- Key of EXPECT and POST: SEQ, STREAM, GEN, ISCONT, CIDX (R269, R275). -/
def BdkCmd.key (w : BdkWords) : Nat := w.arg1.toNat % 2 ^ 32 + fld w.arg0.toNat 16 7 * 2 ^ 32

/-- Whether a thread index is in the context's range (R271). -/
def State.inThr (s : State) (c t : Nat) : Bool := decide (s.bdk c 2 ≤ t) && decide (t < s.bdk c 2 + s.bdk c 3)
/-- Whether a flow is in the context's range. -/
def State.inFlow (s : State) (c f : Nat) : Bool := decide (s.bdk c 4 ≤ f) && decide (f < s.bdk c 4 + s.bdk c 5)

/-- RCODE of the refusal of a command, 0 where it succeeds (R271, R273). -/
def State.bdkCheck (s : State) (c : Nat) (w : BdkWords) : Nat :=
  let code := BdkCmd.code w
  let t := BdkCmd.thread w
  let x := s.thrOf t
  let a0 := w.arg0.toNat
  if BdkCmd.bad w then 0x86
  else if 5 ≤ code then 0
  else if !s.inThr c t then 0x80
  else match code with
    | 1 =>
      if (bit a0 52 || bit a0 53) && !s.inFlow c (fld a0 40 12) then 0x84
      else if x.st != .free then 0x81 else 0
    | 2 =>
      if x.st != .waiting then 0x81
      else if s.bdk c 6 ≤ s.matchUse c ∨ 262144 ≤ s.matchEntries then 0x85
      else if x.nexp = 0 ∨ x.nexp < x.registered + (fld w.arg1.toNat 32 16 + 1) then 0x86 else 0
    | 3 => if x.st == .dispatched then 0 else 0x81
    | _ => if x.st == .dispatched then 0x83 else if x.st == .free then 0x81 else 0

/-- SPAWN (R274). -/
def State.spawnThr (s : State) (c : Nat) (w : BdkWords) : State :=
  let a0 := w.arg0.toNat
  let t := BdkCmd.thread w
  let x : Thread := { st := .waiting, ctx := c, tag := w.arg1.toNat, nexp := fld a0 16 16, group := fld a0 32 6, cls := fld a0 38 2,
                      flow := fld a0 40 12, flowEn := bit a0 52, ord := bit a0 53,
                      lastEp := if bit w.arg2.toNat 10 then some (w.arg2.toNat % 1024) else none, arm := 1, spawnOrd := s.tick.1 }
  let s1 := (s.tick.2.modThr t (fun _ => x)).oInc 0x4320 5
  if x.nexp = 0 then s1.makeReady t else s1

/-- EXPECT (R276): registers the expectation, matches the orphans it covers, oldest first, until it is complete, and lets waiting
posts try again (R286). -/
def State.expectThr (s : State) (c : Nat) (w : BdkWords) : State :=
  let n := fld w.arg1.toNat 32 16 + 1
  let t := BdkCmd.thread w
  let e : Expect := { id := s.tick.1, ctx := c, thread := t, key := BdkCmd.key w, count := n, remaining := n }
  let s1 := { s.tick.2 with expct := s.expct ++ [e] }.modThr t (fun x => { x with registered := x.registered + n })
  let last := s1.expct.length
  let s2 := s1.orphan.foldl (fun (s : State) o =>
    if s.expct.length = last then
      match s.expct.getLast? with
      | some f => if f.covers c o.key && o.ctx == c then { s with orphan := s.orphan.erase o }.matchOp f o.status else s
      | none => s
    else s) s1
  s2.retryPosts c

/-- ACK (R273, R274, R284). -/
def State.ackThr (s : State) (w : BdkWords) : State :=
  let a0 := w.arg0.toNat
  let t := BdkCmd.thread w
  let s1 := (s.oInc 0x4320 9).freeFlow (s.thrOf t)
  if bit a0 16 then
    let n := fld a0 32 16
    let s2 := s1.tick.2.modThr t (fun x =>
      { x with st := .waiting, arm := x.arm + 1, nexp := n, matched := 0, registered := 0, nbad := 0, firstBad := 0, sent := none, warned := false,
               spawnOrd := s1.tick.1 })
    if n = 0 then s2.makeReady t else s2
  else s1.modThr t (fun _ => {})

/-- CANCEL of a thread that has not been dispatched (R282). -/
def State.cancelThr (s : State) (w : BdkWords) : State :=
  let t := BdkCmd.thread w
  ({ s with expct := s.expct.filter (fun x => x.thread != t) }.modThr t (fun _ => {})).oInc 0x4320 0xA

/-- POST: the kernel's operand joins the posts (R275, R278). -/
def State.postOp (s : State) (c : Nat) (w : BdkWords) : State :=
  (s.oInc 0x4320 1).modTile (fun t => { t with posts := t.posts ++ [{ key := BdkCmd.key w, status := fld w.arg1.toNat 32 8, ctx := c }] })

/-- DISCARD: frees the orphans of the streams in its mask (R277, R290). -/
def State.discardOps (s : State) (c : Nat) (w : BdkWords) : State :=
  let gone := fun (o : Orphan) => o.ctx == c && bit w.arg0.toNat (fld o.key 32 3)
  ({ s with orphan := s.orphan.filter (fun o => !gone o) }.oAdd 0x4320 4 (s.orphan.filter gone).length).retryPosts c

/-- The effect of an accepted command. -/
def State.bdkEffect (s : State) (c : Nat) (w : BdkWords) : State :=
  match BdkCmd.code w with
  | 1 => s.spawnThr c w
  | 2 => s.expectThr c w
  | 3 => s.ackThr w
  | 4 => s.cancelThr w
  | 5 => s.postOp c w
  | _ => s.discardOps c w

/-- INFO of a reply: the operands matched for the thread; free where the command names no thread of the context (R272; log 36). -/
def State.bdkInfo (s : State) (c : Nat) (w : BdkWords) : Nat × State :=
  if BdkCmd.code w ∈ [1, 2, 3, 4] ∧ s.inThr c (BdkCmd.thread w) then ((s.thrOf (BdkCmd.thread w)).matched, s)
  else (s.draw.1.toNat % 2 ^ 32, s.draw.2)
/-- THREAD of a reply. -/
def State.bdkThread (s : State) (w : BdkWords) : Nat × State :=
  if BdkCmd.code w ∈ [1, 2, 3, 4] then (BdkCmd.thread w, s) else (s.draw.1.toNat % 65536, s.draw.2)

/-- A reply (R272): twelve bytes; RSEQ follows when they have been written, so that a reply that is dropped leaves RSEQ unwritten (R493). -/
def State.bdkReply (s : State) (c : Nat) (w : BdkWords) (rcode info : Nat) : State :=
  let n := (s.ctxOf c).replies
  let a := s.bdk c 9 + 16 * (n.toNat % 2 ^ s.bdk c 0xA)
  let th := s.bdkThread w
  let s1 := th.2.modCtx c (fun x => { x with replies := x.replies + 1 })
  let v := BdkCmd.ctag w + th.1 * 2 ^ 32 + BdkCmd.code w * 2 ^ 48 + rcode * 2 ^ 56 + info % 2 ^ 32 * 2 ^ 64
  s1.writeOut c a (v * 256 ^ (a % 64)) ((2 ^ 12 - 1) * 2 ^ (a % 64)) false (.reply c a n) noWhat

/-- The first bytes of a reply have been written: RSEQ, as a release write (R272). -/
def State.bdkRseq (s : State) (c a : Nat) (n : Word) : State :=
  s.writeOut c a ((n + 1).toNat * 256 ^ (a % 64 + 12)) (15 * 2 ^ (a % 64 + 12)) true (.rseq c) noWhat

/-- Whether a command needs a reply (R272). -/
def State.bdkNeeds (s : State) (c : Nat) (w : BdkWords) : Bool := BdkCmd.reply w || BdkCmd.code w == 4 || s.bdkCheck c w != 0
/-- Whether the reply ring of a context is full (R272). -/
def State.bdkFull (s : State) (c : Nat) : Bool :=
  decide (2 ^ s.bdk c 0xA ≤ ((s.ctxOf c).replies - (s.ctxOf c).bcred).toNat)
/-- The context whose command the Bodkin takes next: the first from the one after the last served, in ascending number and cyclic, with a
command at its head that does not wait for reply room (R269, R272). -/
def State.bdkTurn (s : State) : Option Nat :=
  let can := fun (c : Nat) => match (s.ctxOf c).cmds with
    | [] => false
    | w :: _ => !(s.bdkNeeds c w && s.bdkFull c)
  (firstIdx 64 (fun i => can ((s.tile.bdkNext + i) % 64))).map (fun i => (s.tile.bdkNext + i) % 64)

/-- The Bodkin applies the command at the head of a context's queue, whose code `is` the row's, when it is the context's turn (R269 to
R272). -/
def State.bdkApply (s : State) (c : Nat) (is : Nat → Bool) : State :=
  let x := s.ctxOf c
  match x.cmds with
  | [] => s
  | w :: rest =>
    if !(s.run && is (BdkCmd.code w)) then s
    else
      let rc := s.bdkCheck c w
      let needs := s.bdkNeeds c w
      if needs && s.bdkFull c then
        if x.replyFull then s else (s.modCtx c (fun x => { x with replyFull := true })).raise 0x5500 1 c
      else if s.bdkTurn != some c then s
      else
        let s0 := (s.bdkCycle 0 4).modTile (fun t => { t with bdkNext := c + 1 })
        let s1 := (s0.modCtx c (fun x => { x with cmds := rest, replyFull := false })).coSet c 0x17 ((s.bdk c 0xF + 1) % 2 ^ 32) 0xF
        if rc ≠ 0 then
          let i := s1.bdkInfo c w
          i.2.bdkReply c w rc i.1
        else
          let early := BdkCmd.code w == 3 || BdkCmd.code w == 4
          let s2 := (s1.bdkEffect c w).bdkStops c
          if needs then
            let i := if early then s1.bdkInfo c w else s2.bdkInfo c w
            let s3 := if early then s2 else i.2
            s3.bdkReply c w (if BdkCmd.code w = 4 then 0x12 else 0) i.1
          else s2

/-- A write of BDK_CMD (R270, R477): discarded while the Bodkin is off for the context, and where the queue is full. -/
def State.bdkPush (s : State) (c : Nat) (w : BdkWords) : State :=
  if !s.bdkEn c then s
  else if (s.ctxOf c).cmds.length < 64 then s.modCtx c (fun x => { x with cmds := x.cmds ++ [w] })
  else s.raise 0x5500 0 c

/-- A write of BCRED (R272). -/
def State.bcredWrite (s : State) (c : Nat) (v : Word) : State :=
  let x := s.ctxOf c
  if creditOk v x.bcred x.replies then s.modCtx c (fun x => { x with bcred := v }) else s.raise 0x5500 2 c

/-- A write of DCRED (R288). -/
def State.dcredWrite (s : State) (e : Nat) (v : Word) : State :=
  let x := s.epOf e
  if creditOk v x.cons x.disp then s.modEp e (fun x => { x with cons := v }) else s.raise 0x5500 6 e

/-! ## Dispatch (R279 to R285) -/

def State.epCtrl (s : State) (e : Nat) : Nat := s.o (0x2C00 + e) 1
def State.epGroup (s : State) (e : Nat) : Nat := fld (s.epCtrl e) 8 6
def State.epOn (s : State) (e : Nat) : Bool := bit (s.epCtrl e) 0
/-- Whether an endpoint holds dispatch credit (R288). -/
def State.epCredit (s : State) (e : Nat) : Bool := decide (((s.epOf e).disp - (s.epOf e).cons).toNat < 2 ^ fld (s.epCtrl e) 24 4)
/-- Whether an endpoint is usable for a group (R281). -/
def State.epUsable (s : State) (g e : Nat) : Bool := s.epOn e && s.epGroup e == g && s.epCredit e

/-- The endpoint after the group's cursor (R281): the cursor table holds the last endpoint plus one. -/
def State.epRound (s : State) (g : Nat) : Option Nat :=
  let start := tget 0 s.cursor g
  (firstIdx 1024 (fun i => s.epUsable g ((start + i) % 1024))).map (fun i => (start + i) % 1024)

/-- Whether a thread still waits for its last endpoint (R281). -/
def State.affWaits (s : State) (x : Thread) : Bool :=
  match x.lastEp with
  | some e => s.epOn e && s.epGroup e == x.group && !s.epCredit e && !x.affOver && s.o 0x2420 2 != 0
  | none => false

/-- The target endpoint of a thread, and whether it is its last endpoint (R281). -/
def State.epTarget (s : State) (x : Thread) : Option (Nat × Bool) :=
  match x.lastEp with
  | some e => if s.epUsable x.group e then some (e, true) else if s.affWaits x then none else (s.epRound x.group).map (fun e => (e, false))
  | none => (s.epRound x.group).map (fun e => (e, false))

/-- Whether thread (t, x) is chosen before (u, y) (R279, R280). -/
def Thread.before (x y : Nat × Thread) : Bool :=
  let key := fun (a : Nat × Thread) =>
    if a.2.aged then [0, a.2.readyAt, a.1] else [1, a.2.cls, a.2.group, a.2.readyAt, a.1]
  decide (key x < key y)

/-- The thread to dispatch: the first offered one that has a target (R280). -/
def State.chosen (s : State) : Option (Nat × Thread × Nat × Bool) :=
  let best := s.thr.foldl (fun (m : Option (Nat × Thread)) x =>
    if s.offered x.2 && (s.epTarget x.2).isSome then
      match m with
      | some y => if Thread.before x y then some x else m
      | none => some x
    else m) none
  best.bind (fun x => (s.epTarget x.2).map (fun e => (x.1, x.2, e.1, e.2)))

/-- Bytes 0x00 to 0x1B of a dispatch record (R283). -/
def Thread.record (x : Thread) (t : Nat) (affine : Bool) : Nat :=
  x.tag + t * 2 ^ 64 + x.ctx % 64 * 2 ^ 80 +
  (x.cls % 4 + b2n (decide (1 < x.arm.toNat)) * 4 + b2n x.flowEn * 8 + b2n affine * 16) * 2 ^ 88 + x.flow % 4096 * 2 ^ 96 +
  x.matched % 65536 * 2 ^ 112 + x.nbad % 65536 * 2 ^ 128 + x.firstBad % 256 * 2 ^ 144 + x.arm.toNat * 2 ^ 160

/-- A dispatch of thread t, as x, to endpoint e (R281, R283): the record, then DSEQ as a release write on the same port. -/
def State.dispatchTo (s : State) (t : Nat) (x : Thread) (e : Nat) (affine : Bool) : State :=
  let d := (s.epOf e).disp
  let a := s.o (0x2C00 + e) 2 + 32 * (d.toNat % 2 ^ fld (s.epCtrl e) 24 4)
  let p := 16 + fld (s.epCtrl e) 16 3
  let s1 := (s.modEp e (fun x => { x with disp := x.disp + 1 })).modThr t (fun x =>
    { x with st := .dispatched, lastEp := some e, sent := some (e, d), aged := false, affOver := false, warned := false })
  let s2 := if affine then s1.oInc 0x4320 7 else { s1.oInc 0x4320 8 with cursor := tset 0 s1.cursor x.group (e + 1) }
  let s3 := (s2.oInc 0x4320 6).bdkStops x.ctx
  let s4 := s3.send p { wr := true, addr := a / 64 * 64, data := x.record t affine * 256 ^ (a % 64), mask := (2 ^ 28 - 1) * 2 ^ (a % 64),
                        wp := some (.dispatch e t d), ctx := x.ctx }
  s4.send p { wr := true, addr := a / 64 * 64, data := (d + 1).toNat * 256 ^ (a % 64 + 28), mask := 15 * 2 ^ (a % 64 + 28), rel := true,
              wp := some (.dseq e t d), ctx := x.ctx }

/-- DISPATCH (R280): the first choice of the present cycle, or of the next where this one offers none (R278; log 2). -/
def State.dispatchOne (s : State) : State :=
  let now := s.bdkCycle 2 4
  let later := s.bdkAfter 2
  if !s.run then s
  else match now.chosen, later.chosen with
  | some (t, x, e, affine), _ => now.dispatchTo t x e affine
  | none, some (t, x, e, affine) => later.dispatchTo t x e affine
  | none, none => s

/-- A write of dispatch d has met an error completion (R285); the second write of a dispatch that fails adds nothing. -/
def State.dispatchFault (s : State) (e t : Nat) (d : Word) : State :=
  let s1 := if (s.epOf e).bad.contains d then s
    else (((s.oSet (0x2C00 + e) 1 (setFld (s.epCtrl e) 0 1 0)).raise 0x5500 5 e).oInc 0x4320 0xE).modEp e (fun x => { x with bad := d :: x.bad })
  let x := s1.thrOf t
  if x.st = .dispatched ∧ x.sent = some (e, d) then
    ((s1.freeFlow x).modThr t (fun x => { x with st := .ready, sent := none })).bdkStops x.ctx
  else s1

/-- AFF_WAIT expires for an offered thread that waits for its last endpoint (R281). -/
def State.affWait (s : State) (t : Nat) : State :=
  let x := s.thrOf t
  if s.offerable x && s.affWaits x then s.modThr t (fun x => { x with affOver := true }) else s

/-- A thread has been READY for AGE_LIMIT (R280). -/
def State.ageLimit (s : State) (t : Nat) : State :=
  if (s.thrOf t).st = .ready then s.modThr t (fun x => { x with aged := true }) else s

/-- ACK_WARN has passed for a dispatched thread (R284). -/
def State.ackLate (s : State) (t : Nat) : State :=
  let x := s.thrOf t
  if x.st = .dispatched ∧ s.o 0x2420 3 ≠ 0 ∧ !x.warned then
    (s.modThr t (fun x => { x with warned := true })).raise 0x5500 7 (x.ctx * 65536 + t % 65536)
  else s

/-! ## Configuration (R287, R288) -/

/-- The conditions under which BDK_CTRL, the ranges and the reply ring may change (R287). -/
def State.bdkQuiet (s : State) (c : Nat) : Bool :=
  !s.bdkEn c && s.thrUse c == 0 && s.matchUse c == 0 && s.orphanUse c == 0 && !s.postWaits c

/-- Whether two ranges have an element in common: an empty range has none. -/
def rangesMeet (b n b' n' : Nat) : Bool := n != 0 && n' != 0 && decide (b < b' + n') && decide (b' < b + n)

/-- Sum of MATCH_QUOTA and ORPHAN_CAP over the enabled contexts other than c (R287). -/
def State.quotaSum (s : State) (c : Nat) : Nat :=
  (List.range 64).foldl (fun a k => if k ≠ c ∧ s.bdkEn k then a + s.bdk k 6 + s.bdk k 7 else a) 0

/-- BDK_ENABLE: a write of BDK_CTRL (R287). -/
def State.bdkCtrl (s : State) (c v : Nat) : Nat × State :=
  if !s.bdkQuiet c then (0x83, s)
  else if v % 2 = 0 then (0, s.coSet c 0x17 0 1)
  else
    let clash := (List.range 64).any (fun k => k != c && s.bdkEn k &&
      (rangesMeet (s.bdk c 2) (s.bdk c 3) (s.bdk k 2) (s.bdk k 3) || rangesMeet (s.bdk c 4) (s.bdk c 5) (s.bdk k 4) (s.bdk k 5)))
    if clash || decide (262144 < s.quotaSum c + s.bdk c 6 + s.bdk c 7) then (0x83, s)
    else (0, (s.coSet c 0x17 1 1).modCtx c (fun x => { x with replies := 0, bcred := 0, replyFull := false, cmds := [] }))

/-- Writes of the other objects 0x17 of a context (R287). -/
def State.bdkObject (s : State) (c sub v : Nat) : Nat × State :=
  let put := (0, s.coSet c 0x17 v sub)
  match sub with
  | 2 => if s.bdkQuiet c && decide (v + s.bdk c 3 ≤ 65536) then put else (0x83, s)
  | 3 => if s.bdkQuiet c && decide (s.bdk c 2 + v ≤ 65536) then put else (0x83, s)
  | 4 => if s.bdkQuiet c && decide (v + s.bdk c 5 ≤ 4096) then put else (0x83, s)
  | 5 => if s.bdkQuiet c && decide (s.bdk c 4 + v ≤ 4096) then put else (0x83, s)
  | 6 => if s.bdkEn c && decide (262144 < s.quotaSum c + v + s.bdk c 7) then (0x83, s) else put
  | 7 => if s.bdkEn c && decide (262144 < s.quotaSum c + s.bdk c 6 + v) then (0x83, s) else put
  | 8 => if v = 0 then (0x83, s) else (0, (s.coSet c 0x17 v 8).bdkStops c)
  | 9 => if s.bdkQuiet c then put else (0x83, s)
  | _ => if s.bdkQuiet c && decide (4 ≤ v) && decide (v ≤ 16) then put else (0x83, s)

/-- ENDPOINT_ENABLE: a write of EP_CTRL (R288). -/
def State.endpointCtrl (s : State) (e v : Nat) : Nat × State :=
  let old := s.epCtrl e
  if s.epOn e && decide (v / 2 ≠ old / 2) then (0x83, s)
  else if fld v 24 4 = 0 ∨ 12 < fld v 24 4 then (0x83, s)
  else
    let s1 := s.oSet (0x2C00 + e) 1 v
    (0, if bit v 0 && !s.epOn e then s1.modEp e (fun _ => {}) else s1)

end Sys2Proof.Machine
end

