-- ==== Sys2Proof/Machine/Depend.lean ====
section
/-! DEFINITION. Dependability, part 2: reissues (R379, R380), retries (R381), the end of a withdrawal and the cutoff (R374,
R375), losses by failed fills (R377), readmission (R394), scrubbing and retirement (R328, R329). -/

namespace Sys2Proof.Machine

/-! ## Reissue (R379, R380) -/

/-- Records of a query that are on their way to its ring and will be delivered. -/
def StreamSt.onWay (x : StreamSt) (k : Nat) (seq : Word) : Nat := (x.ringOut.filter (fun y => y.2.slot == k && y.2.seq == seq)).length

/-- A lost query as its reissue begins: its slot and charges, nothing of its walk. -/
def Query.fresh (q : Query) (uid skip : Nat) : Query :=
  { q with list := [], traceWritten := 0, tbest := 0, anyT := 0, leafOrd := 0, released := 0, remoteHit := {}, nextItem := 0,
           reissues := q.reissues + 1, skip := skip, extDirty := false, moved := none, vec := [], keySrc := 0, contRead := true, uid := uid, mig := none, fin := none,
           trcHits := [], ended := false, trunc := false }

/-- The slot in which a lost query is reissued: its own where that can be read, else a free one of the shared pool, those held back from
admission among them; none while there is none (R379). -/
def State.reissueSlot (s : State) (k : Nat) : Option Nat :=
  if !s.tile.lostSlots.contains k then some k
  else if s.poolFree = 0 then none
  else some s.freeSlot

/-- REISSUE: the descriptor of a lost query is read again from its held entry (R379). -/
def State.reissue (s : State) (k : Nat) : State :=
  let q := s.q k
  let c := q.qr.ctx
  let st := q.qr.stream
  if !(s.run && q.place == .lost && !q.contRead) || (s.ctxOf c).aborting then s
  else match q.kill, s.reissueSlot k with
  | some x, _ => s.endSlot k x
  | none, none => s
  | none, some n =>
    let t := s.tick
    let done := q.delivered + (s.st c st).onWay k q.qr.seq
    let s1 := ((if n = k then t.2 else t.2.modQ k (fun _ => {})).modQ n (fun _ => { q.fresh t.1 done with delivered := if n = k then q.delivered else done }))
    let s2 := (s1.oInc 0x7020 7).raise (0x5900 + c) 9 st
    s2.startJob (.redesc n t.1) c (s2.co c (0x18 + 5 * st) + 64 * (q.desc.toNat % 2 ^ s2.ringLog c st)) 64 .rd st

/-- The query is admitted again with the record of its descriptor, as source 1, or completes with what R47 gives (R379). -/
def State.readmit (s : State) (k : Nat) (r : QRec) (bad : Option Nat) (traceAddr traceCap : Nat) : State :=
  match (s.q k).kill, bad with
  | some x, _ => s.endSlot k x
  | none, some x => (s.checkFault (s.q k).qr.ctx (s.q k).qr.stream x).endSlot k x
  | none, none =>
    let d := if r.usesExt then s.draw else (0, s)
    let r1 := if r.usesExt then { r with w38 := d.1.toNat % 2 ^ 24 } else r
    (d.2.modQ k (fun q => { q with place := .binned, contRead := false, qr := r1, body0 := r.body, traceAddr := traceAddr, traceCap := traceCap })).insert k 1

/-- A generated query is built again from its generation descriptor and shot block (R49, R150). -/
def State.regenerate (s : State) (k desc shot : Nat) : State :=
  let q := s.q k
  let r0 := genRec q.qr.ctx q.qr.stream q.desc desc q.genN
  let body := if fld desc 0 4 = 1 then camBody desc shot q.genN else some r0.body
  let r := { r0 with body := body.getD 0 }
  let cap := if r.trace then bytesAt desc 8 4 else 0
  let ta := if r.trace then bytesAt desc 0x30 8 + 32 * cap * q.genN else 0
  s.readmit k r (match body with | none => some stFormat | some _ => s.bodyCheck r ta cap) ta cap

/-- The descriptor of a reissued query has been read. -/
def State.redescRead (s : State) (k uid : Nat) (j : Job) : State :=
  let q := s.q k
  let c := q.qr.ctx
  let st := q.qr.stream
  if q.uid ≠ uid ∨ q.place ≠ .lost then s
  else if j.err = 1 then s.endSlot k stWindow
  else if j.err ≠ 0 then s.loss k
  else if bit j.data 15 then
    (if fld j.data 0 4 = 1 then s.startJob (.reshot k uid (j.data % 2 ^ 512)) c (bytesAt j.data 0x10 8) 64 .rd st else s.regenerate k j.data 0)
  else
    let r := plainRec c st q.desc j.data
    s.readmit k r (s.plainCheck c st j.data) (if r.trace then bytesAt j.data 0x30 8 else 0) (if r.trace then bytesAt j.data 8 4 else 0)

/-- The shot block of a reissued query has been read. -/
def State.reshotRead (s : State) (k uid desc : Nat) (j : Job) : State :=
  let q := s.q k
  if q.uid ≠ uid ∨ q.place ≠ .lost then s
  else if j.err = 1 then s.endSlot k stWindow
  else if j.err ≠ 0 then s.loss k
  else if !shotOk j.data then s.endSlot k stFormat
  else s.regenerate k desc (j.data % 2 ^ 512)

/-! ## Retries (R381) -/

/-- MEND_RETRY: failed request n is issued again, on the route in force (R381). -/
def State.mendRetry (s : State) (n : Nat) : State :=
  match s.tile.mendWait[n]? with
  | none => s
  | some (p, r) =>
    if !s.live then s
    else
      let s1 := (s.modTile (fun t => { t with mendWait := t.mendWait.eraseIdx n })).oInc 0x7020 9
      match r.rmp with
      | some m => s1.send m { r with rmp := none }
      | none => s1.send p r

/-! ## Losses by failed reads (R377) -/

/-- A node-cache fill has ended in an error completion: a loss for every query that waits for the line (R310, R377). -/
def State.ncFailed (s : State) (b port line : Nat) : State :=
  ((s.occupants b).filter (fun x => x.2.waits.any (fun w => w.1 == port && w.2 / 4 == line))).foldl (fun (s : State) x =>
    match (s.ent b x.1).slot with
    | some k => s.loss k
    | none => s) s

/-! ## The end of a withdrawal (R374, R375) -/

/-- The Bobbin is out of service: gated, reported and logged (R374, R394). -/
def State.withdrawn (s : State) (b : Nat) : State :=
  let s1 := s.gateBob b
  ((s1.modBob b (fun v => { v with wd := false })).oSet 0x7010 1 (s.o 0x7010 1 + (if bit (s.o 0x7010 1) b then 0 else 2 ^ b))).logWithdrawal b

/-- WITHDRAW_DONE: every entry of the Bobbin is written back (R374). -/
def State.withdrawDone (s : State) (b : Nat) : State :=
  if decide (b < 48) && (s.bobOf b).wd && (s.occupants b).isEmpty then
    ((s.withdrawn b).oInc 0x7020 3).raise (0x5100 + b) 2 noWhat
  else s

/-- CUTOFF: queries not yet written back are recovered from parking (R375). -/
def State.cutoff (s : State) (b : Nat) : State :=
  if decide (b < 48) && (s.bobOf b).wd && !(s.occupants b).isEmpty then
    let s0 := (s.occupants b).foldl (fun (s : State) x => s.recoverEnt b x.1) s
    ((s0.withdrawn b).oInc 0x7020 4).raise (0x5100 + b) 3 ((s.occupants b).length)
  else s

/-- MISMATCH_INTERVAL: first mismatches are counted anew (R371). -/
def State.mismatchInterval (s : State) : State := s.modTile (fun t => { t with mism := [] })

/-- READMIT (R394): the log holds no withdrawal of the selected Bobbin and its units. -/
def State.readmitCmd (s : State) (code : Nat) : Nat × State :=
  let b := s.o 0x7010 6
  if code ≠ 1 then (0, s.oSet 0x7010 7 0x84)
  else if 48 ≤ b then (0, s.oSet 0x7010 7 0x81)
  else
    let ways := (List.range 8).map (fun g => (53 + g, (List.range 63).foldl (fun a i =>
      let e := bytesAt (s.seg (53 + g)) (4 * i) 4
      if e ≠ 0 ∧ (e - 1) / 16384 = b then a else a + e * 2 ^ (32 * i)) 0))
    let changed := ways.filter (fun w => w.2 != s.seg w.1 % 2 ^ (8 * 252))
    let s1 := s.oSet 0x7010 7 0
    (0, s1.logWrite ((4, s1.wdSeg b 0 0 0) :: changed) s1.jhead)

/-! ## Scrub and retirement (R328, R329, R372) -/

/-- A unit of the pinned region is lost: the handle that holds it loses 64 KiB of its copy (R329, R306). -/
def State.unitLost (s : State) (v : Nat) : State :=
  let all := 16 * s.part.pin - 17 - s.tile.lostUnits
  if all = 0 then s
  else
    let owner := s.hnd.foldl (fun (a : Option Nat × Nat) e =>
      if a.1.isSome then a else if v % all < a.2 + e.2.units then (some e.1, a.2) else (none, a.2 + e.2.units)) (none, 0)
    let s1 := s.modTile (fun t => { t with lostUnits := t.lostUnits + 1 })
    match owner.1 with
    | some h => s1.pinTrim h ((s1.hndOf h).units - 1)
    | none => s1

/-- A parking slot has an uncorrectable error: a loss while that copy is authoritative or its extension has changed (R376, R377). A
spilled query suffers it when its entry is read back. -/
def State.slotLost (s : State) (k : Nat) : State :=
  let q := s.q k
  match q.place with
  | .rayStore _ _ => if q.extDirty then s.loss k else s
  | .spilled => if q.kill.isSome then s else s.modQ k (fun q => { q with kill := some stUnrecovered })
  | _ => s.loss k

/-- A line of four parking slots is lost: each is withdrawn once it is free (R329). -/
def State.parkLost (s : State) (v : Nat) (bad : Bool) : State :=
  if s.part.park = 0 then s
  else
    let k := 4 * (v % (s.part.park * 4096))
    let ks := [k, k + 1, k + 2, k + 3]
    let s1 := s.modTile (fun t => { t with lostSlots := t.lostSlots ++ ks.filter (fun k => !t.lostSlots.contains k) })
    if bad then ks.foldl (fun (s : State) k => s.slotLost k) s1 else s1

/-- A loss of the query of a slot, wherever it is; a spilled one suffers it when its entry is read back. -/
def State.lossOf (s : State) (k : Nat) : State := match (s.q k).place with | .spilled => s.slotLost k | _ => s.loss k

/-- An extension of a query has an uncorrectable error: a loss (R377). -/
def State.extLost (s : State) (v : Nat) (bad : Bool) : State :=
  let ks := s.slot.filter (fun e => e.2.place != .none && e.2.extBlocks != 0)
  if bad && s.part.park != 0 then (match ks[v % (s.part.park * 16384)]? with | some e => s.lossOf e.1 | none => s) else s

/-- A line of the slot table has an uncorrectable error: a loss for each of the 64 slots that it covers (R185, R377). -/
def State.tableLost (s : State) (v : Nat) (bad : Bool) : State :=
  if bad && s.part.park != 0 then
    ((s.slot.filter (fun e => e.1 / 64 == v % (s.part.park * 256))).map (fun e => e.1)).foldl (fun (s : State) k => s.lossOf k) s
  else s

/-- The entries of chunk i of the bins, none for a free chunk. -/
def chunkAt : Nat → List (Nat × Bin) → List Nat
  | _, [] => []
  | i, e :: r => if i < e.2.chunks then (e.2.entries.drop (128 * i)).take 128 else chunkAt (i - e.2.chunks) r

/-- A bin chunk is lost once it is empty; with its data, every slot whose entry lay in it goes to the escape bin of its class, keyed with
ROOT (R329, R372). -/
def State.chunkLost (s : State) (v : Nat) (bad : Bool) : State :=
  if s.chunks = 0 then s
  else
    let ks := chunkAt (v % s.chunks) (s.tile.bins.filter (fun e => e.1 < 131072))
    if bad then
      ks.foldl (fun (s : State) k =>
        let s2 := (s.unbin k).modQ k (fun q => { q with nextItem := 0 })
        (s2.modQ k (fun q => { q with key := s2.keyOf k q.scheme none })).toEscape k) (s.modTile (fun t => { t with lostChunks := t.lostChunks + 1 }))
    else if ks.isEmpty then s.modTile (fun t => { t with lostChunks := t.lostChunks + 1 })
    else s.modTile (fun t => { t with chunkOld := t.chunkOld ++ [ks] })

/-- A page of the result buffers is lost once its records are delivered; with its data, the query whose undelivered records it held suffers a
loss (R329, R377). -/
def State.pageLost (s : State) (v : Nat) (bad : Bool) : State :=
  if s.rbPages = 0 then s
  else
    let items := s.strm.flatMap (fun e => (e.2.hem.filter (fun i => i.frees && i.paged)).map (fun i => (e.1, i.slot)))
    let free := s.modTile (fun t => { t with lostPages := t.lostPages + 1 })
    match items[v % s.rbPages]? with
    | some (c, k) =>
      if (s.q k).place ≠ .hem then free
      else if bad then
        (((free.modSt (c / 8) (c % 8) (fun x => { x with hem := x.hem.filter (fun i => i.slot != k || !i.frees) })).modQ k (fun q => { q with place := .lost })).loss k)
      else s.modTile (fun t => { t with pageOld := t.pageOld ++ [(k, (s.q k).uid)] })
    | none => free

/-- The dirty rows of R316: the contexts whose spill bytes are lost are handled as R203 says, and UE_DIRTY is raised once, with
the lowest of them. -/
def State.dirtyLost (s : State) (cs : List Nat) : State :=
  cs.foldl (fun (s : State) c => s.spillFault c) ((s.oInc 0x4330 9).raise 0x5200 6 (cs.headD noWhat))

/-- A way of the Lining cache is disabled (R329). Bytes that are lost are fetched again, or handled as R203 says where they were dirty
(R316); others are written back, those of a line still being filled once it is. -/
def State.wayLost (s : State) (v line : Nat) (bad : Bool) : State :=
  if s.part.lc = 0 then s
  else
    let n := v % (s.part.lc * 4096)
    let k := n / 8
    let s1 := s.modTile (fun t => { t with lcOff := if t.lcOff.contains n then t.lcOff else t.lcOff ++ [n] })
    match (s.lcGet k).ways.find? (fun w => w.way == n % 8) with
    | none => s1
    | some w =>
      let gone := fun (s : State) (keep : Bool) => s.modLc k (fun x =>
        if w.filling then x.put { w with noKeep := true, back := w.dirty && keep, dirty := w.dirty && keep } else x.drop w.way)
      if w.dirty && bad then (gone s1 false).dirtyLost (s.spillOn w.port w.line)
      else if w.dirty && !w.filling then gone (s1.evictLine k w) true
      else if bad && !w.filling then ((gone s1 false).oInc 0x4330 8).raise 0x5200 5 line
      else gone s1 true

/-- Contexts with spilled entries whose spill window is reached through a CACHE = 1 window (R316). -/
def State.spillCached (s : State) : List Nat :=
  (List.range 64).filter (fun c =>
    let a := s.co c 0xD
    let z := a + s.co c 0xE
    let edges := (List.range 64).flatMap (fun w => [s.win c w 0, s.win c w 0 + 4096 * fld (s.win c w 2) 32 32])
    !(s.ctxOf c).spill.isEmpty && (a :: edges).any (fun p => decide (a ≤ p) && decide (p < z) && (match s.translate c p with | some t => t.cache | none => false)))

/-- A parity error in the tag of a way of the Lining cache: the way is invalidated, with dirty bytes lost (R316). The way is a free value
(log 17). -/
def State.wayTagError (s : State) : State :=
  let d := s.draw
  let n := d.1.toNat % (s.part.lc * 4096)
  if s.part.lc = 0 then s
  else match (s.lcGet (n / 8)).ways.find? (fun w => w.way == n % 8) with
    | none => d.2
    | some w =>
      let s1 := d.2.modLc (n / 8) (fun x => if w.filling then x.put { w with noKeep := true, back := false, dirty := false } else x.drop w.way)
      if w.dirty then s1.dirtyLost s.spillCached else s1

/-- What a region loses with a retired line (R329, R372). Where a line lies is not stated: the region and the place in it are free values
(log 17); the index table has its spare and its mirror (R372), and a line may lie outside the regions. `bad`: its data are lost. -/
def State.lineLost (s : State) (line : Nat) (bad : Bool) : State :=
  let d := s.draw
  let v := d.1.toNat / 8
  match d.1.toNat % 8 with
  | 5 => d.2.extLost v bad
  | 6 => d.2.tableLost v bad
  | 0 => (if bad then d.2.oInc 0x4330 8 else d.2).unitLost v
  | 1 => d.2.parkLost v bad
  | 2 => d.2.chunkLost v bad
  | 3 => d.2.pageLost v bad
  | 4 => d.2.wayLost v line bad
  | _ => d.2

/-- Retires a Lining line: recorded, logged, RETIRED raised; the region that holds it loses it (R329). -/
def State.retire (s : State) (line : Nat) (bad : Bool) : State :=
  if s.tile.retired.contains line then s
  else
    let s1 := (s.modTile (fun t => { t with retired := t.retired ++ [line] })).oSet 0x4330 0x0A (s.o 0x4330 0x0A + 1)
    let s2 := s1.raise 0x5200 4 line
    (s2.logJournal 6 s2.retiredSegs).lineLost line bad

/-- A line that is retired, by the tile or in the fuses (R329). -/
def State.lineOff (s : State) (line : Nat) : Bool := s.tile.retired.contains line || Config.factoryList.any (fun l => l.val == line)

/-- Controller k reads its next line that is not retired, line k + 48 × position; a pass ends as the positions wrap (R328, R331). The counts of
passes with a corrected error go into the lifetime log (R329, R458). -/
def State.scrub (s : State) (k : Nat) (o : ScrubOutcome) : State :=
  if !s.live ∨ s.o 0x2320 1 = 0 ∨ 48 ≤ k then s
  else
    let pos := tget 0 s.tile.scrubPos k
    match firstIdx 262144 (fun i => !s.lineOff (k + 48 * ((pos + i) % 262144))) with
    | none => s
    | some i =>
      let line := k + 48 * ((pos + i) % 262144)
      let s1 := s.modTile (fun t => { t with scrubPos := tset 0 t.scrubPos k ((pos + i + 1) % 262144) })
      let s2 := if 262144 ≤ pos + i + 1 then s1.oInc 0x4330 6 else s1
      match o with
      | .clean => s2
      | .corrected =>
        let n := tget 0 s2.tile.passes line + 1
        let s3 := (s2.modTile (fun t => { t with passes := tset 0 t.passes line n })).oInc 0x4330 7
        let s4 := s3.logWrite s3.passSegs s3.jhead
        if s4.o 0x2320 2 ≤ n then s4.retire line false else s4
      | .uncorrectable => s2.retire line true
      | .tag => s2.wayTagError

end Sys2Proof.Machine
end

