-- ==== Sys2Proof/Machine/Migrate.lean ====
section
/-! DEFINITION. Migration over the seam ports (R353 to R368): what arrives on a seam port, the origin's table, the tile that
serves. -/

namespace Sys2Proof
open Machine

/-- A nonzero reserved field, or a reserved type (R355 to R357). -/
def SeamFrame.bad (f : SeamFrame) : Bool :=
  let a0 := f.arg0
  let a1 := f.arg1
  let pay := fun o n => bytesAt f.payload o n
  fld f.h 9 7 != 0 || fld f.routew 18 14 != 0 ||
  (match f.ftype with
   | 1 => a1 / 2 ^ 16 != 0 || fld (pay 0x50 1) 5 3 != 0 || pay 0x51 1 != 0 || pay 0x5E 2 != 0 || (!bit (pay 0x50 1) 3 && pay 0x54 4 != 0) ||
     (List.range 4).any (fun i => fld (pay (0x40 + 4 * i) 4) 25 7 != 0)
   | 2 => fld a0 10 22 != 0 || pay 0x58 8 != 0 || (List.range 4).any (fun i => fld (pay (0x60 + 4 * i) 4) 25 7 != 0)
   | 3 => a1 != 0 || fld a0 18 46 != 0 || fld a0 16 2 == 3
   | 4 => fld a0 6 2 != 0 || a0 / 2 ^ 14 != 0
   | 5 => a0 / 2 ^ 8 != 0 || a1 != 0
   | 6 => a0 != 0 || a1 != 0
   | 7 => a0 / 2 ^ 16 != 0 || a1 != 0
   | _ => true)

end Sys2Proof

namespace Sys2Proof.Machine

/-! ## Arrival (R354, R356) -/

/-- A frame is discarded: counted, MIG_STALE raised (R356, R361). -/
def State.migStale (s : State) (sp : Nat) (f : SeamFrame) : State := (s.oInc 0x4440 6).raise (0x5300 + 24 + sp) 9 f.src

/-- Credits of an arriving frame: those it returns, and those it took, which go back (R354, R355). -/
def State.seamCredits (s : State) (sp : Nat) (f : SeamFrame) : State :=
  let esc := bit f.fflags 0
  (s.modPort (24 + sp) (fun p => { p with
    credN := p.credN + f.crn, credE := p.credE + f.cre, retN := p.retN + (if esc then 0 else f.credits),
    retE := p.retE + (if esc then f.credits else 0) })).seamDrain sp

/-- A frame that arrives on SP.sp: its credits, and `k` where it is not discarded (R354 to R356). -/
def State.seamIn (s : State) (sp : Nat) (f : SeamFrame) (k : State → State) : State :=
  if !(s.live && s.seamUp sp) then s
  else
    let s1 := s.seamCredits sp f
    if f.bad ∨ f.dst ≠ s.tileNo then s1.migStale sp f else k s1

/-! ## The origin (R358, R361 to R365) -/

/-- The table entry of a slot. -/
def State.migEntry (s : State) (k : Nat) : Option Nat := (s.mig.find? (fun e => e.2.used && !e.2.orphan && e.2.slot == k)).map (fun e => e.1)

/-- Whether a query releases records while it is away (R358). -/
def QRec.migRecs (r : QRec) : Bool := isStreamed r.kind || r.trace

/-- Hop count of a query that migrates (R358). -/
def Query.hops (q : Query) : Nat := match q.served with | some v => v.hops + 1 | none => 0

/-- The elements of a query's vector, if the tile has them. -/
def Query.vecElems (q : Query) : List Nat := match q.served with | some v => v.vec | none => q.vec

/-- The payload of a MIGRATE and its content bytes (R357). -/
def Query.migPayload (q : Query) (m : MigInfo) (sub rcap : Nat) : Nat × Nat :=
  let r := q.qr
  let ray := isRay r.kind
  let v3 := fun (v : Vec3) => v.x % 2 ^ 32 + v.y % 2 ^ 32 * 2 ^ 32 + v.z % 2 ^ 32 * 2 ^ 64
  let body := if ray then v3 m.o + r.b32 0x1C * 2 ^ 96 + (v3 m.d + (if m.closed then m.thi else r.tmax) % 2 ^ 32 * 2 ^ 96) * 2 ^ 128 else r.body
  let rec_ := { r with body := body, trail := sub }
  let lst := if r.kind = kKhit ∨ r.kind = kKnn then q.list else []
  let ip := (List.range 4).foldl (fun a i =>
    let w := match m.path[i]? with | some (n, fl) => n % 2 ^ 24 + b2n fl * 2 ^ 24 | none => 0xFFFFFF
    a + w * 2 ^ (32 * i)) 0
  let fl := m.path.length % 8 + b2n m.closed * 8 + b2n m.opq * 16
  let lb := (List.range lst.length).foldl (fun a i =>
    let y := lst.getD i default
    a + (y.t % 2 ^ 32 + y.w % 2 ^ 32 * 2 ^ 32 + y.id % 2 ^ 64 * 2 ^ 64) * 2 ^ (128 * i)) 0
  let pleft := if isMetric r.kind then fld (r.b32 0x1C) 16 16 else 0
  (rec_.bytes + ip * 2 ^ 512 + fl * 2 ^ 640 + lst.length * 2 ^ 656 + (if m.closed then m.tlo % 2 ^ 32 else 0) * 2 ^ 672 + rcap % 2 ^ 32 * 2 ^ 704 +
    pleft * 2 ^ 736 + lb * 2 ^ 768, 0x60 + 16 * lst.length)

/-- Sends MIGVEC frames of at most 4,096 bytes, in ascending offset (R357). -/
def State.sendVec (s : State) (home migid rw : Nat) (bytes n : Nat) : State :=
  (List.range ((n + 4095) / 4096)).foldl (fun (s : State) i =>
    let len := min 4096 (n - 4096 * i)
    (s.sendSeam home (mkSeam s.tileNo 7 home len migid rw (4096 * i) 0 (bytesAt bytes (4096 * i) len))).getD s) s

/-- Sends the MIGRATE of entry e, after its vector (R357, R358); nothing goes out without a route (R353). -/
def State.migOut (s : State) (e : Nat) : State :=
  let x := s.migOf e
  let q := s.q x.slot
  match q.mig with
  | none => s
  | some m =>
    if (s.seamPort m.home).isNone then s
    else
      let h := s.hndOf q.qr.handle
      let migid := e % 65536 + x.gen % 65536 * 65536
      let rw := q.qr.handle % 4096 + m.level % 16 * 2 ^ 12 + q.hops % 4 * 2 ^ 16
      let met := isMetric q.qr.kind
      let vlen := if met then roundUp (h.dim * h.elemSize) 32 else 0
      let bytes := q.vecElems.foldr (fun v a => v % 256 ^ h.elemSize + a * 256 ^ h.elemSize) 0
      let s1 := if met then s.sendVec m.home migid rw bytes vlen else s
      let p := q.migPayload m x.subtrail (if q.qr.migRecs then s.o 0x2700 3 else 0)
      ((s1.sendSeam m.home (mkSeam s1.tileNo 1 m.home p.2 migid rw m.root vlen p.1)).getD s1).oInc 0x4440 1

/-- Sends the MIGRATE again under the next GEN (R361, R363). -/
def State.migAgain (s : State) (e : Nat) : State :=
  (s.modMig e (fun x => { x with gen := (x.gen + 1) % 65536, staged := [], res := none, backoff := false })).migOut e

/-- Frees a table entry; its GEN goes on (R358). -/
def State.migFree (s : State) (e : Nat) : State := s.modMig e (fun x => { gen := x.gen })

/-- The origin gives up: MIGRATION_FAULT (R363, R382). -/
def State.migFault (s : State) (e : Nat) : State :=
  let k := (s.migOf e).slot
  ((s.migFree e).modQ k (fun q => { q with mig := none })).endSlot k stMigration

/-- The query of slot k is given a table entry and sent (R358). -/
def State.migStart (s : State) (k : Nat) : State :=
  let q := s.q k
  match q.mig with
  | none => s
  | some m =>
    let base := 16384 * q.hops
    let need := if q.qr.migRecs then (s.o 0x2700 3 * 32 + 4095) / 4096 else 0
    match firstIdx 16384 (fun i => !(s.migOf (base + i)).used) with
    | none => s
    | some i =>
      let e := base + i
      if need ≠ 0 ∧ !s.pagesFit q.qr.ctx q.qr.stream (s.pagesOf q.qr.ctx q.qr.stream + need) then s.rbStop q.qr.ctx q.qr.stream
      else (s.modMig e (fun x => { used := true, ctx := q.qr.ctx, slot := k, gen := (x.gen + 1) % 65536, home := m.home, attempts := 1, pages := need })).migOut e

/-- MIGRATE_SEND: a query in the owning place remote is sent (R358). The vector of a metric query is read first. -/
def State.migrateSend (s : State) (k : Nat) : State :=
  let q := s.q k
  if !(s.run && q.place == .remote) || q.kill.isSome || (s.ctxOf q.qr.ctx).aborting || (s.migEntry k).isSome then s
  else if isMetric q.qr.kind && q.vecElems.isEmpty then
    let h := s.hndOf q.qr.handle
    s.startJob (.migVec k q.uid) q.qr.ctx (bytesAt q.qr.body 0 8) (h.dim * h.elemSize) .rd q.qr.stream
  else s.migStart k

/-- The vector of a query that migrates has been read. -/
def State.migVecRead (s : State) (k uid : Nat) (j : Job) : State :=
  let q := s.q k
  if q.uid ≠ uid ∨ q.place ≠ .remote then s
  else if j.err = 1 then (s.modQ k (fun q => { q with mig := none })).endSlot k stWindow
  else if j.err ≠ 0 then s.loss k
  else
    let h := s.hndOf q.qr.handle
    let v := h.elems (j.data / 256 ^ (j.addr % 64)) h.dim
    (s.modQ k (fun q => { q with vec := v })).migStart k

/-- Sends again, or gives up after MIG_RETRY, or MEND_MIG_LIMIT in a mending context (R363, R382). -/
def State.migRetry (s : State) (e : Nat) : State :=
  let x := s.migOf e
  let q := s.q x.slot
  let mend := q.served.isNone && s.mending q.qr.ctx
  let lim := if mend then s.o 0x7000 3 else s.o 0x2700 5 + 1
  if x.attempts < lim then
    let s1 := if mend then s.oInc 0x7020 0xA else s
    ((s1.oInc 0x4440 4).modMig e (fun x => { x with attempts := x.attempts + 1 })).migAgain e
  else s.migFault e

/-- MIG_TIMEOUT expires for an entry (R363, R365). -/
def State.migTimeout (s : State) (e : Nat) : State :=
  let x := s.migOf e
  if !s.live || !x.used then s
  else if x.orphan then (if s.o 0x2700 5 ≤ x.attempts then s.migFree e else s.modMig e (fun x => { x with attempts := x.attempts + 1 }))
  else if x.backoff || !s.run then s
  else s.migRetry e

/-- MIG_BACKOFF expires after a BUSY answer, which is no attempt (R363). -/
def State.migBackoff (s : State) (e : Nat) : State :=
  let x := s.migOf e
  if s.run && x.used && x.backoff && !x.orphan then (s.oInc 0x4440 4).migAgain e else s

/-- A staged record, by its kind (R360). -/
def stagedRec (x : Nat × Nat) : Rec := if x.1 = 1 then .nbr (x.2 % 2 ^ 128) else .hit x.2
/-- A staged trace record as a sample. -/
def stagedSample (b : Nat) : Sample := { t := bytesAt b 4 4, sample := bytesAt b 8 2, nout := bytesAt b 0xA 1, leaf := bytesAt b 0xC 4, outs := bytesAt b 0x10 16 }

/-- Staged trace records as samples. The last of a leaf is the one that may have produced a hit (R165, R172; log 111). -/
def stagedSamples (l : List Nat) : List Sample :=
  let z := l.map stagedSample
  (z.zip ((z.drop 1).map (fun x => some x.leaf) ++ [none])).map (fun p =>
    if p.2 = some p.1.leaf then p.1 else { p.1 with key := some { t := p.1.t, ptype := 8, prim := anyPrim, geom := 0, path := [] } })

/-- An entry of a list that came back from a finishing walk, as a hit; its attributes and outer instances are not sent: free
values (log 38). -/
def LEntry.asHit (y : LEntry) (fv : Nat → Nat) : Hit :=
  let d := min 4 (fld y.w 24 3)
  { t := y.t, ptype := fld y.w 28 4, prim := fld y.id 0 44, geom := fld y.id 44 20,
    path := (List.range d).map (fun i => if i + 1 = d then fld y.w 0 24 else fv i % 2 ^ 24), front := fv 3 % 2 == 1,
    u := fv 4 % 2 ^ 32, v := fv 5 % 2 ^ 32 }

/-- The returned values of the record (R361). -/
def Query.takeResult (q : Query) (r : QRec) (lst : List LEntry) (attrs : Nat) (valid : Bool) : Query :=
  let o := q.qr
  let body := if isRay o.kind then (if (q.mig.map (fun m => m.closed)).getD false then o.body else putBytes o.body 0x1C 4 r.tmax)
    else if isMetric o.kind then putBytes (putBytes o.body 0x10 4 r.bound) 0xE 2 (fld (r.b32 0x1C) 16 16) else o.body
  let w38 := if o.kind = 2 ∨ (o.kind = 1 ∧ !o.trace) then r.w38
    else if o.kind = 3 ∨ o.kind = 5 then setFld o.w38 24 9 lst.length
    else if isStreamed o.kind then setFld o.w38 32 32 (r.w38 / 2 ^ 32) else o.w38
  { q with qr := { o with body := body, haveHit := r.haveHit, w38 := w38, w0c := if o.kind = 1 ∨ o.kind = 2 then r.w0c else o.w0c },
           list := if (o.kind = 3 ∧ !((q.mig.map (fun m => m.closed)).getD false)) ∨ o.kind = 5 then lst else q.list,
           tbest := if o.kind = 1 ∧ o.trace ∧ valid then bytesAt attrs 0x10 8 else q.tbest,
           anyT := if o.kind = 2 ∧ valid then bytesAt attrs 0 4 else q.anyT }

/-- The subtree is done: finish() at the stub's level, and what is left of the walk (R110, R361). -/
def Query.afterStub (q : Query) (m : MigInfo) (valid trunc : Bool) : Query :=
  let base := match q.served with | some v => v.baseLevel | none => 0
  let r := trailFinish base m.level q.qr.trail
  let single := q.qr.kind == kRayClosest || q.qr.kind == kRayAny
  let done := r.2 || trunc || (q.qr.kind == kRayAny && valid) || (m.closed && single && valid)
  let needsFin := !m.closed && ((single && q.qr.haveHit && !q.remoteHit.avalid) || (q.qr.kind == kKhit && !q.list.isEmpty))
  if done ∧ needsFin then { q with qr := { q.qr with trail := trailFinishing }, trunc := trunc }
  else { q with qr := { q.qr with trail := r.1 }, ended := done, trunc := trunc }

/-- A RESULT is applied (R361). -/
def State.applyResult (s : State) (sp e : Nat) (f : SeamFrame) : State :=
  let x := s.migOf e
  let k := x.slot
  let q := s.q k
  let st := f.arg0 % 256
  let valid := bit f.arg0 8
  match q.mig with
  | none => s
  | some m =>
    let recs := (x.staged.filter (fun y => y.1 != 2)).map stagedRec
    let samples := stagedSamples ((x.staged.filter (fun y => y.1 == 2)).map (fun y => y.2))
    let s1 := (s.modMig e (fun x => { x with pages := 0 })).releaseOut k recs samples
    let r := QRec.ofBytes (f.payload % 2 ^ 512)
    let attrs := bytesAt f.payload 0x40 0x30
    let n := if q.qr.kind = kKhit ∨ q.qr.kind = kKnn then min 256 (fld r.w38 24 9) else 0
    let lst := (List.range n).map (fun i =>
      let b := bytesAt f.payload (0x70 + 16 * i) 16
      ({ t := b % 2 ^ 32, w := fld b 32 32, id := fld b 64 64 } : LEntry))
    if st ≠ stDone ∧ st ≠ stTruncated then (s1.raise (0x5300 + 24 + sp) 8 (st + m.home * 256)).migFault e
    else
      let s2 := s1.modQ k (fun q => q.takeResult r lst attrs valid)
      if st = stDone ∧ bit f.arg0 9 then
        ((s2.oInc 0x4440 5).modMig e (fun y => { y with subtrail := f.arg1, attempts := 1, pages := x.pages })).migAgain e
      else
        let s3 := s2.modQ k (fun q => { q with remoteHit := if valid then { avalid := true, attrs := attrs } else q.remoteHit })
        let s4 := if m.closed ∧ q.qr.kind = kKhit then
            let fv := s3.openFn q.qr.ctx (s3.openKey q.qr q.body0 q.desc q.genN 259)
            let hs := (List.range n).map (fun i => (lst.getD i default).asHit (fun j => fv (6 * i + j)))
            { s3 with free := s3.free + 6 * n }.modQ k (fun q => { q with fin := some ((hs.foldl insKey (q.fin.getD [])).take q.qr.finK) })
          else s3
        (((s4.migFree e).modQ k (fun q => { q.afterStub m valid (st == stTruncated) with mig := none, nextItem := m.next })).insert k 1)

/-- Whether a frame is for the current migration of its entry (R361). -/
def State.migMatch (s : State) (f : SeamFrame) : Bool :=
  let x := s.migOf (f.migid % 65536)
  x.used && x.gen == f.migid / 65536

/-- The RESULT held by an entry is applied once its records are in (R361). -/
def State.migCheck (s : State) (sp e : Nat) : State :=
  let x := s.migOf e
  match x.res with
  | some f => if f.arg0 / 2 ^ 32 ≤ x.staged.length then s.applyResult sp e f else s
  | none => s

/-- A RESULT for this tile (R361, R363, R365, R382). -/
def State.resultIn (s : State) (sp : Nat) (f : SeamFrame) : State :=
  let e := f.migid % 65536
  let x := s.migOf e
  if !s.migMatch f then s.migStale sp f
  else if x.orphan then s.migFree e
  else if f.arg0 % 256 = 1 then s.modMig e (fun x => { x with backoff := true, staged := [] })
  else if f.arg0 % 256 = stUnrecovered ∧ s.mending (s.q x.slot).qr.ctx ∧ (s.q x.slot).served = none then s
  else (s.modMig e (fun x => { x with res := some f })).migCheck sp e

/-- A RECS for this tile (R361). -/
def State.recsIn (s : State) (sp : Nat) (f : SeamFrame) : State :=
  let e := f.migid % 65536
  let x := s.migOf e
  if !s.migMatch f then s.migStale sp f
  else if x.orphan then s
  else
    let n := f.arg0 % 65536
    let l := (List.range n).map (fun i => (fld f.arg0 16 2, bytesAt f.payload (32 * i) 32))
    (s.modMig e (fun x => { x with staged := x.staged ++ l })).migCheck sp e

/-- A query away from this tile ends here by an abort or a cancellation: its entry waits on as an orphan (R365). -/
def State.migOrphan (s : State) (k : Nat) : State :=
  match s.migEntry k with
  | some e => s.modMig e (fun x => { x with orphan := true, attempts := 0, staged := [], res := none, pages := 0, backoff := false })
  | none => s

/-! ## The tile that serves (R359) -/

/-- Migration-pool slots in use, of one class and in all (R366). -/
def State.poolUse (s : State) (p : Nat → Bool) : Nat :=
  (s.slot.filter (fun e => e.2.place != .none && (match e.2.served with | some v => p v.hops | none => false))).length

/-- Vector bytes that have come for a migration (R357). -/
def vecKey (f : SeamFrame) : Nat := f.src * 2 ^ 32 + f.migid

/-- A MIGVEC for this tile (R357). -/
def State.migvecIn (s : State) (f : SeamFrame) : State :=
  let o := f.arg0 % 65536
  s.modTile (fun t => { t with migVec := tmod 0 t.migVec (vecKey f) (fun v => putBytes v o f.plen f.payload) })

/-- The capacity of a trace whose records go to the origin, which alone knows TRACE_CAP (R60, R359). -/
def servedCap : Nat := 2 ^ 32

/-- A MIGRATE for this tile (R359, R475): for a distributed handle (R94), with the stub's ROOT checked as it would be here (R72); BUSY while the
pool of its class, or parking as a whole, has no slot (R27). -/
def State.migrateIn (s : State) (sp : Nat) (f : SeamFrame) : State :=
  let hn := f.routew % 4096
  let h := s.hndOf hn
  let p := f.payload
  let r := QRec.ofBytes (p % 2 ^ 512)
  let mf := bytesAt p 0x50 1
  let hops := fld f.routew 16 2
  let vec := tget 0 s.tile.migVec (vecKey f)
  let s1 := s.modTile (fun t => { t with migVec := tdel t.migVec (vecKey f) })
  let v : Served := { tile := f.src, sp := sp, migid := f.migid, hops := hops, baseLevel := fld f.routew 12 4, rcap := bytesAt p 0x58 4,
                      root := f.arg0,
                      instPath := (List.range (min 4 (fld mf 0 3))).map (fun i => let w := bytesAt p (0x40 + 4 * i) 4; (fld w 0 24, bit w 24)),
                      closed := bit mf 3, octx := r.ctx, forceOpq := bit mf 4, tlo := bytesAt p 0x54 4, pleft := bytesAt p 0x5C 2,
                      vec := if isMetric r.kind then h.elems vec h.dim else [] }
  let back := fun (s : State) (st : Nat) => s.answer v 2 st r.trail 0x70 r.bytes hn
  if h.state = 0 ∨ !s1.ctxEn h.owner ∨ !h.distrib then back s1 stMigration
  else if (match longRef f.arg0 with | some x => refOk h .stub x | none => false) = false then back s1 stFormat
  else if s1.o 0x2700 2 ≤ s1.poolUse (fun x => x == hops) ∨ min 16777216 s1.parkUnits ≤ s1.queriesIn then back (s1.oInc 0x4440 3) 1
  else
    let k := s1.freeSlot
    let t := s1.tick
    let body := if isMetric r.kind then putBytes r.body 0xE 2 (bytesAt p 0x5C 2) else r.body
    let lst := (List.range (min 256 (bytesAt p 0x52 2))).map (fun i =>
      let b := bytesAt p (0x60 + 16 * i) 16
      ({ t := b % 2 ^ 32, w := fld b 32 32, id := fld b 64 64 } : LEntry))
    let q : Query := { place := .binned, qr := { r with ctx := h.owner, handle := hn, body := body }, body0 := body, list := lst, served := some v, uid := t.1,
                       traceCap := servedCap, anyT := r.tmax }
    ((t.2.modQ k (fun _ => q)).insert k 2).oInc 0x4440 2

/-! ## MAINT (R364) -/

/-- Answers a MAINT. -/
def State.maintAck (s : State) (tile migid st : Nat) : State := (s.sendSeam tile (mkSeam s.tileNo 5 tile 0 migid 0 st 0 0)).getD s

/-- A MAINT for this tile: a write of a context-table object 0x08 to 0x0B (R364). -/
def State.maintIn (s : State) (f : SeamFrame) : State :=
  let c := fld f.arg0 0 6
  let o := fld f.arg0 8 6
  let v := f.arg1
  let no := s.maintAck f.src f.migid 0x80
  if !bit (s.o 0x2700 7) f.src then no
  else match o with
    | 8 =>
      if v ≥ 256 ∨ s.co c 8 = 1 ∨ (s.ctxOf c).maintFrom.isSome then no
      else
        let r := (s.modCtx c (fun x => { x with maintFrom := some (f.src, f.migid) })).idxCmd c v
        if r.1 ≠ 0 then (r.2.modCtx c (fun x => { x with maintFrom := none })).maintAck f.src f.migid 0x80 else r.2
    | 9 => if v < 65536 then (s.coSet c 9 (v % 4096)).maintAck f.src f.migid 0 else no
    | 0xA => (s.coSet c 0xA v).maintAck f.src f.migid 0
    | 0xB => (s.coSet c 0xB v).maintAck f.src f.migid 0
    | _ => no

end Sys2Proof.Machine
end

