-- ==== Sys2Proof/Machine/Ports.lean ====
section
/-! DEFINITION. Memory and host ports (R338 to R349): completions, timeouts, lane faults and retrains, and accesses to the
host register window as wake events (R441). -/

namespace Sys2Proof.Machine

/-! ## Completions (R339 to R344) -/

/-- Fields of a packet header (R339). -/
def pktTag (h : Nat) : Nat := bytesAt h 2 2 % 4096
def pktStat (h : Nat) : Nat := bytesAt h 4 1
def pktSect (h : Nat) : Nat := bytesAt h 5 1 % 4

/-- A reserved type or a nonzero reserved field of a completion (R339). -/
def pktBad (h ty : Nat) : Bool :=
  bytesAt h 0 1 != ty || bit (bytesAt h 1 1) 3 || bytesAt h 2 2 / 4096 != 0 || bytesAt h 6 2 != 0 || bytesAt h 0x10 8 != 0 || bytesAt h 0x18 8 != 0 ||
  (if ty = 9 then decide (4 ≤ bytesAt h 5 1) else bytesAt h 5 1 != 0)

/-- Whether a port can take packets now. -/
def State.portUp (s : State) (p : Nat) : Bool := decide (p < 24) && s.live && (s.lstate p == 1 || s.lstate p == 2)

/-- A sector of a read has come in (R309, R313): handed to the jobs and caches that wait for it. -/
def State.sectorIn (s : State) (p : Nat) (r : PReq) (sec v : Nat) (last : Bool) : State :=
  let mp := r.rmp.getD p
  let line := r.addr / 256
  let v := if r.toLc then s.lcMerged mp line sec v else v
  let s1 := (r.jobs.filter (fun j => j.2.1 == sec)).foldl (fun (s : State) j => s.jobSector j.1 j.2.2 v 0) s
  let s2 := if r.toLc then s1.lcSector mp line sec v last else s1
  r.nc.foldl (fun (s : State) b => s.ncSectorIn b mp line sec v last) s2

/-- CPLD (R339, R340, R344). -/
def State.cpldIn (s : State) (p hdr data : Nat) : State :=
  if !s.portUp p then s
  else if pktBad hdr 9 then s.raise (0x5300 + p) 0 (bytesAt hdr 0 1)
  else
    let tag := pktTag hdr
    match (s.portOf p).rds.find? (fun e => e.1 == tag) with
    | none => s.raise (0x5300 + p) 2 tag
    | some e =>
      let r := e.2
      let sec := if r.big then pktSect hdr else 0
      if !bit r.left sec then s.raise (0x5300 + p) 2 tag
      else
        let bad := pktStat hdr != 0
        let left := r.left - 2 ^ sec
        let failed := r.err || bad
        let keep := { r with left := left, err := failed, jobs := if bad then r.jobs else r.jobs.filter (fun j => j.2.1 != sec) }
        let s1 := s.modPort p (fun ps => if left = 0 then { ps.reqBack r with rds := tdel ps.rds tag } else { ps with rds := tins (tdel ps.rds tag) tag keep })
        let s2 := if bad then s1 else (s1.oAdd (0x4400 + p) 5 64).sectorIn p r sec data (left == 0 && !failed)
        (if left = 0 ∧ failed then s2.failReq p keep else s2).drainAfter s p

/-- CPL (R339, R340, R344). -/
def State.cplIn (s : State) (p hdr : Nat) : State :=
  if !s.portUp p then s
  else if pktBad hdr 8 then s.raise (0x5300 + p) 0 (bytesAt hdr 0 1)
  else
    let tag := pktTag hdr
    match (s.portOf p).wrs.find? (fun e => e.1 == tag) with
    | none => s.raise (0x5300 + p) 2 tag
    | some e =>
      let s1 := s.modPort p (fun ps => { ps.reqBack e.2 with wrs := tdel ps.wrs tag })
      let s2 := if pktStat hdr = 0 then (match e.2.wp with
          | some w => { s1 with due := s1.due ++ [.wrote e.2.ctx w false] }
          | none => s1)
        else s1.failReq p e.2 (pktStat hdr == 3)
      s2.drainAfter s p

/-- CPL_TIMEOUT: RSP_TIMEOUT has passed for a tag: the tile completes the request as an error completion (R344). -/
def State.cplTimeout (s : State) (p : Nat) (wr : Bool) (tag : Nat) : State :=
  let ps := s.portOf p
  if !(decide (p < 24) && s.live) then s
  else match (if wr then ps.wrs else ps.rds).find? (fun e => e.1 == tag) with
    | none => s
    | some e =>
      let s1 := s.modPort p (fun ps => { ps.reqBack e.2 with
        wrs := if wr then tdel ps.wrs tag else ps.wrs, rds := if wr then ps.rds else tdel ps.rds tag,
        forced := if ps.forced.contains (wr, tag) then ps.forced else ps.forced ++ [(wr, tag)] })
      ((s1.raise (0x5300 + p) 1 tag).failReq p e.2).drainAfter s p

/-! ## Lane faults and retrains (R338) -/

/-- Modules of a port (R334). -/
def portModules (p : Nat) : Nat := if p < 16 then 4 else if p < 24 then 2 else 1

/-- LANE_FAULT of module m: every module of a FULL port is retrained at x32; a port at x32 fails (R338). -/
def State.laneFault (s : State) (p m : Nat) : State :=
  if !(decide (p < 48) && decide (m < portModules p) && s.live) || (s.portOf p).retrain then s
  else if s.lstate p = 1 then s.modPort p (fun ps => { ps with retrain := true, faulty := m })
  else if s.lstate p = 2 then s.portFail p m
  else s

/-- RETRAIN_DONE: the port enters HALF, and what waited at it goes on (R338, R352). -/
def State.retrainDone (s : State) (p : Nat) : State :=
  if decide (p < 48) && s.live && (s.portOf p).retrain then
    let s1 := ((s.oSet (0x4400 + p) 1 2).modPort p (fun ps => { ps with retrain := false, faulty := 0 })).raise (0x5300 + p) 4 (s.portOf p).faulty
    if p < 24 then s1.drainPort p else s1.seamDrain (p - 24)
  else s

/-- RETRAIN_TIMEOUT: the retrain has not completed in 16 µs (R338, R349). -/
def State.retrainTimeout (s : State) (p m : Nat) : State :=
  if decide (p < 48) && s.live && (s.portOf p).retrain && decide (m < portModules p) then s.portFail p m else s

/-! ## Lines that fail to fill or to be written (R203, R310, R313) -/

/-- A Lining-cache fill has failed: the line is not kept; spill bytes merged into it are lost (R203, R313). -/
def State.lcFailed (s : State) (port line : Nat) : State :=
  let k := s.lcSet port line
  match (s.lcGet k).ways.find? (fun w => w.port == port && w.line == line && w.filling) with
  | none => s
  | some w =>
    let s1 := s.modLc k (fun x => x.drop w.way)
    if w.dirty then (s.spillOn port line).foldl (fun (s : State) c => s.spillFault c) s1 else s1

/-- A write-back has completed: the oldest line of that address leaves the eviction buffer (R203, R315). -/
def State.lcBacked (s : State) (port line : Nat) (bad : Bool) : State :=
  let s1 := s.modTile (fun t => { t with evict := t.evict.eraseP (fun e => e.port == port && e.line == line) })
  if bad then (s.spillOn port line).foldl (fun (s : State) c => s.spillFault c) s1 else s1.oInc 0x4330 3

/-- A node-cache fill has failed: the way is free again, and the queries that wait suffer a loss (R310, R377). -/
def State.ncFillFailed (s : State) (b port line : Nat) : State :=
  let k := ncSetOf line
  let s1 := match (s.ncGet b k).ways.find? (fun w => w.port == port && w.line == line && w.filling) with
    | some w => (s.modNc b k (fun x => x.clear w)).modBob b (fun v => { v with trackers := v.trackers - 1 })
    | none => s
  s1.ncFailed b port line

/-! ## The register window (R345 to R347, R441) -/

/-- REQ headers, and REQ data units, that the tile advertises on a host port for inbound requests (R343). -/
def hostCredits : Nat := 64

/-- An HWR through HP.hp: held in SLEEP, where it wakes the tile, with the host's REQ credits until it is served, 64 at most; otherwise
applied, its credits returned at once, and counted, one that writes nothing among them (R343, R347, R351, R441; log 48). -/
def State.hwr (s : State) (hp : Nat) (i : Instr) (apply : State → State) : State :=
  if !(decide (hp < 8) && (s.lstate (16 + hp) == 1 || s.lstate (16 + hp) == 2)) then s
  else if s.pstate = 2 then
    (if (s.portOf (16 + hp)).hostHead < hostCredits ∧ (s.portOf (16 + hp)).hostData < hostCredits then
       State.wakeEvent { s.modPort (16 + hp) (fun p => { p with hostHead := p.hostHead + 1, hostData := p.hostData + 1 }) with held := s.held ++ [i] }
     else s)
  else if s.live then apply (s.wakeEvent.oInc (0x4400 + 16 + hp) 8)
  else s

/-- A seam frame on SP.sp: held in SLEEP, where it wakes the tile (R441). -/
def State.seamRx (s : State) (sp : Nat) (i : Instr) (apply : State → State) : State :=
  if !s.seamUp sp then s
  else if s.pstate = 2 then { s with held := s.held ++ [i] }.wakeEvent
  else if s.live then apply s.wakeEvent
  else s

end Sys2Proof.Machine
end

