-- ==== Sys2Proof/Machine/Control.lean ====
section
/-! DEFINITION. Control of contexts and streams: enabling and quotas (R35, R45, R62 to R66), the objects of delivery
(R246, R247), CANCEL (R67) and the abort (R472 to R479). -/

namespace Sys2Proof.Machine

/-! ## Contexts (R35, R62 to R66) -/

/-- RELEASING of a context (R472, R478). -/
def State.releasing (s : State) (c : Nat) : Bool := bit (s.o 0xF002 3) c || (s.ctxOf c).aborting

/-- Whether the reserves leave the shared pool its 65,536 units when context c is enabled with reserve r (R64). -/
def State.reservesFit (s : State) (c r : Nat) : Bool :=
  decide ((List.range 64).foldl (fun a k => a + (if k ≠ c ∧ s.ctxEn k then s.co k 3 else 0)) r + 65536 ≤ s.parkUnits)

/-- CONTEXT_ENABLE: a write of CTX_CTRL (R35, R62 to R64, R478). -/
def State.contextEnable (s : State) (c v : Nat) : Nat × State :=
  let old := s.co c 0
  let fixed := bit v 1 == bit old 1 && bit v 2 == bit old 2 && fld v 8 4 == fld old 8 4
  if !fixed && (bit old 0 || s.usagePark c != 0) then (0x83, s)
  else if bit v 0 && fld v 8 4 != 1 then (0x83, s)
  else if bit v 0 && !bit old 0 && (s.releasing c || !s.reservesFit c (s.co c 3)) then (0x83, s)
  else (0, s.coSet c 0 v)

/-- QUOTA_WRITE: QUOTA_PARK (1), QUOTA_EXT (2) or RESERVE_PARK (3) (R64, R66). -/
def State.quotaWrite (s : State) (c o v : Nat) : Nat × State :=
  if o = 1 then
    (if v < 64 ∨ v < s.co c 3 then (0x83, s)
     else (0, ((s.coSet c 1 v).modCtx c (fun x => { x with overPark := x.overPark || decide (v < s.usagePark c) })).quotaCheck c))
  else if o = 2 then
    (if v < 65 then (0x83, s)
     else (0, ((s.coSet c 2 v).modCtx c (fun x => { x with overExt := x.overExt || decide (v < s.usageExt c) })).quotaCheck c))
  else if v < 64 ∨ s.co c 1 < v ∨ (s.ctxEn c ∧ !s.reservesFit c v) then (0x83, s)
  else (0, s.coSet c 3 v)

/-- CTX_STATUS (R62). -/
def State.ctxStatus (s : State) (c : Nat) : Nat :=
  b2n (s.ctxOf c).overPark + 2 * b2n (s.ctxOf c).overExt + 4 * b2n (s.usagePark c != 0)

/-! ## Streams (R45, R246, R247) -/

/-- Whether n streams can be enabled with `pages` pages each (R247). -/
def State.rbFits (s : State) (n pages : Nat) : Bool := decide (n * pages + 1024 ≤ s.rbPages)

/-- A stream is enabled: HEAD, TAIL, PROD, FILLS and the credit counts are 0, REDIR and RFAULT are clear (R45, R246). What it had
fetched and what it has not delivered stays (R44, R248; log 39). -/
def State.streamReset (s : State) (c st : Nat) : State :=
  ((s.modSt c st (fun x => x.restart (s.destSlot c st))).setResBit c st 16 false).setResBit c st 17 false

/-- STREAM_ENABLE: a write of RING_CTRL (R45, R247). -/
def State.streamEnable (s : State) (c st v : Nat) : Nat × State :=
  let old := s.ringCtrl c st
  let lg := fld v 8 5
  let on := bit v 0 && !bit old 0
  if lg < 6 ∨ 20 < lg then (0x83, s)
  else if bit old 0 && (lg != fld old 8 5 || fld v 16 2 != fld old 16 2) then (0x83, s)
  else if on && !s.rbFits (s.streamsOn.length + 1) (s.o 0x2410 1) then (0x83, s)
  else
    let s1 := s.coSet c (0x19 + 5 * st) v
    (0, if on then s1.streamReset c st else s1)

/-- Whether a stream holds records that are not delivered (R246). -/
def State.holdsRecords (s : State) (c st : Nat) : Bool :=
  let x := s.st c st
  !x.hem.isEmpty || !x.ringOut.isEmpty || x.open_.isSome || !x.closing.isEmpty

/-- A write of RES_BASE, RES_CTRL, RES_WB, SLOT_BASE or SLOT_CTRL of a stream (objects 0x11 to 0x15, R246). -/
def State.dlvWrite (s : State) (c o st v : Nat) : Nat × State :=
  let fixed := s.ringEn c st || s.holdsRecords c st
  if o = 0x12 then
    let old := s.resCtrl c st
    if fld v 0 13 ≠ fld old 0 13 ∧ (fixed ∨ fld v 8 5 < 6 ∨ 20 < fld v 8 5) then (0x83, s)
    else
      let s1 := s.coSet c 0x12 (setFld old 0 13 (fld v 0 13)) (1 + st)
      let s2 := if bit v 16 then s1.redirClear c st else s1
      (0, if bit v 17 then s2.rfaultClear c st else s2)
  else if fixed then (0x83, s)
  else if o = 0x15 ∧ (12 < fld v 0 4 ∨ fld v 8 16 = 0) then (0x83, s)
  else (0, s.coSet c o v (1 + st))

/-- A write of RB_RESERVE or RB_CAP (R247). -/
def State.rbWrite (s : State) (sub v : Nat) : Nat × State :=
  if sub = 1 then
    (if v < 1 ∨ 256 < v ∨ s.o 0x2410 2 < v ∨ !s.rbFits s.streamsOn.length v then (0x83, s) else (0, s.oSet 0x2410 1 v))
  else if v < s.o 0x2410 1 then (0x83, s)
  else (0, s.oSet 0x2410 2 v)

/-! ## CANCEL (R67) -/

/-- One query of a cancelled stream, where it stands. One that the Hem has keeps its status. A handoff in flight completes first (R104, R178);
an invocation that runs is stopped (R213). -/
def State.cancelSlot (s : State) (k : Nat) : State :=
  match (s.q k).place with
  | .binned | .held => (s.unbin k).endSlot k stCancelled
  | .lost => s.endSlot k stCancelled
  | .remote => ((s.migOrphan k).modQ k (fun q => { q with mig := none })).endSlot k stCancelled
  | .spilled | .parent => s.modQ k (fun q => q.killBy stCancelled)
  | .rayStore b e =>
    let s1 := (s.modQ k (fun q => q.killBy stCancelled)).boundary b e
    if (s1.engineOf b e).isSome then s1.stopOp b e else s1
  | .none | .hem | .charged => s

/-- CANCEL of the streams of a mask. -/
def State.cancel (s : State) (c mask : Nat) : State :=
  ((List.range 8).filter (fun st => bit mask st)).foldl (fun (s : State) st =>
    let s1 := s.modSt c st (fun x => { x with
      cancelTo := if x.next = x.tail then none else some x.tail, gen := x.gen.map (fun g => { g with cancelled := true, ready := true }),
      old := x.old.map (fun r => { r with cancelTo := some r.stop }) })
    ((s1.slot.filter (fun e => e.2.qr.ctx == c && e.2.qr.stream == st && e.2.served.isNone)).map (fun e => e.1)).foldl
      (fun (s : State) k => s.cancelSlot k) s1) s

/-- Whether a CANCEL of the context is still to complete (R492). -/
def State.cancelling (s : State) (c : Nat) : Bool :=
  (List.range 8).any (fun st => let x := s.st c st; x.cancelTo.isSome || x.old.any (fun r => r.cancelTo.isSome) || (match x.gen with | some g => g.cancelled | none => false)) ||
  s.slot.any (fun e => e.2.place != .none && e.2.qr.ctx == c && e.2.kill == some stCancelled && e.2.served.isNone)

/-! ## Abort (R472 to R479) -/

/-- A unit has begun the handoff of an entry and no invocation runs for it: it completes (R104); one that is queued is withdrawn (R474). -/
def State.opBegun (s : State) (b e : Nat) : Bool :=
  match (s.ent b e).op with
  | some h => h.block.isSome && h.unit != 3 && (s.engineOf b e).isNone
  | none => false

/-- One query of an aborted context (R474, R476, R478): its resources are freed here, but for one whose operation in flight completes first,
and one whose bin entry is spilled, which is read back first. A query that is served here is answered with RSTATUS 0x10. -/
def State.abortSlot (s : State) (k : Nat) : State :=
  let q := s.q k
  let done := fun (s : State) => if q.served.isSome then s.answerEnd k stAborted else s.freeQuery k
  match q.place with
  | .none => s
  | .rayStore b e =>
    if s.opBegun b e then s.modQ k (fun q => { q with kill := some stAborted }) else done ((s.stopOp b e).leave b e)
  | .binned | .held => done (s.unbin k)
  | .spilled => s.modQ k (fun q => { q with kill := some stAborted })
  | .remote => done (s.migOrphan k)
  | .hem => if q.served.isSome then s else done s
  | .charged | .parent | .lost => done s

/-- One stream of an aborted context: nothing more is delivered but what its issued writes deliver (R474, R476). -/
def State.abortStream (s : State) (c st : Nat) : State :=
  let x := s.st c st
  let sent := x.closing.filter (fun f => f.flagSent)
  let lost := x.closing.length - sent.length + x.open_.toList.length
  (s.coSet c (0x19 + 5 * st) (setFld (s.ringCtrl c st) 0 1 0)).modSt c st (fun x =>
    { x with entries := [], inFlight := [], old := [], bells := [], gen := none, cancelTo := none, hem := [], rbFull := false, rbMark := 0, open_ := none, closing := sent,
             fills := x.fills - BitVec.ofNat 32 lost, retry := [], ringFail := none })

/-- Frames of withdrawn migrations that still wait for credit are not sent (R475). -/
def State.abortFrames (s : State) : State :=
  (List.range 24).foldl (fun (s : State) i => s.modPort (24 + i) (fun p => { p with seamQ := p.seamQ.filter (fun f =>
    !((f.ftype == 1 || f.ftype == 7) && (let x := s.migOf (f.migid % 65536); x.orphan && x.gen == f.migid / 65536))) })) s

/-- The spill window of the context in the Lining cache is invalidated without write-back (R474). -/
def State.abortLines (s : State) (c : Nat) : State :=
  let in_ := fun p l => s.lineIn c (s.co c 0xD) (s.co c 0xE) p l
  if s.co c 0xE = 0 then s else ((s.modTile (fun t => { t with lcWait := t.lcWait.filter (fun r => r.job.isSome || !in_ r.port (r.pa / 256)) })).lcSweep (fun _ w => in_ w.port w.line) (fun e => in_ e.port e.line) false true).1

/-- Failed requests of the context that waited for another attempt: its writes are dropped, its reads go out (R474). -/
def State.abortRetries (s : State) (c : Nat) : State :=
  let mine := s.tile.mendWait.filter (fun w => w.2.ctx == c && !w.2.wr)
  mine.foldl (fun (s : State) w => s.send (w.2.rmp.getD w.1) { w.2 with rmp := none })
    (s.modTile (fun t => { t with mendWait := t.mendWait.filter (fun w => w.2.ctx != c) }))

/-- The Stop, Bobbins, Migrations and Lining-cache phases of one context (R474). -/
def State.abortCtx (s : State) (c : Nat) : State :=
  let s1 := ((s.coSet c 0 (setFld (s.co c 0) 0 1 0)).coSet c 0x17 0 1).modCtx c (fun x => { x with aborting := true, cmds := [] })
  let s2 := (List.range 8).foldl (fun (s : State) st => s.abortStream c st) s1
  let s3 := ((s2.slot.filter (fun e => e.2.qr.ctx == c)).map (fun e => e.1)).foldl (fun (s : State) k => s.abortSlot k) s2
  (((s3.modTile (fun t => { t with contWait := t.contWait.filter (fun k => (s3.q k).place == .parent) })).abortFrames).abortLines c).abortRetries c

/-- Writes of a context that have been issued, by a unit to its port or by the port, and have not completed. -/
def State.writesOf (s : State) (c : Nat) : Bool :=
  let mine := fun (r : PReq) => r.wr && (match r.wp with
    | some (.lcBack p l _) => s.co c 0xE != 0 && s.lineIn c (s.co c 0xD) (s.co c 0xE) p l
    | some _ => r.ctx == c
    | none => false)
  (List.range 24).any (fun p => (s.portOf p).wrs.any (fun e => mine e.2) || (s.portOf p).waiting.any mine)

/-- Queries of a context that are still in a ray store. -/
def State.storeOf (s : State) (c : Nat) : Bool :=
  s.slot.any (fun e => e.2.qr.ctx == c && (match e.2.place with | .rayStore _ _ => true | _ => false))

/-- Completion for one context: its Bodkin state is freed, its operands not yet applied are discarded and counted (R275, R290), its
streams hold nothing (R476, R477). -/
def State.abortDone (s : State) (c : Nat) : State :=
  let s1 : State := { s with thr := s.thr.filter (fun e => e.2.ctx != c), expct := s.expct.filter (fun x => x.ctx != c), orphan := s.orphan.filter (fun x => x.ctx != c) }
  let gone := ((s.tile.posts ++ s.tile.waitPosts).filter (fun p => p.ctx == c)).length
  let s2 := ((s1.oAdd 0x4320 4 gone).modTile (fun t => { t with posts := t.posts.filter (fun p => p.ctx != c), waitPosts := t.waitPosts.filter (fun p => p.ctx != c) })).modCtx c
    (fun x => { x with cmds := [], postStop := false, readyStop := false, replyFull := false })
  (List.range 8).foldl (fun (s : State) st => s.modSt c st (fun x =>
    { x with fills := x.fills - BitVec.ofNat 32 x.closing.length, closing := [], ringOut := [], ringDone := [], retry := [], ringFail := none })) s2

/-- The contexts of a mask. -/
def ctxList (m : Nat) : List Nat := (List.range 64).filter (fun c => bit m c)

/-- Completion of an abort (R474, R476): ABORT_CMD reads 0, RELEASING and ABORT_TIME are written. -/
def State.abortFinish (s : State) (us : Nat) : State :=
  let m := s.pwr.abortMask
  let s1 := (ctxList m).foldl (fun (s : State) c => s.abortDone c) s
  (((s1.oSet 0xF002 2 0).oSet 0xF002 3 (s1.o 0xF002 3 ||| m)).oSet 0xF002 4 us).modPwr (fun p => { p with abortMask := 0 })

/-- RELEASE_DONE: the parking and the migration entries of a context are all free (R478). -/
def State.releaseDone (s : State) (c : Nat) : State :=
  if s.live && decide (c < 64) && bit (s.o 0xF002 3) c && s.usagePark c == 0 && s.usageExt c == 0 && (s.ctxOf c).spill.isEmpty &&
      !s.mig.any (fun e => e.2.used && e.2.ctx == c) then
    (s.oSet 0xF002 3 (s.o 0xF002 3 - 2 ^ c)).modCtx c (fun x => { x with aborting := false, spillTail := 0, reloading := false })
  else s

/-- Whether a context has anything in flight. -/
def State.inFlightAny (s : State) (c : Nat) : Bool :=
  s.slot.any (fun e => e.2.place != .none && e.2.qr.ctx == c) || s.writesOf c || s.mig.any (fun e => e.2.used && e.2.ctx == c) ||
  (List.range 8).any (fun st => s.holdsRecords c st || !(s.st c st).entries.isEmpty || !(s.st c st).inFlight.isEmpty || !(s.st c st).old.isEmpty)

/-- An abort is accepted in RUN (R472, R474): of context ABORT_CTX, or of every enabled context. -/
def State.abortBegin (s : State) (code : Nat) : State :=
  let cs := if code = 1 then [s.o 0xF002 1] else (List.range 64).filter (fun c => s.ctxEn c)
  let quiet := cs.all (fun c => !s.ctxEn c && !s.inFlightAny c)
  let m := cs.foldl (fun a c => a ||| 2 ^ c) 0
  let s1 := cs.foldl (fun (s : State) c => s.abortCtx c) ((s.oSet 0xF002 2 1).modPwr (fun p => { p with abortMask := m }))
  if quiet then cs.foldl (fun (s : State) c => s.releaseDone c) (s1.abortFinish 0) else s1

/-- A write of ABORT_CMD: the STAT of the write and the state (R441, R472, R492). -/
def State.abortCmd (s : State) (code : Nat) : Nat × State :=
  if s.o 0xF002 2 = 1 then (0x83, s)
  else if code ≠ 1 ∧ code ≠ 2 then (0, s.oSet 0xF002 2 0x84)
  else if s.pstate ≤ 1 then (0, s.oSet 0xF002 2 0x81)
  else if s.pstate = 2 then (0, ((s.oSet 0xF002 2 1).modPwr (fun p => { p with abortAfterWake := code })).wakeEvent)
  else (0, s.wakeEvent.abortBegin code)

/-- ABORT_COMPLETE: every write of the aborted contexts has completed (R474). -/
def State.abortComplete (s : State) (us : Nat) : State :=
  if s.live && s.pwr.abortMask != 0 && (ctxList s.pwr.abortMask).all (fun c => !s.writesOf c && !s.storeOf c) then s.abortFinish us else s

/-- Automatic DRAIN entries and wakes apply an abort that waited for RUN (R472). -/
def State.abortAfterWake (s : State) : State :=
  if s.pstate = 3 ∧ s.pwr.abortAfterWake ≠ 0 then (s.modPwr (fun p => { p with abortAfterWake := 0 })).abortBegin s.pwr.abortAfterWake else s

end Sys2Proof.Machine
end

