-- ==== Sys2Proof/Machine/Dict.lean ====
section
/-! DEFINITION. The object dictionary: reads and writes of every object (R7, R9, R13, R412 to R417, R427), with the rules that
the chapters give for each object's writes. -/

namespace Sys2Proof.Machine

/-! ## Sources and levels (R417) -/

/-- Who asks: a ring address, the mailbox of a host port, or a write at operator level whose path is left open (the rows that
name a write). -/
inductive Src where
  | ring (a : Nat) | mail (hp : Nat) | oper
  deriving DecidableEq, Repr

/-- The access level of a source: 0 public, 1 operator, 2 vendor. -/
def State.level (s : State) : Src → Nat
  | .ring a => if s.o 0x1220 3 = a ∧ a < 64 then 2 else if a < 64 then s.o 0x1200 (1 + a) else 0
  | .mail h => s.o 0x1210 (1 + h)
  | .oper => 1

/-- WHAT of ACCESS_DENIED. -/
def Src.what : Src → Nat | .ring a => a | .mail h => 0x100 + h | .oper => noWhat

/-- A denied access: the first of a source since the cause bit was clear raises ACCESS_DENIED (R417). -/
def State.deny (s : State) (src : Src) : State :=
  let old := if bit (s.o 0x5800 1) 1 then s.ring.denied else []
  if old.contains src.what then s else (s.modRing (fun r => { r with denied := src.what :: old })).raise 0x5800 1 src.what

/-! ## Reads -/

/-- A value that counts cycles or events of a clock the model leaves out: a free value (log 2). -/
def State.freeObj (s : State) (size : Nat) : Nat × State := let d := s.draw; (d.1.toNat % 256 ^ size, d.2)

/-- Objects that count cycles or microseconds, and link retries: 0 until they may first have counted (State.began). -/
def timeObj (idx sub : Nat) : Bool :=
  (idx == 0x4000 && sub == 9) || (idx == 0x4300 && sub == 0x0D) || (idx == 0x4310 && (sub == 6 || sub == 7)) ||
  (idx == 0x4320 && decide (0x0B ≤ sub) && decide (sub ≤ 0x0D)) || (decide (0x4240 ≤ idx) && decide (idx < 0x42B0) && sub == 6) ||
  (decide (0x42C0 ≤ idx) && decide (idx < 0x42F0) && (sub == 4 || sub == 8)) || (idx == 0x7020 && sub == 0x0C) || (idx == 0xF000 && sub == 4) ||
  (decide (0x4400 ≤ idx) && decide (idx < 0x4430) && sub == 2)

/-- Pages in use over all streams (R265). -/
def State.pagesUsed (s : State) : Nat := s.strm.foldl (fun a e => a + s.pagesOf (e.1 / 8) (e.1 % 8)) 0
/-- Records that wait for grain order (R264, R265). -/
def State.grainHeld (s : State) : Nat :=
  s.strm.foldl (fun a e => e.2.hem.foldl (fun a i => if s.heldForGrain (e.1 / 8) (e.1 % 8) i then a + i.recs.length else a) a) 0

/-- IDX_STATUS of the handle a context names (R96). -/
def State.idxStatus (s : State) (c : Nat) : Nat :=
  let h := s.co c 9
  (s.hndOf h).state % 4 + (s.hndOf h).owner % 64 * 4 + min 0xFFFFFF (s.inflight h) * 256

/-- Context-table objects that report (R62, R67, R96, R201, R246, R287). -/
def State.ctxRead (s : State) (c o sub : Nat) : Nat :=
  match o with
  | 4 => s.usagePark c
  | 5 => s.usageExt c
  | 6 => s.ctxStatus c
  | 7 => b2n (s.cancelling c)
  | 0x0C => s.idxStatus c
  | 0x0F => (s.ctxOf c).spill.length
  | 0x10 => s.pltStatus c
  | 0x16 => (s.st c (sub - 1)).prod.toNat + (s.st c (sub - 1)).fills.toNat * 2 ^ 32
  | 0x17 =>
    (match sub with
     | 0x0B => s.matchUse c
     | 0x0C => s.orphanUse c
     | 0x0D => s.thrUse c
     | 0x0E => s.readyUse c
     | 0x10 => b2n (s.ctxOf c).postStop + 2 * b2n (s.ctxOf c).readyStop + 4 * b2n (s.ctxOf c).replyFull
     | _ => s.co c o sub)
  | _ => if 0x18 ≤ o ∧ (o - 0x18) % 5 = 4 then (s.st c ((o - 0x18) / 5)).head.toNat else s.co c o sub

/-- The Pleater, Hem, Bodkin and Lining telemetry that reports (R205, R265, R290, R331). -/
def State.unitRead (s : State) (idx sub : Nat) : Nat :=
  match idx, sub with
  | 0x4300, 0x0F => s.chunksUsed
  | 0x4300, 0x10 => s.openBins
  | 0x4300, 0x11 => s.scheme + 8 * b2n (s.o 0x2400 1 == 0 && s.tile.trial.isSome)
  | 0x4300, 0x12 => min 65535 s.tile.hBest
  | 0x4310, 0x0A => s.pagesUsed
  | 0x4310, 0x0B => s.grainHeld
  | 0x4320, 0x0F => s.matchEntries
  | 0x4320, 0x10 => (s.thr.filter (fun e => e.2.st != .free)).length
  | 0x4330, 5 => s.lc.foldl (fun a e => a + (e.2.ways.filter (fun w => w.dirty)).length) 0
  | 0x4330, 0x0D => s.hnd.foldl (fun a e => a + e.2.units) 0
  | 0x4440, 8 => (s.mig.filter (fun e => e.2.used)).length
  | 0x4440, 9 => s.poolUse (fun _ => true)
  | _, _ => s.o idx sub

/-- Tile state, ring status and causes that report (R330, R351, R394, R396, R420, R425, R429, R430, R462). -/
def State.tileRead (s : State) (idx sub : Nat) : Nat :=
  if idx = 0x1100 ∧ sub = 2 then
    (if s.ring.bypassOpen then (if s.addr = 0xFE then 2 else 3) else b2n (s.pwr.pwrok && s.pwr.rstN))
  else if idx = 0x1120 ∧ sub = 4 then s.ring.events.length
  else if idx = 0x1220 ∧ sub = 1 then s.challenge.toNat
  else if idx = 0x2300 ∧ sub = 9 then s.pinFree
  else if idx = 0x4000 ∧ 2 ≤ sub ∧ sub ≤ 4 then
    (let still := s.pstate == 2 || s.pwr.thermalStop
     if s.pstate < 2 then 0
     else s.bobMask (fun k => if sub = 2 then k == 0 && !still else if sub = 3 then k == 1 || k == 4 || (k == 0 && still) else k == 2 || k == 3))
  else if 0x4340 ≤ idx ∧ idx < 0x4370 ∧ sub = 7 then
    s.nc.foldl (fun a e => if e.1 / 1024 = idx - 0x4340 then a + (e.2.ways.filter (fun w => w.locked && w.valid != 0)).length else a) 0
  else if 0x4400 ≤ idx ∧ idx < 0x4430 ∧ sub = 3 then (s.portOf (idx - 0x4400)).rds.length
  else if 0x4400 ≤ idx ∧ idx < 0x4430 ∧ sub = 4 then (s.portOf (idx - 0x4400)).wrs.length
  else if 0x4800 ≤ idx ∧ idx < 0x4820 then s.residObj ((idx - 0x4800) * 128 + (sub - 1))
  else if idx = 0x5000 ∧ sub = 1 then s.irqSum
  else if idx = 0x5000 ∧ sub = 3 then b2n s.irqLow
  else if 0x5001 ≤ idx ∧ idx < 0x500A then s.groupReg (idx - 0x5001)
  else if 0x5100 ≤ idx ∧ idx < 0x5A00 ∧ sub = 3 then s.pend idx
  else if idx = 0x7010 ∧ sub = 4 then s.tile.waysOff.length
  else if idx = 0x7010 ∧ sub = 5 then (s.rs.filter (fun e => e.2.retired)).length
  else if idx = 0x7030 ∧ sub = 2 then s.tile.retired.length
  else s.unitRead idx sub

/-- The bytes of a DOMAIN that can be read (R364, R394, R396, R457). -/
def State.domainRead (s : State) (idx sub : Nat) : Nat :=
  if idx = 0x6030 then (List.range 256).foldl (fun a g => a + sealSeg (s.seg g) * 256 ^ (256 * g)) 0
  else if idx = 0x7030 then
    let l := insSort (fun a b => decide (a < b)) s.tile.retired
    (List.range l.length).foldl (fun a i => a + l.getD i 0 % 2 ^ 32 * 2 ^ (32 * i)) 0
  else s.o idx sub

/-- The value of an object as a read gives it. -/
def State.dictRead (s : State) (row : ObjRow) (idx sub : Nat) : Nat × State :=
  if row.acc = .wo then (0, s)
  else if timeObj idx sub then (if s.o idx sub = 0 then (0, s) else s.freeObj row.ty.size)
  else match row.ty with
    | .domain _ => (s.domainRead idx sub, s)
    | _ =>
      if 0x3000 ≤ idx ∧ idx < 0x4000 then (s.ctxRead ((idx - 0x3000) / 64) ((idx - 0x3000) % 64) sub, s)
      else if 0x2C00 ≤ idx ∧ idx < 0x3000 ∧ sub = 3 then ((s.epOf (idx - 0x2C00)).disp.toNat + (s.epOf (idx - 0x2C00)).cons.toNat * 2 ^ 32, s)
      else (s.tileRead idx sub, s)

/-! ## Writes -/

/-- Clears the CAUSE bits of a mask with their records (R7, R432); SPILL_FULL stays while a window is full. -/
def State.causeClear (s : State) (leaf mask : Nat) : State :=
  let full := leaf == 0x5400 && (List.range 64).any (fun c => s.spillCap c != 0 && decide (s.spillCap c ≤ (s.ctxOf c).spill.length))
  let s1 := (List.range 32).foldl (fun (s : State) n =>
    if bit mask n && bit (s.o leaf 1) n && !(full && n == 1) then (s.oSet leaf 1 (s.o leaf 1 - 2 ^ n)).oSet leaf (0x10 + n) 0 else s) s
  if leaf = 0x5800 ∧ bit mask 1 then s1.modRing (fun r => { r with denied := [] }) else s1

/-- EVT_ACK: events up to the named ESEQ are acknowledged, if it is held (R420). -/
def State.evtAck (s : State) (eseq : Nat) : State :=
  match firstIdx s.ring.events.length (fun i => (s.ring.events.getD i default).1.toNat == eseq) with
  | some i => (s.oSet 0x1120 2 eseq).modRing (fun r => { r with events := r.events.drop (i + 1) })
  | none => s

/-- A window register of a context (R295). -/
def State.winWrite (s : State) (c sub v : Nat) : Nat × State :=
  let w := (sub - 1) / 3
  let span := fun i => s.win c w i + 4096 * fld v 32 32
  if (sub - 1) % 3 = 2 then
    if bit v 0 && (fld v 32 32 == 0 || decide (24 ≤ fld v 8 5) || (bit v 4 && decide (16 ≤ fld v 8 5)) || decide (2 ^ 64 < span 0) || decide (2 ^ 64 < span 1))
    then (0x83, s) else (0, s.oSet (0x2600 + c) sub v)
  else if bit (s.win c w 2) 0 then (0x83, s)
  else (0, s.oSet (0x2600 + c) sub v)

/-- A context-table object (R45, R62 to R67, R96, R201, R246, R287). -/
def State.ctxWrite (s : State) (c o sub v : Nat) : Nat × State :=
  if o = 0 then s.contextEnable c v
  else if o ≤ 3 then s.quotaWrite c o v
  else if o = 7 then (if s.cancelling c then (0x83, s) else (0, s.cancel c v))
  else if o = 8 then s.idxCmd c v
  else if o = 0x0D then (if (s.ctxOf c).spill.isEmpty then (0, s.coSet c o v) else (0x83, s))
  else if o = 0x0E then
    (if (s.ctxOf c).spill.isEmpty ∧ v % 2048 = 0 then
      (0, (s.coSet c o v).modCtx c (fun x => { x with spillFailed := false, spillTail := 0 }))
     else (0x83, s))
  else if 0x11 ≤ o ∧ o ≤ 0x15 then s.dlvWrite c o (sub - 1) v
  else if o = 0x17 then (if sub = 1 then s.bdkCtrl c v else s.bdkObject c sub v)
  else if 0x18 ≤ o then
    (let st := (o - 0x18) / 5
     if (o - 0x18) % 5 = 0 ∧ s.ringEn c st then (0x83, s)
     else if (o - 0x18) % 5 = 1 then s.streamEnable c st v
     else (0, s.coSet c o v))
  else (0, s.coSet c o v sub)

/-- FW_CMD STAGE (R426). -/
def State.stage (s : State) (code : Nat) : Nat × State :=
  match (if code = 1 then s.ring.fwLen else none) with
  | none => (0, s.oSet 0xF020 2 0x84)
  | some n =>
    let r := Config.imageVerdict s.ring.fwBytes n
    if r.1 = 0 then (0, (s.oSet 0xF020 2 0).oSet 0xF020 3 r.2.toNat)
    else (0, s.oSet 0xF020 2 r.1)

/-- Whether a value lies in the range that its object's table states; one outside is refused (R393, R413; log 40). -/
def State.inRange (s : State) (idx sub v : Nat) : Bool :=
  let rng := fun lo hi => decide (lo ≤ v) && decide (v ≤ hi)
  match idx, sub with
  | 0x1110, 1 => decide (v < 64) || v == 0xFF
  | 0x1110, 3 => decide (v < 64) || v == 0xFF
  | 0x1110, 5 => rng 10 10000
  | 0x1110, 6 => rng 100 65535
  | 0x1110, 7 => decide (v ≤ 15)
  | 0x1120, 1 => decide (v < 64) || v == 0xFF
  | 0x1120, 6 => rng 1 10000
  | 0x2110, 2 => rng 1 48
  | 0x2110, 3 => decide (16 ≤ v)
  | 0x2110, 4 => decide (10 ≤ v)
  | 0x2110, 5 => decide (v < s.o 0x2110 6)
  | 0x2110, 6 => decide (s.o 0x2110 5 < v)
  | 0x2120, 1 => decide (v ≤ 4)
  | 0x2120, 2 => rng 500 800 && v % 25 == 0
  | 0x2130, 1 => rng 70 100
  | 0x2320, 1 => v == 0 || decide (64 ≤ v)
  | 0x2320, 2 => rng 1 15
  | 0x2320, 3 => decide (v ≤ 8)
  | 0x2400, _ => s.pltOk sub v
  | 0x2420, 1 => decide (256 ≤ v)
  | 0x2500, 1 => decide (v < 64)
  | 0x2700, 1 => s.mig.all (fun e => !e.2.used)
  | 0x2700, 3 => rng 1024 65536
  | 0x2700, 4 => rng 10 1000000
  | 0x2700, 5 => decide (v ≤ 15)
  | 0x2700, 6 => decide (1 ≤ v)
  | 0x7000, 1 => rng 1 15
  | 0x7000, 2 => rng 1 1000
  | 0x7000, 3 => rng 4 65535
  | 0x7000, 4 => rng 1 65535
  | 0x7000, 5 => rng 1024 16777216
  | 0xF002, 1 => decide (v < 64)
  | _, _ =>
    if idx = 0x2710 ∨ idx = 0x2711 then decide (fld v 0 5 < 24) && decide (fld v 8 5 < 24)
    else if 0x2800 ≤ idx ∧ idx < 0x2818 ∧ sub = 2 then rng 16 65535
    else true

/-- A write of ACCESS_MAP: one ring address stays at operator level, and a mailbox cannot write (R417). -/
def State.mapWrite (s : State) (src : Src) (idx sub v : Nat) : Nat × State :=
  let mailbox := match src with | .mail _ => true | _ => false
  if mailbox then (0, s)
  else if 1 < v then (0x83, s)
  else if idx = 0x1200 ∧ v = 0 ∧ (List.range 64).all (fun a => a + 1 == sub || s.o 0x1200 (1 + a) == 0) then (0x83, s)
  else (0, s.oSet idx sub v)

/-- Command objects outside the context table (R7, R425, R426, R444, R471, R472). -/
def State.cmdWrite (s : State) (idx sub v : Nat) : Nat × State :=
  match idx, sub with
  | 0x1130, _ => if v = 1 then (0, s.modRing (fun r => { r with after := 1 })) else (0x83, s)
  | 0x2100, _ => s.powerCmd v
  | 0x2300, _ => s.partCmd v
  | 0x2500, _ => s.imgLoad v
  | 0x7010, _ => s.readmitCmd v
  | 0xF000, _ => State.startCmd { s with free := s.free + 1 } v (Config.startEnv s.free)
  | 0xF001, _ => if v = 1 then (0, (s.oSet 0xF001 0 0).modRing (fun r => { r with after := 2 })) else (0, s.oSet 0xF001 0 0x84)
  | 0xF002, _ => s.abortCmd v
  | 0xF010, _ => s.mtCmd v
  | _, _ => s.stage v

/-- A write of an object's value, masked to its writable bits: the STAT and the state (R7, R9, R413). -/
def State.objWrite (s : State) (src : Src) (row : ObjRow) (idx sub v : Nat) : Nat × State :=
  if row.acc = .ro then (0, s)
  else if 0x3000 ≤ idx ∧ idx < 0x4000 then s.ctxWrite ((idx - 0x3000) / 64) ((idx - 0x3000) % 64) sub v
  else if row.acc = .cmd then s.cmdWrite idx sub v
  else if 0x5100 ≤ idx ∧ idx < 0x5A00 ∧ sub = 1 then (0, s.causeClear idx v)
  else if 0x2600 ≤ idx ∧ idx < 0x2640 then s.winWrite (idx - 0x2600) sub v
  else if 0x2C00 ≤ idx ∧ idx < 0x3000 then
    (if sub = 1 then s.endpointCtrl (idx - 0x2C00) v else if s.epOn (idx - 0x2C00) then (0x83, s) else (0, s.oSet idx sub v))
  else if idx = 0x1200 ∨ idx = 0x1210 then s.mapWrite src idx sub v
  else if idx = 0x2310 then s.cacheCtl v
  else if idx = 0x2410 then s.rbWrite sub v
  else if !s.inRange idx sub v then (0x83, s)
  else if idx = 0x1120 ∧ sub = 2 then
    (0, match src with | .ring a => if a = s.o 0x1120 1 then s.evtAck v else s.oSet idx sub v | _ => s.oSet idx sub v)
  else if idx = 0x2120 ∧ sub = 1 then (0, (s.oSet idx sub v).reguard.replan)
  else if idx = 0x2120 ∧ sub = 3 then (0, (s.oSet idx sub v).setMstatus.replan)
  else if idx = 0x2320 ∧ sub = 3 then (0, s.lockWays v)
  else (0, s.oSet idx sub v)

/-! ## DOMAIN writes (R413) -/

/-- A complete DOMAIN value is committed (R366, R418, R426). -/
def State.domainCommit (s : State) (src : Src) (idx v len : Nat) : Nat × State :=
  if idx = 0x1220 then
    (if len = 104 ∧ Config.unlockVerifies (putBytes v 1 7 0) s.challenge ∧ v % 256 < 64 then (0, (s.oSet 0x1220 3 (v % 256)).newChallenge)
     else (0x83, (s.raise 0x5800 2 src.what).newChallenge))
  else if idx = 0x2700 then (if len = 32 then (0, s.oSet 0x2700 7 v) else (0x82, s))
  else (0, s.modRing (fun r => { r with fwBytes := v, fwLen := some len }))

/-- A segment of a DOMAIN write (R413). One to UNLOCK that is refused is a write too, after which CHALLENGE changes (R418). -/
def State.domainSeg (s : State) (src : Src) (idx sub size off len v : Nat) (last : Bool) : Nat × State :=
  let key := okey idx sub
  let again := fun (s : State) => if idx = 0x1220 then s.newChallenge else s
  let drop := fun (s : State) => s.modRing (fun r => { r with domW := r.domW.filter (fun d => d.key != key) })
  let put := fun (old next : Nat) =>
    let all := old % 256 ^ off + v % 256 ^ len * 256 ^ off
    if last then (drop s).domainCommit src idx all next
    else (0, (drop s).modRing (fun r => { r with domW := { key := key, src := src.what, next := next, bytes := all } :: r.domW }))
  match s.ring.domW.find? (fun d => d.key == key) with
  | some d =>
    if d.src ≠ src.what then (0x84, s)
    else if off ≠ d.next ∨ size < off + len then (0x82, again (drop s))
    else put d.bytes (off + len)
  | none => if off ≠ 0 ∨ size < len then (0x82, again s) else put 0 len

/-- DOMAIN_WRITE_TIMEOUT: 10 ms without a segment (R413). -/
def State.domainTimeout (s : State) (idx sub : Nat) : State :=
  s.modRing (fun r => { r with domW := r.domW.filter (fun d => d.key != okey idx sub) })

/-! ## Requests (R412 to R417) -/

/-- What every access checks first (R414, R416, R417): the STAT, 0 to go on. The test objects, of vendor level, are not described: at that level
they are answered as absent (R427; log 118). -/
def State.access (s : State) (src : Src) (idx sub : Nat) : Nat × State :=
  let ring := match src with | .ring _ => true | _ => false
  if sub = 0 ∧ 0 < objTop idx then (if ring && !alwaysOn idx && decide (s.pstate < 3) then (0x86, s) else (0, s))
  else match objRow? idx sub with
    | none => if 0x8000 ≤ idx ∧ idx < 0x9000 ∧ s.level src < 2 then (0x80, s.deny src) else (0x81, s)
    | some row =>
      if s.level src < row.lvl then (0x80, s.deny src)
      else if ring && !alwaysOn idx && decide (s.pstate < 3) then (0x86, s)
      else (0, s)

/-- A READ: STAT, the bytes and the state. -/
def State.readReq (s : State) (src : Src) (idx sub off len : Nat) : Nat × List Byte × State :=
  let a := s.access src idx sub
  if a.1 ≠ 0 then (a.1, [], a.2)
  else if sub = 0 ∧ 0 < objTop idx then (if off ≠ 0 ∨ 1 < len then (0x82, [], s) else (0, toBytes 1 (objTop idx), s))
  else match objRow? idx sub with
    | none => (0x81, [], s)
    | some row => match row.ty with
      | .domain size =>
        if size < off then (0x82, [], s)
        else
          let n := min (if len = 0 then 256 else len) (size - off)
          let r := s.dictRead row idx sub
          (0, toBytes n (r.1 / 256 ^ off), r.2)
      | _ =>
        let size := if row.ty = .str then 13 else row.ty.size
        if off ≠ 0 ∨ (len ≠ 0 ∧ len ≠ size) then (0x82, [], s)
        else
          let r := s.dictRead row idx sub
          (0, toBytes size r.1, r.2)

/-- A WRITE: STAT and the state. -/
def State.writeReq (s : State) (src : Src) (idx sub off len v : Nat) (last : Bool) : Nat × State :=
  let a := s.access src idx sub
  if a.1 ≠ 0 then a
  else match objRow? idx sub with
    | none => if off = 0 ∧ len = 1 then (0, s) else (0x82, s)
    | some row => match row.ty with
      | .domain size => if row.acc = .ro then (0, s) else s.domainSeg src idx sub size off len v last
      | .str => if off = 0 ∧ 1 ≤ len ∧ len ≤ 64 then (0, s) else (0x82, s)
      | _ => if off ≠ 0 ∨ len ≠ row.ty.size then (0x82, s) else s.objWrite src row idx sub (v % 256 ^ len &&& row.wmask)

/-- What follows the answer to a request: RING_RST and RESET_CMD (R425, R466). -/
def State.afterReq (s : State) : State :=
  let s1 := s.modRing (fun r => { r with after := 0 })
  match s.ring.after with
  | 1 => s1.ringReset
  | 2 => s1.resetPulse
  | _ => s

/-- A write at operator level of an object that a row of its own names, or of any object (R7). It is made only while its
domain answers. -/
def State.operWrite (s : State) (idx sub len v : Nat) : State :=
  if s.pstate = 0 ∨ (!alwaysOn idx ∧ s.pstate < 3) then s else (s.writeReq .oper idx sub 0 len v true).2.afterReq

end Sys2Proof.Machine
end

