-- ==== Sys2Proof/Machine/Ring.lean ====
section
/-! DEFINITION. The ring interface (R402 to R421), the dictionary mailboxes (R348, R416) and the host register window (R345 to
R347). -/

namespace Sys2Proof.Machine

/-! ## Frames (R405 to R408) -/

/-- Why a frame is discarded, as far as its bytes tell (R408). -/
def rxFault (f : RingFrame) : Option RxFault :=
  let t := f.ftype.toNat
  let res := f.res != 0 || f.fflags.toNat / 2 != 0 || (t != 4 && f.stat != 0) || ((t == 5 || t == 1) && f.sub != 0) || (t == 1 && f.index != 0)
  if f.crc.toNat ≠ crc16 (frameBytes f) then some .crc
  else if 256 < f.len.toNat then some .tooLong
  else if t = 0 ∨ 6 < t then some .reservedType
  else if res then some .res0
  else none

/-- A received frame is discarded and counted (R408). -/
def State.frameDiscard (s : State) (why : RxFault) : State :=
  if !(s.ring.bypassOpen && s.pwr.vddW) then s
  else match why with
    | .crc => s.oInc 0x1100 6
    | _ => s.oInc 0x1100 7

/-- A frame that reaches the ring interface: `own` is what the tile does with one that is for it, none where the frame is relayed as it
came (R400, R408, R410). -/
def State.frameIn (s : State) (f : RingFrame) (own : Option (State → State)) : State :=
  if !(s.ring.bypassOpen && s.pwr.vddW) then s
  else match rxFault f with
  | some w => s.frameDiscard w
  | none =>
    let bcast := f.dst.toNat == 0xFF
    if s.addr ≠ 0xFE ∧ f.src.toNat = s.addr then s
    else if bcast || (s.addr != 0xFE && f.dst.toNat == s.addr) then
      let s1 := s.oInc 0x1100 4
      (match own with
       | some k => k s1
       | none => if bcast then s1.relayRing f else s1)
    else s.relayRing f

/-- ENUM (R409, R410): the tile takes NEXT as its address and passes NEXT + 1 on; above 63 it stays unaddressed. Held events and the
peer requests go out from the new address (R404, R420, R428). -/
def State.enum (s : State) (f : RingFrame) : State :=
  let next := (f.data.headD 0).toNat
  let s1 := ((s.oSet 0x1100 3 0).oSet 0x1220 3 0xFF).modRing (fun r => { r with dup := [] })
  if 63 < next then (s1.oSet 0x1100 1 0xFE).relayRing f
  else
    let g := sealFrame { f with data := [BitVec.ofNat 8 (next + 1)] }
    ((s1.oSet 0x1100 1 next).relayRing g).sendHeld.resendPeers

/-- MEMBERS: the master's broadcast sets the member count, without a RESP, and is relayed (R409). -/
def State.members (s : State) (f : RingFrame) : State :=
  if s.addr ≠ 0xFE ∧ f.src = 0 ∧ f.len = 1 then (s.oSet 0x1100 3 (f.data.headD 0).toNat).relayRing f else s.relayRing f

/-! ## Requests over the ring (R413 to R415) -/

/-- A RESP to a request. -/
def respTo (s : State) (f : RingFrame) (stat : Nat) (data : List Byte) : RingFrame :=
  sealFrame { f with dst := f.src, src := BitVec.ofNat 8 s.addr, ftype := 4, stat := BitVec.ofNat 8 stat,
                     len := BitVec.ofNat 16 data.length, fflags := 0, res := 0, data := data, crc := 0 }

/-- Serves a ring request: it is answered, and the answer is kept for its source (R415). -/
def State.serveRing (s : State) (f : RingFrame) : State :=
  let src := Src.ring f.src.toNat
  let idx := f.index.toNat
  let r := if f.ftype = 2 then s.readReq src idx f.sub.toNat f.offset.toNat f.len.toNat
    else
      let w := s.writeReq src idx f.sub.toNat f.offset.toNat f.len.toNat (ofBytes f.data) (bit f.fflags.toNat 0)
      (w.1, [], w.2)
  let g := respTo s f r.1 r.2.1
  let s1 := r.2.2.sendRing g
  (s1.modRing (fun x => { x with dup := (f.src.toNat, f.tid.toNat, g) :: x.dup.filter (fun d => d.1 != f.src.toNat) })).afterReq

/-! ## Mailboxes (R348, R416) -/

/-- Serves the operation of HP.hp's mailbox. -/
def State.serveMail (s : State) (hp : Nat) : State :=
  let p := s.portOf (16 + hp)
  match p.mbOp with
  | none => s
  | some op =>
    let idx := op.index.toNat
    let sub := op.sub.toNat
    let long := match objRow? idx sub with | some r => (match r.ty with | .domain n => decide (64 < n) | _ => false) | none => false
    let a := s.access (.mail hp) idx sub
    let fin := fun (s : State) (stat n : Nat) (data : Option (List Byte)) =>
      (s.modPort (16 + hp) (fun p => { p with
        mbOp := none, mbStatus := BitVec.ofNat 32 (stat + n * 2 ^ 16),
        mbData := match data with | some d => BitVec.ofNat 512 (ofBytes d) | none => p.mbData })).afterReq
    if a.1 ≠ 0 then fin a.2 a.1 0 none
    else if long then fin s 0x82 0 none
    else if op.write then
      let n := p.mbLen.toNat
      let w := s.writeReq (.mail hp) idx sub 0 n p.mbData.toNat true
      fin w.2 w.1 (if w.1 = 0 then n else 0) none
    else
      let r := s.readReq (.mail hp) idx sub 0 0
      if r.1 = 0 then fin r.2.2 0 r.2.1.length (some r.2.1) else fin r.2.2 r.1 0 none

/-- Whether a request of the queue can be served now: a main-domain mailbox operation waits for RUN (R416). -/
def State.canServe (s : State) : TReq → Bool
  | .ring _ => true
  | .mailbox hp => match (s.portOf (16 + hp)).mbOp with
    | some op => alwaysOn op.index.toNat || s.run
    | none => true

/-- The Tailor serves its queue in order of arrival (R415). -/
def State.serveQueue : (fuel : Nat) → State → State
  | 0, s => s
  | n + 1, s =>
    match s.ring.queue with
    | [] => s
    | q :: rest =>
      if s.canServe q then
        let s1 := s.modRing (fun r => { r with queue := rest })
        State.serveQueue n (match q with | .ring f => s1.serveRing f | .mailbox hp => s1.serveMail hp)
      else s

/-- The whole queue of the Tailor. -/
def State.tailor (s : State) : State := State.serveQueue (s.ring.queue.length + 1) s

/-- A ring READ or WRITE for the tile: answered from the duplicate table, refused where the queue of 8 is full, or queued and served
(R415). -/
def State.ringRequest (s : State) (f : RingFrame) : State :=
  match s.ring.dup.find? (fun d => d.1 == f.src.toNat && d.2.1 == f.tid.toNat) with
  | some d => (s.oInc 0x1100 0xB).sendRing d.2.2
  | none =>
    if 8 ≤ s.ring.queue.length then (s.oInc 0x1100 8).sendRing (respTo s f 0x84 [])
    else (s.modRing (fun r => { r with queue := r.queue ++ [.ring f] })).tailor

/-- MB_CMD is written (R348): discarded while the mailbox is busy; a reserved OP ends with 0x84. -/
def State.mbCmd (s : State) (hp op : Nat) (index : BitVec 16) (sub : BitVec 8) : State :=
  let p := s.portOf (16 + hp)
  if p.mbOp.isSome then s
  else if op = 1 ∨ op = 2 then
    ((s.modPort (16 + hp) (fun p => { p with mbOp := some { write := op == 2, index := index, sub := sub }, mbStatus := 1 })).modRing
      (fun r => { r with queue := r.queue ++ [.mailbox hp] })).tailor
  else s.modPort (16 + hp) (fun p => { p with mbStatus := 0x84 })

/-! ## The register window (R345 to R347) -/

/-- The lowest selected byte of an HWR and the number of selected bytes, where they lie one after another. -/
def maskRun (m : Nat) : Option (Nat × Nat) :=
  match firstIdx 64 (fun i => bit m i) with
  | none => none
  | some lo =>
    let n := ((List.range 64).filter (fun i => bit m i)).length
    if m / 2 ^ lo + 1 = 2 ^ n then some (lo, n) else none

/-- The U32 register at a window offset: the write it makes; none where the window has none there. -/
def State.regWrite (s : State) (hp a : Nat) (v : Word) : Option State :=
  if a % 4 ≠ 0 then none
  else if a < 0x40000 then
    let c := a / 0x1000
    let o := a % 0x1000
    if o < 0x20 then some (s.bell c (o / 4) v)
    else if 0x40 ≤ o ∧ o < 0x60 then some (s.rconsWrite c ((o - 0x40) / 4) v)
    else if 0x80 ≤ o ∧ o < 0xA0 then some (s.scredWrite c ((o - 0x80) / 4) v)
    else if o = 0xC0 then some (s.bcredWrite c v)
    else none
  else if a < 0x41000 then some (s.dcredWrite ((a - 0x40000) / 4) v)
  else if a = 0x41000 then some (s.mbCmd hp (fld v.toNat 24 2) (BitVec.ofNat 16 v.toNat) (BitVec.ofNat 8 (v.toNat / 65536)))
  else if a = 0x41004 then some s
  else if a = 0x41008 then some (if (s.portOf (16 + hp)).mbOp.isSome then s else s.modPort (16 + hp) (fun p => { p with mbLen := v }))
  else none

/-- An HWR to any place of the window (R347): byte i of the data belongs to offset + i. None for one that writes nothing. -/
def State.windowWrite (s : State) (hp off data mask : Nat) : Option State :=
  let sel := (List.range 64).filter (fun i => bit mask i)
  if !sel.isEmpty ∧ sel.all (fun i => decide (0x41040 ≤ off + i) && decide (off + i < 0x41080)) then
    some (if (s.portOf (16 + hp)).mbOp.isSome then s
      else s.modPort (16 + hp) (fun p => { p with mbData := BitVec.ofNat 512 (sel.foldl (fun d i => putBytes d (off + i - 0x41040) 1 (bytesAt data i 1)) p.mbData.toNat) }))
  else match maskRun mask with
    | some (lo, 4) => s.regWrite hp (off + lo) (BitVec.ofNat 32 (bytesAt data lo 4))
    | some (lo, 32) =>
      if off + lo < 0x40000 ∧ (off + lo) % 0x1000 = 0x100 then
        let w := fun i => BitVec.ofNat 64 (bytesAt data (lo + 8 * i) 8)
        some (s.bdkPush ((off + lo) / 0x1000) { w0 := w 0, arg0 := w 1, arg1 := w 2, arg2 := w 3 })
      else none
    | _ => none

/-- What an HRD finds at a byte of the window (R345 to R347). -/
def State.windowByte (s : State) (hp a : Nat) : Nat :=
  let c := a / 0x1000
  let o := a % 0x1000
  let w := fun (v : Word) => bytesAt v.toNat (a % 4) 1
  let p := s.portOf (16 + hp)
  if a < 0x40000 then
    (if o < 0x20 then w (s.st c (o / 4)).tail
     else if 0x40 ≤ o ∧ o < 0x60 then w (s.st c ((o - 0x40) / 4)).rcons
     else if 0x80 ≤ o ∧ o < 0xA0 then w (s.st c ((o - 0x80) / 4)).scred
     else if 0xC0 ≤ o ∧ o < 0xC4 then w (s.ctxOf c).bcred
     else 0)
  else if a < 0x41000 then w (s.epOf ((a - 0x40000) / 4)).cons
  else if 0x41004 ≤ a ∧ a < 0x41008 then w p.mbStatus
  else if 0x41008 ≤ a ∧ a < 0x4100C then w p.mbLen
  else if 0x41040 ≤ a ∧ a < 0x41080 then bytesAt p.mbData.toNat (a - 0x41040) 1
  else 0

/-! ## Announcing and opening (R403, R410, R420) -/

/-- An ANNOUNCE frame. -/
def announceFrame (s : State) : RingFrame :=
  { dst := 0xFF, src := 0xFE, ftype := 6, tid := BitVec.truncate 8 (Config.freeValue s.free), index := 0, sub := 0, stat := 0, offset := 0,
    len := 0, fflags := 0, res := 0, data := [], crc := 0 }

/-- ANNOUNCE: an unaddressed tile in the ring announces itself (R410). -/
def State.announce (s : State) : State :=
  if s.ring.bypassOpen ∧ s.pwr.vddW ∧ s.addr = 0xFE then { s.sendRing (announceFrame s) with free := s.free + 1 } else s

/-- BYPASS_OPEN: the bypass opens; the tile is unaddressed and announces itself (R403, R410). -/
def State.bypassGo (s : State) : State :=
  if s.pwr.vddW ∧ s.pwr.pwrok ∧ s.pwr.rstN ∧ !s.ring.bypassOpen then
    ((s.modRing (fun r => { r with bypassOpen := true })).oSet 0x1100 1 0xFE).announce
  else s

/-- EVT_RESEND: every held event is sent again in ESEQ order (R420). -/
def State.evtResend (s : State) : State := if s.pwr.vddW then s.sendHeld else s

end Sys2Proof.Machine
end

