-- ==== Sys2Proof/Machine/Settle.lean ====
section
/-! DEFINITION. What follows a command at once: completed reads and writes are handed to the units that asked for them, the Hem goes
on, and the Tailor serves its queue. -/

namespace Sys2Proof.Machine

/-! ## Completed reads -/

/-- The copy of a handle is done: its command goes on; held queries of a REFIT_END are binned as source 1 (R98, R207). -/
def State.idxGo (s : State) (h : Nat) : State :=
  let r := s.idxProgress h
  r.2.foldl (fun (s : State) k => s.insert k 1) r.1

/-- A spilled entry is back; one whose query is to end completes it, or frees it after an abort (R200, R207, R478); one
whose parking slot was lost meanwhile suffers its loss (R377). -/
def State.reloadGo (s : State) (c k uid : Nat) (j : Job) : State :=
  match s.reloaded c k uid j with
  | (s1, some (k, st)) => if st = stUnrecovered then (s1.modQ k (fun q => { q with kill := none })).loss k else s1.endSlot k st
  | (s1, none) => s1

/-- A read has every piece in. -/
def State.jobDone (s : State) (j : Job) : State :=
  match j.purp with
  | .fetch c st ep bell first cnt => s.fetched c st ep bell first cnt j
  | .shot c st => s.shotRead c st j
  | .cont k uid => s.contBuilt k uid j
  | .idxImage c h => s.idxImage c h j
  | .rootRead h id => s.rootRead h id j
  | .pinCopy h o id => s.pinCopied h o id j
  | .bstHeader => s.imgHeader j
  | .bstImage _ => s.imgBody j
  | .slotHdr c st ep => s.slotHeader c st ep j
  | .spillRd c k uid => s.reloadGo c k uid j
  | .keyVec k uid => s.keyRead k uid j
  | .qVec k uid => (match s.vecIn k uid j with | (s1, true) => s1 | (s1, false) => s1.loss k)
  | .migVec k uid => s.migVecRead k uid j
  | .redesc k uid => s.redescRead k uid j
  | .reshot k uid d => s.reshotRead k uid d j
  | .lockWalk => s.lockRead j

/-! ## Completed writes -/

/-- A trace write has failed for good: R253 or R262 for its stream (R378; log 44). -/
def State.traceFault (s : State) (c st : Nat) : State :=
  if s.destSlot c st then (s.setResBit c st 16 true).raise (0x5900 + c) 6 st
  else if s.rfault c st then s
  else ((s.setResBit c st 17 true).oInc 0x4310 5).raise (0x5900 + c) 5 st

/-- A write has completed, or failed for good. Reports and replies that fail are dropped (R493), and no write follows for an aborted context
(R474). -/
def State.writeDone (s : State) (w : WPurp) (bad : Bool) : State :=
  match w with
  | .headWb _ _ | .resWb _ _ | .rseq _ => s
  | .reply c a n => if bad || (s.ctxOf c).aborting then s else s.bdkRseq c a n
  | .ringEnt c st ep p => s.ringWrote c st ep p bad
  | .slotRow c st ep n => s.rowWrote c st ep n bad
  | .slotFlag c st ep n => s.flagWrote c st ep n bad
  | .trace c st => if bad then s.traceFault c st else s
  | .dispatch e t d => if bad then s.dispatchFault e t d else s
  | .dseq e t d => if bad then s.dispatchFault e t d else s
  | .spillWr c _ _ => if bad then s.spillFault c else s
  | .lcBack p l _ => s.lcBacked p l bad

/-! ## All of it -/

/-- One completion is handed on. -/
def State.dueOne (s : State) (d : Due) : State :=
  match d with
  | .job j => s.jobDone j
  | .wrote _ w bad => s.writeDone w bad
  | .ncError b p l => s.ncFillFailed b p l
  | .lcError _ p l => s.lcFailed p l

/-- Every completion that waits, oldest first. -/
def State.dueAll : (fuel : Nat) → State → State
  | 0, s => s
  | n + 1, s =>
    match s.due with
    | [] => s
    | d :: r => State.dueAll n ({ s with due := r }.dueOne d)

/-- Queries that were lost with their spill window suffer their loss (R203, R377). -/
def State.lossAll (s : State) : State :=
  s.tile.lossWait.foldl (fun (s : State) k => if (s.q k).place = .spilled then s.loss k else s)
    (if s.tile.lossWait.isEmpty then s else s.modTile (fun t => { t with lossWait := [] }))

/-- Whether an index command can go on: its copy is done and its root is recorded (R98, R187). -/
def Handle.goes (x : Handle) : Bool := x.phase != 0 && !x.copying && (x.phase == 3 || x.rootJob.isNone)

/-- Every index command whose copy is done goes on (R98). -/
def State.idxAll (s : State) : State :=
  ((s.hnd.filter (fun e => e.2.goes)).map (fun e => e.1)).foldl (fun (s : State) h => s.idxGo h) s

/-- What follows a command: completions, accesses that waited for the Lining cache, index commands, losses, queries that waited for a bin, the Hem,
completions that these brought, and the Tailor. -/
def State.settle (s : State) : State :=
  let s1 := (State.dueAll 4096 s).lcRetry.idxAll.lossAll.keyRetry.hemStep
  let s2 := State.dueAll 4096 s1
  if s2.ring.queue.isEmpty then s2 else s2.tailor

/-! ## Commands held in SLEEP (R441) -/

/-- What an HWR or a seam frame does when it is applied. -/
def State.applyIn (s : State) (i : Instr) : State :=
  match i with
  | .doorbell _ c st v => s.bell c st v
  | .rcons _ c st v => s.rconsWrite c st v
  | .scred _ c st v => s.scredWrite c st v
  | .bcred _ c v => s.bcredWrite c v
  | .dcred _ e v => s.dcredWrite e v
  | .spawn _ c (some w) | .expect _ c (some w) | .ack _ c (some w) | .bdkCancel _ c (some w) | .post _ c (some w) | .discard _ c (some w)
  | .bdkReservedCode _ c (some w) => s.bdkPush c w
  | .mbRead hp x y => s.mbCmd hp 1 x y
  | .mbWrite hp x y => s.mbCmd hp 2 x y
  | .mbReservedOp hp x y op3 => s.mbCmd hp (if op3 then 3 else 0) x y
  | .objectWrite (.window hp off d m) =>
    (match s.windowWrite hp off d.toNat m.toNat with
     | some s1 => s1
     | none => s.raise (0x5300 + 16 + hp) 3 (off % 2 ^ 24))
  | .migrate sp f => s.seamIn sp f (fun s => s.migrateIn sp f)
  | .migvec sp f => s.seamIn sp f (fun s => s.migvecIn f)
  | .result sp f => s.seamIn sp f (fun s => s.resultIn sp f)
  | .recs sp f => s.seamIn sp f (fun s => s.recsIn sp f)
  | .maint sp f => s.seamIn sp f (fun s => s.maintIn f)
  | .maintAck sp f => s.seamIn sp f id
  | .credit sp f => s.seamIn sp f id
  | _ => s

/-- The host port of an HWR. -/
def hwrPort : Instr → Option Nat
  | .doorbell hp _ _ _ | .rcons hp _ _ _ | .scred hp _ _ _ | .bcred hp _ _ | .dcred hp _ _ | .spawn hp _ _ | .expect hp _ _ | .ack hp _ _
  | .bdkCancel hp _ _ | .post hp _ _ | .discard hp _ _ | .bdkReservedCode hp _ _ | .mbRead hp _ _ | .mbWrite hp _ _ | .mbReservedOp hp _ _ _
  | .objectWrite (.window hp _ _ _) => some hp
  | _ => none

/-- An HWR as it arrives (R347, R441). -/
def State.hwrIn (s : State) (i : Instr) : State :=
  match hwrPort i with
  | some hp => s.hwr hp i (fun s => s.applyIn i)
  | none => s

/-- WAKE_DONE: RUN, then what was held is applied in order of arrival, its credits returned, and a waiting abort begins (R343, R440, R441,
R472). -/
def State.wakeGo (s : State) : State :=
  if s.pstate = 2 ∧ s.pwr.waking then
    let s1 := { s with held := [] }.wakeDone
    (s.held.foldl (fun (s : State) i =>
      let s1 := match hwrPort i with
        | some hp => (s.oInc (0x4400 + 16 + hp) 8).modPort (16 + hp) (fun p => { p with hostHead := p.hostHead - 1, hostData := p.hostData - 1 })
        | none => s
      s1.applyIn i) s1).abortAfterWake
  else s

end Sys2Proof.Machine
end

