-- ==== Sys2Proof/Machine/Bst.lean ====
section
/-! DEFINITION. The Baste instructions as commands (R232): engine g of Bobbin b executes the instruction at its PC. Where the
instruction there is another one, or no invocation runs, nothing happens (log 1). -/

namespace Sys2Proof.Machine

/-- Engine g of Bobbin b executes, or meets an uncorrectable error: in a store of the engine, when the invocation runs again from its start, or in
the ray-store entry (R372). -/
def State.bstOne (s : State) (b g : Nat) (chk : Chk) (opcode : Nat) (op : Op) : State :=
  match (match s.bstWord b g with | some w => (if iOp w = opcode then (s.engOf b g).ent else none) | none => none), chk with
  | some e, .entry => s.entError b e
  | some _, .data | some _, .tag => s.bstAgain b g
  | _, _ => s.bstInstr b g chk opcode op

/-- As bstOne; what follows the end of an invocation is taken up at once. -/
def State.bstStep (s : State) (b g : Nat) (chk : Chk) (opcode : Nat) (op : Op) : State :=
  let s1 := s.bstOne b g chk opcode op
  if (s1.engOf b g).ent = (s.engOf b g).ent then s1 else s1.settle

/-- BUDGET (R240). -/
def execBudget (b e : Nat) (s : State) : Out := .next (s.bstBudget b e).settle

/-- ILLEGAL: a reserved opcode (R232, R238). -/
def execIllegal (b e : Nat) (s : State) : Out := .next (s.bstIllegal b e).settle

/-- NOP (R232). -/
def execBstNop (b e : Nat) (chk : Chk) (s : State) : Out := .next (s.bstStep b e chk 0x01 opNop)

/-- LOAD (R232): A := op. Flags: N Z. -/
def execBstLoad (b e : Nat) (chk : Chk) (s : State) : Out := .next (s.bstStep b e chk 0x02 opLoad)

/-- STORE (R232): mem := A. -/
def execBstStore (b e : Nat) (chk : Chk) (s : State) : Out := .next (s.bstStep b e chk 0x03 opStore)

/-- LOADHI (R232): A := IMM << 16. Flags: N Z. -/
def execBstLoadhi (b e : Nat) (chk : Chk) (s : State) : Out := .next (s.bstStep b e chk 0x04 opLoadhi)

/-- LOADX (R232): X := op. -/
def execBstLoadx (b e : Nat) (chk : Chk) (s : State) : Out := .next (s.bstStep b e chk 0x05 opLoadx)

/-- STOREX (R232): mem := X. -/
def execBstStorex (b e : Nat) (chk : Chk) (s : State) : Out := .next (s.bstStep b e chk 0x06 opStorex)

/-- LOADY (R232): Y := op. -/
def execBstLoady (b e : Nat) (chk : Chk) (s : State) : Out := .next (s.bstStep b e chk 0x07 opLoady)

/-- STOREY (R232): mem := Y. -/
def execBstStorey (b e : Nat) (chk : Chk) (s : State) : Out := .next (s.bstStep b e chk 0x08 opStorey)

/-- LOADCT (R232): CT := op. -/
def execBstLoadct (b e : Nat) (chk : Chk) (s : State) : Out := .next (s.bstStep b e chk 0x09 opLoadct)

/-- STORECT (R232): mem := CT. -/
def execBstStorect (b e : Nat) (chk : Chk) (s : State) : Out := .next (s.bstStep b e chk 0x0A opStorect)

/-- MOVAX (R232): X := A[15:0]. -/
def execBstMovax (b e : Nat) (chk : Chk) (s : State) : Out := .next (s.bstStep b e chk 0x0B opMovax)

/-- MOVXA (R232): A := X, zero-extended. Flags: N Z. -/
def execBstMovxa (b e : Nat) (chk : Chk) (s : State) : Out := .next (s.bstStep b e chk 0x0C opMovxa)

/-- MOVAY (R232): Y := A[15:0]. -/
def execBstMovay (b e : Nat) (chk : Chk) (s : State) : Out := .next (s.bstStep b e chk 0x0D opMovay)

/-- MOVYA (R232): A := Y, zero-extended. Flags: N Z. -/
def execBstMovya (b e : Nat) (chk : Chk) (s : State) : Out := .next (s.bstStep b e chk 0x0E opMovya)

/-- MOVACT (R232): CT := A[15:0]. -/
def execBstMovact (b e : Nat) (chk : Chk) (s : State) : Out := .next (s.bstStep b e chk 0x0F opMovact)

/-- MOVCTA (R232): A := CT, zero-extended. Flags: N Z. -/
def execBstMovcta (b e : Nat) (chk : Chk) (s : State) : Out := .next (s.bstStep b e chk 0x10 opMovcta)

/-- ADDX (R232): X := X + op. -/
def execBstAddx (b e : Nat) (chk : Chk) (s : State) : Out := .next (s.bstStep b e chk 0x11 opAddx)

/-- ADDY (R232): Y := Y + op. -/
def execBstAddy (b e : Nat) (chk : Chk) (s : State) : Out := .next (s.bstStep b e chk 0x12 opAddy)

/-- ADDCT (R232): CT := CT + op. -/
def execBstAddct (b e : Nat) (chk : Chk) (s : State) : Out := .next (s.bstStep b e chk 0x13 opAddct)

/-- ADD (R232): A := A + op. Flags: N Z C V. -/
def execBstAdd (b e : Nat) (chk : Chk) (s : State) : Out := .next (s.bstStep b e chk 0x20 opAdd)

/-- ADDCY (R232): A := A + op + C. Flags: N Z C V. -/
def execBstAddcy (b e : Nat) (chk : Chk) (s : State) : Out := .next (s.bstStep b e chk 0x21 opAddcy)

/-- SUB (R232): A := A - op; C = no borrow. Flags: N Z C V. -/
def execBstSub (b e : Nat) (chk : Chk) (s : State) : Out := .next (s.bstStep b e chk 0x22 opSub)

/-- SUBCY (R232): A := A - op - (1 - C). Flags: N Z C V. -/
def execBstSubcy (b e : Nat) (chk : Chk) (s : State) : Out := .next (s.bstStep b e chk 0x23 opSubcy)

/-- CMP (R232): Flags of A - op; A unchanged. Flags: N Z C V. -/
def execBstCmp (b e : Nat) (chk : Chk) (s : State) : Out := .next (s.bstStep b e chk 0x24 opCmp)

/-- AND (R232): A := A AND op. Flags: N Z. -/
def execBstAnd (b e : Nat) (chk : Chk) (s : State) : Out := .next (s.bstStep b e chk 0x25 opAnd)

/-- OR (R232): A := A OR op. Flags: N Z. -/
def execBstOr (b e : Nat) (chk : Chk) (s : State) : Out := .next (s.bstStep b e chk 0x26 opOr)

/-- XOR (R232): A := A XOR op. Flags: N Z. -/
def execBstXor (b e : Nat) (chk : Chk) (s : State) : Out := .next (s.bstStep b e chk 0x27 opXor)

/-- MUL (R232): A := low 32 bits of A * op. Flags: N Z V. -/
def execBstMul (b e : Nat) (chk : Chk) (s : State) : Out := .next (s.bstStep b e chk 0x28 opMul)

/-- MULH (R232): A := high 32 bits of the S32 * S32 product. Flags: N Z. -/
def execBstMulh (b e : Nat) (chk : Chk) (s : State) : Out := .next (s.bstStep b e chk 0x29 opMulh)

/-- MULHU (R232): A := high 32 bits of the U32 * U32 product. Flags: N Z. -/
def execBstMulhu (b e : Nat) (chk : Chk) (s : State) : Out := .next (s.bstStep b e chk 0x2A opMulhu)

/-- DIV (R232): A := A / op, S32, truncated. Flags: N Z V DZ. -/
def execBstDiv (b e : Nat) (chk : Chk) (s : State) : Out := .next (s.bstStep b e chk 0x2B opDiv)

/-- DIVU (R232): A := A / op, U32. Flags: N Z DZ. -/
def execBstDivu (b e : Nat) (chk : Chk) (s : State) : Out := .next (s.bstStep b e chk 0x2C opDivu)

/-- REM (R232): A := A rem op, S32, with the sign of A. Flags: N Z V DZ. -/
def execBstRem (b e : Nat) (chk : Chk) (s : State) : Out := .next (s.bstStep b e chk 0x2D opRem)

/-- REMU (R232): A := A rem op, U32. Flags: N Z DZ. -/
def execBstRemu (b e : Nat) (chk : Chk) (s : State) : Out := .next (s.bstStep b e chk 0x2E opRemu)

/-- NEG (R232): A := -A. Flags: N Z V. -/
def execBstNeg (b e : Nat) (chk : Chk) (s : State) : Out := .next (s.bstStep b e chk 0x2F opNeg)

/-- SHL (R232): A := A << count. Flags: N Z C. -/
def execBstShl (b e : Nat) (chk : Chk) (s : State) : Out := .next (s.bstStep b e chk 0x30 opShl)

/-- SHR (R232): A := A >> count, logical. Flags: N Z C. -/
def execBstShr (b e : Nat) (chk : Chk) (s : State) : Out := .next (s.bstStep b e chk 0x31 opShr)

/-- SAR (R232): A := A >> count, arithmetic. Flags: N Z C. -/
def execBstSar (b e : Nat) (chk : Chk) (s : State) : Out := .next (s.bstStep b e chk 0x32 opSar)

/-- ROL (R232): Rotate A left. Flags: N Z C. -/
def execBstRol (b e : Nat) (chk : Chk) (s : State) : Out := .next (s.bstStep b e chk 0x33 opRol)

/-- ROR (R232): Rotate A right. Flags: N Z C. -/
def execBstRor (b e : Nat) (chk : Chk) (s : State) : Out := .next (s.bstStep b e chk 0x34 opRor)

/-- MIN (R232): A := smaller of A and op, S32. Flags: N Z. -/
def execBstMin (b e : Nat) (chk : Chk) (s : State) : Out := .next (s.bstStep b e chk 0x35 opMin)

/-- MAX (R232): A := larger of A and op, S32. Flags: N Z. -/
def execBstMax (b e : Nat) (chk : Chk) (s : State) : Out := .next (s.bstStep b e chk 0x36 opMax)

/-- ABS (R232): A := |A|. Flags: N Z V. -/
def execBstAbs (b e : Nat) (chk : Chk) (s : State) : Out := .next (s.bstStep b e chk 0x37 opAbs)

/-- NOT (R232): A := NOT A. Flags: N Z. -/
def execBstNot (b e : Nat) (chk : Chk) (s : State) : Out := .next (s.bstStep b e chk 0x38 opNot)

/-- FADD (R232): A := A + op. Flags: N Z FX. -/
def execBstFadd (b e : Nat) (chk : Chk) (s : State) : Out := .next (s.bstStep b e chk 0x40 opFadd)

/-- FSUB (R232): A := A - op. Flags: N Z FX. -/
def execBstFsub (b e : Nat) (chk : Chk) (s : State) : Out := .next (s.bstStep b e chk 0x41 opFsub)

/-- FMUL (R232): A := A * op. Flags: N Z FX. -/
def execBstFmul (b e : Nat) (chk : Chk) (s : State) : Out := .next (s.bstStep b e chk 0x42 opFmul)

/-- FDIV (R232): A := A / op. Flags: N Z DZ FX. -/
def execBstFdiv (b e : Nat) (chk : Chk) (s : State) : Out := .next (s.bstStep b e chk 0x43 opFdiv)

/-- FSQRT (R232): A := sqrt op. Flags: N Z FX. -/
def execBstFsqrt (b e : Nat) (chk : Chk) (s : State) : Out := .next (s.bstStep b e chk 0x44 opFsqrt)

/-- FCMP (R232): N := A < op, Z := A = op, C := unordered, V := 0; A unchanged. Flags: N Z C V. -/
def execBstFcmp (b e : Nat) (chk : Chk) (s : State) : Out := .next (s.bstStep b e chk 0x45 opFcmp)

/-- FMIN (R232): A := smaller of A and op. Flags: N Z FX. -/
def execBstFmin (b e : Nat) (chk : Chk) (s : State) : Out := .next (s.bstStep b e chk 0x46 opFmin)

/-- FMAX (R232): A := larger of A and op. Flags: N Z FX. -/
def execBstFmax (b e : Nat) (chk : Chk) (s : State) : Out := .next (s.bstStep b e chk 0x47 opFmax)

/-- FNEG (R232): A[31] := NOT A[31]. Flags: N Z. -/
def execBstFneg (b e : Nat) (chk : Chk) (s : State) : Out := .next (s.bstStep b e chk 0x48 opFneg)

/-- FABS (R232): A[31] := 0. Flags: N Z. -/
def execBstFabs (b e : Nat) (chk : Chk) (s : State) : Out := .next (s.bstStep b e chk 0x49 opFabs)

/-- FTOI (R232): A := S32 of A, truncated. Flags: N Z FX. -/
def execBstFtoi (b e : Nat) (chk : Chk) (s : State) : Out := .next (s.bstStep b e chk 0x4A opFtoi)

/-- ITOF (R232): A := FP32 of S32 A. Flags: N Z. -/
def execBstItof (b e : Nat) (chk : Chk) (s : State) : Out := .next (s.bstStep b e chk 0x4B opItof)

/-- BR (R232): If SC holds: PC := IMM (mode 0) or X + IMM (mode 2). -/
def execBstBr (b e : Nat) (chk : Chk) (s : State) : Out := .next (s.bstStep b e chk 0x60 opBr)

/-- CALL (R232): Push PC + 1, then jump as BR AL; SC res0. -/
def execBstCall (b e : Nat) (chk : Chk) (s : State) : Out := .next (s.bstStep b e chk 0x61 opCall)

/-- RET (R232): PC := pop. -/
def execBstRet (b e : Nat) (chk : Chk) (s : State) : Out := .next (s.bstStep b e chk 0x62 opRet)

/-- DBNZ (R232): CT := CT - 1; if CT is not 0, PC := IMM; SC res0. -/
def execBstDbnz (b e : Nat) (chk : Chk) (s : State) : Out := .next (s.bstStep b e chk 0x63 opDbnz)

/-- REP (R232): Repeat the next instruction (R236). -/
def execBstRep (b e : Nat) (chk : Chk) (s : State) : Out := .next (s.bstStep b e chk 0x64 opRep)

/-- END (R232): End the invocation (R212). -/
def execBstEnd (b e : Nat) (chk : Chk) (s : State) : Out := .next (s.bstStep b e chk 0x65 opEnd)

/-- FAULT (R232): End the invocation with BASTE_FAULT. -/
def execBstFault (b e : Nat) (chk : Chk) (s : State) : Out := .next (s.bstStep b e chk 0x66 opFault)

/-- RTT (R232): Return from the trap (R239). Flags: all. -/
def execBstRtt (b e : Nat) (chk : Chk) (s : State) : Out := .next (s.bstStep b e chk 0x67 opRtt)

/-- TRAP (R232): Trap with SOFT; IMM[15:8] res0, IMM[7:0] is free to the program; SC res0. -/
def execBstTrap (b e : Nat) (chk : Chk) (s : State) : Out := .next (s.bstStep b e chk 0x68 opTrap)

/-- CLF (R232): Clear the FLAGS bits set in IMM[5:0]; IMM[15:6] and SC res0. Flags: as masked. -/
def execBstClf (b e : Nat) (chk : Chk) (s : State) : Out := .next (s.bstStep b e chk 0x69 opClf)

end Sys2Proof.Machine
end

