-- ==== Sys2Proof/Machine/HostCmds.lean ====
section
/-! DEFINITION. The commands of the host ports, the memory ports, the seam ports and the ring. A command that is a write of one
object goes through the dictionary's write path (R7; log 43). -/

namespace Sys2Proof.Machine

/-! ## The register window (R40, R251, R254, R272, R288, R345 to R347) -/

/-- DOORBELL (R40). -/
def execDoorbell (hp c st : Nat) (v : Word) (s : State) : Out := .next (s.hwrIn (.doorbell hp c st v)).settle
/-- RCONS (R251). -/
def execRcons (hp c st : Nat) (v : Word) (s : State) : Out := .next (s.hwrIn (.rcons hp c st v)).settle
/-- SCRED (R254). -/
def execScred (hp c st : Nat) (v : Word) (s : State) : Out := .next (s.hwrIn (.scred hp c st v)).settle
/-- BCRED (R272). -/
def execBcred (hp c : Nat) (v : Word) (s : State) : Out := .next (s.hwrIn (.bcred hp c v)).settle
/-- DCRED (R288). -/
def execDcred (hp e : Nat) (v : Word) (s : State) : Out := .next (s.hwrIn (.dcred hp e v)).settle

/-! ## Bodkin commands (R269 to R285) -/

/-- A Bodkin command: it is queued when its 32 bytes arrive with it, and the head of the queue is applied if it is one of these codes. -/
def State.bdkRow (s : State) (i : Instr) (c : Nat) (w : Option BdkWords) (is : Nat → Bool) : State :=
  (match w with | some _ => s.hwrIn i | none => s).bdkApply c is

/-- SPAWN (R274). -/
def execSpawn (hp c : Nat) (w : Option BdkWords) (s : State) : Out := .next (s.bdkRow (.spawn hp c w) c w (fun k => k == 1)).settle
/-- EXPECT (R276). -/
def execExpect (hp c : Nat) (w : Option BdkWords) (s : State) : Out := .next (s.bdkRow (.expect hp c w) c w (fun k => k == 2)).settle
/-- ACK (R284). -/
def execAck (hp c : Nat) (w : Option BdkWords) (s : State) : Out := .next (s.bdkRow (.ack hp c w) c w (fun k => k == 3)).settle
/-- CANCEL of a thread (R282). -/
def execBdkCancel (hp c : Nat) (w : Option BdkWords) (s : State) : Out := .next (s.bdkRow (.bdkCancel hp c w) c w (fun k => k == 4)).settle
/-- POST (R275). -/
def execPost (hp c : Nat) (w : Option BdkWords) (s : State) : Out := .next (s.bdkRow (.post hp c w) c w (fun k => k == 5)).settle
/-- DISCARD (R277). -/
def execDiscard (hp c : Nat) (w : Option BdkWords) (s : State) : Out := .next (s.bdkRow (.discard hp c w) c w (fun k => k == 6)).settle
/-- A reserved CODE (R271). -/
def execBdkReservedCode (hp c : Nat) (w : Option BdkWords) (s : State) : Out :=
  .next (s.bdkRow (.bdkReservedCode hp c w) c w (fun k => k == 0 || decide (6 < k))).settle

/-! ## Mailboxes (R348) -/

/-- MB_CMD with OP 1. -/
def execMbRead (hp : Nat) (index : BitVec 16) (sub : BitVec 8) (s : State) : Out := .next (s.hwrIn (.mbRead hp index sub)).settle
/-- MB_CMD with OP 2. -/
def execMbWrite (hp : Nat) (index : BitVec 16) (sub : BitVec 8) (s : State) : Out := .next (s.hwrIn (.mbWrite hp index sub)).settle
/-- MB_CMD with a reserved OP. -/
def execMbReservedOp (hp : Nat) (index : BitVec 16) (sub : BitVec 8) (op3 : Bool) (s : State) : Out :=
  .next (s.hwrIn (.mbReservedOp hp index sub op3)).settle

/-- OBJECT_WRITE (R7, R347). -/
def execObjectWrite (w : ObjWrite) (s : State) : Out :=
  match w with
  | .dict index sub len v => .next (s.operWrite index.toNat sub.toNat len v).settle
  | .window .. => .next (s.hwrIn (.objectWrite w)).settle

/-! ## Ports (R337 to R344) -/

/-- CPLD (R339). -/
def execCpld (p : Nat) (hdr : BitVec 256) (data : BitVec 512) (s : State) : Out := .next (s.cpldIn p hdr.toNat data.toNat).settle
/-- CPL (R342). -/
def execCpl (p : Nat) (hdr : BitVec 256) (s : State) : Out := .next (s.cplIn p hdr.toNat).settle
/-- CPL_TIMEOUT (R344). -/
def execCplTimeout (p : Nat) (wr : Bool) (tag : BitVec 12) (s : State) : Out := .next (s.cplTimeout p wr tag.toNat).settle
/-- LANE_FAULT (R338). -/
def execLaneFault (p m : Nat) (s : State) : Out := .next (s.laneFault p m).settle
/-- RETRAIN_DONE (R338). -/
def execRetrainDone (p : Nat) (s : State) : Out := .next (s.retrainDone p).settle
/-- RETRAIN_TIMEOUT (R338). -/
def execRetrainTimeout (p m : Nat) (s : State) : Out := .next (s.retrainTimeout p m).settle

/-! ## Seam frames and migration (R355 to R366) -/

/-- A seam frame arrives. -/
def State.seamRow (s : State) (sp : Nat) (i : Instr) : State := s.seamRx sp i (fun s => s.applyIn i)

/-- MIGRATE (R359). -/
def execMigrate (sp : Nat) (f : SeamFrame) (s : State) : Out := .next (s.seamRow sp (.migrate sp f)).settle
/-- MIGVEC (R356). -/
def execMigvec (sp : Nat) (f : SeamFrame) (s : State) : Out := .next (s.seamRow sp (.migvec sp f)).settle
/-- RESULT (R361). -/
def execResult (sp : Nat) (f : SeamFrame) (s : State) : Out := .next (s.seamRow sp (.result sp f)).settle
/-- RECS (R361). -/
def execRecs (sp : Nat) (f : SeamFrame) (s : State) : Out := .next (s.seamRow sp (.recs sp f)).settle
/-- MAINT (R366). -/
def execMaint (sp : Nat) (f : SeamFrame) (s : State) : Out := .next (s.seamRow sp (.maint sp f)).settle
/-- MAINT_ACK (R366). -/
def execMaintAck (sp : Nat) (f : SeamFrame) (s : State) : Out := .next (s.seamRow sp (.maintAck sp f)).settle
/-- CREDIT (R355). -/
def execCredit (sp : Nat) (f : SeamFrame) (s : State) : Out := .next (s.seamRow sp (.credit sp f)).settle
/-- MIGRATE_SEND (R358). -/
def execMigrateSend (slot : Nat) (s : State) : Out := .next (s.migrateSend slot).settle
/-- MIG_TIMEOUT (R363). -/
def execMigTimeout (e : Nat) (s : State) : Out := .next (s.migTimeout e).settle
/-- MIG_BACKOFF (R363). -/
def execMigBackoff (e : Nat) (s : State) : Out := .next (s.migBackoff e).settle

/-! ## Ring frames (R400 to R425) -/

/-- Whether a frame is broadcast. -/
def ringBcast (f : RingFrame) : Bool := f.dst == 0xFF
/-- The broadcast WRITE of MEMBERS (R409). -/
def membersWrite (f : RingFrame) : Bool := f.ftype == 3 && ringBcast f && f.index == 0x1100 && f.sub == 3

/-- What a row does with a frame of its type that is for the tile: a broadcast or an addressed one (R407). -/
def State.ringRow (s : State) (f : RingFrame) (ftype : BitVec 8) (own : Option (State → State)) : State :=
  if f.ftype = ftype then s.frameIn f own else s

/-- ENUM (R409, R410). -/
def execRingEnum (f : RingFrame) (s : State) : Out :=
  .next (s.ringRow f 1 (if ringBcast f then some (fun s => s.enum f) else none)).settle
/-- READ (R413 to R417). -/
def execRingRead (f : RingFrame) (s : State) : Out :=
  .next (s.ringRow f 2 (if ringBcast f then none else some (fun s => s.ringRequest f))).settle
/-- WRITE (R413 to R417). -/
def execRingWrite (f : RingFrame) (s : State) : Out :=
  .next (if membersWrite f then s else s.ringRow f 3 (if ringBcast f then none else some (fun s => s.ringRequest f))).settle
/-- MEMBERS (R409). -/
def execRingMembers (f : RingFrame) (s : State) : Out :=
  .next (if membersWrite f then s.ringRow f 3 (some (fun s => s.members f)) else s).settle
/-- RESP (R421). -/
def execRingResp (f : RingFrame) (s : State) : Out :=
  .next (s.ringRow f 4 (if ringBcast f then none else some (fun s => s.peerResp f))).settle
/-- RELAY: any other frame (R400, R408). -/
def execRelay (f : RingFrame) (s : State) : Out :=
  let mine := decide (s.addr ≠ 0xFE) && decide (f.dst.toNat = s.addr) && decide (2 ≤ f.ftype.toNat) && decide (f.ftype.toNat ≤ 4)
  .next (if mine || membersWrite f || (ringBcast f && f.ftype == 1) then s else s.frameIn f none)
/-- FRAME_DISCARD (R408). -/
def execFrameDiscard (why : RxFault) (s : State) : Out := .next (s.frameDiscard why)
/-- ANNOUNCE (R410). -/
def execAnnounce (s : State) : Out := .next s.announce
/-- EVT_RESEND (R420). -/
def execEvtResend (s : State) : Out := .next s.evtResend
/-- EVT_ACK written by EVT_DST (R420). -/
def execEvtAck (eseq : BitVec 16) (s : State) : Out := .next (if s.pstate = 0 then s else s.evtAck eseq.toNat)
/-- UNLOCK (R418). -/
def execUnlock (record : BitVec 832) (s : State) : Out := .next (s.operWrite 0x1220 2 104 record.toNat).settle
/-- RING_RST (R411, R425). -/
def execRingRst (code : Byte) (s : State) : Out := .next (s.operWrite 0x1130 0 1 code.toNat).settle
/-- A reset of the ring interface without a command (R411): loss of lock and invalid characters reset an interface that is in the ring. -/
def execRingReset (why : RingLoss) (s : State) : Out :=
  let due := s.pwr.vddW && (match why with | .firmware => true | _ => s.ring.bypassOpen)
  .next (if due then s.ringReset else s)
/-- BYPASS_OPEN (R403). -/
def execBypassOpen (s : State) : Out := .next s.bypassGo
/-- DOMAIN_WRITE_TIMEOUT (R413). -/
def execDomainWriteTimeout (index : BitVec 16) (sub : BitVec 8) (s : State) : Out := .next (s.domainTimeout index.toNat sub.toNat)
/-- PEER_TIMEOUT (R421). -/
def execPeerTimeout (svc : Svc) (s : State) : Out := .next (s.peerTimeout svc).settle

end Sys2Proof.Machine
end

