-- ==== Sys2Proof/Machine/Needle.lean ====
section
/-! DEFINITION. The commands of the Bobbins (R103 to R212): what a Needle, a result path or a Baste engine does when its turn comes. -/

namespace Sys2Proof.Machine

/-- Needle n of Bobbin b issues its next operation, if it is of a wanted type; `kind` is the unit that checks it (R103, R369). -/
def State.needleOp (s : State) (b n : Nat) (chk : Chk) (kind : Nat) (ty : Nat → Bool) (apply : State → Nat → Nat → State) : State :=
  match s.pickOf b n ty with
  | (s1, none) => s1
  | (s1, some (e, v)) => s1.storeError chk b e (fun s => s.checked chk b kind n (fun s => apply s e v))

/-- A recomputation in the leaf array is a pass more (R179). -/
def State.recomputed (s : State) (b e : Nat) (chk : Chk) : State :=
  if chk = .once ∨ chk = .twice then
    let s1 := s.oInc (0x4280 + b) 4
    if (match (s.ent b e).item with | some it => it.ty == 8 | none => false) then s1.oInc (0x4280 + b) 3 else s1
  else s

/-- A unit that takes queued handoffs returns a result, with its self-check (R369, R370); what stops it stops the first handoff that does not
wait. -/
def State.unitOp (s : State) (b unit : Nat) (chk : Chk) (kind : Nat) (apply : State → State) : State :=
  match (if s.bobRuns b && decide (b < 48) then (s.queueOf b unit).find? (fun e => !s.stillWaits b (s.ent b e)) else none) with
  | none => s
  | some e => s.storeError chk b e (fun s => (if unit = 2 then s.recomputed b e chk else s).checked chk b kind 0 apply)

/-- The leaf types that a Needle hands off (R103). -/
def leafType (ty : Nat) : Bool := (decide (3 ≤ ty) && decide (ty ≤ 8)) || ty == 0xA

/-- BOX_VISIT (R106). -/
def execBoxVisit (b n : Nat) (chk : Chk) (s : State) : Out :=
  .next (s.needleOp b n chk 0 (fun t => t == 1) (fun s e v => s.visitBox b e v)).settle

/-- INSTANCE_VISIT (R120). -/
def execInstanceVisit (b n : Nat) (chk : Chk) (s : State) : Out :=
  .next (s.needleOp b n chk 1 (fun t => t == 2) (fun s e v => s.visitInst b e v)).settle

/-- LEAF_HANDOFF (R103). -/
def execLeafHandoff (b n : Nat) (chk : Chk) (s : State) : Out :=
  .next (s.needleOp b n chk 1 leafType (fun s e v => (s.handoff b e v).netTaken b e)).settle

/-- METRIC_VISIT: the visit is handed to the leaf array (R140). -/
def execMetricVisit (b n : Nat) (chk : Chk) (s : State) : Out :=
  .next (s.needleOp b n chk 1 (fun t => t == 9) (fun s e v => s.handoff b e v)).settle

/-- INTERSECTOR_RESULT (R115, R133). -/
def execIntersectorResult (b : Nat) (chk : Chk) (s : State) : Out := .next (s.unitOp b 1 chk 2 (fun s => s.isectResult b)).settle

/-- LEAF_ARRAY_RESULT (R154, R177). -/
def execLeafArrayResult (b : Nat) (chk : Chk) (s : State) : Out := .next (s.unitOp b 2 chk 3 (fun s => s.arrayResult b)).settle

/-- WEIGHT_FILL (R173). -/
def execWeightFill (b : Nat) (s : State) : Out := .next (s.weightFill b).settle

/-- BANK_PENDING (R174). -/
def execBankPending (b : Nat) (s : State) : Out := .next (s.bankPending b)

/-- ROLE_CHANGE (R174). -/
def execRoleChange (b bank : Nat) (s : State) : Out := .next (s.roleChange b bank)

/-- FINISHING_WALK (R118). -/
def execFinishingWalk (b e : Nat) (s : State) : Out := .next (s.finishingWalk b e).settle

/-- QUERY_PARK (R197); 8,192 is added to the entry that its write-back finds uncorrectable (R374). -/
def execQueryPark (b e : Nat) (s : State) : Out := .next (s.queryPark b (e % 8192) (decide (8192 ≤ e))).settle

/-- COMPLETION (R58). -/
def execCompletion (b e : Nat) (s : State) : Out := .next (s.completion b e).settle

/-- REVERT (R391). -/
def execRevert (b e : Nat) (s : State) : Out := .next (s.revert b e).settle

/-- BASTE_HANDOFF (R208). -/
def execBasteHandoff (b : Nat) (s : State) : Out := .next (s.basteHandoff b).settle

end Sys2Proof.Machine
end

