-- ==== Sys2Proof/Machine/PowerCmds.lean ====
section
/-! DEFINITION. The commands of power, clocks, ageing, start, reset, abort and the test port (chapters 16 and 17, R486). -/

namespace Sys2Proof.Machine

/-! ## Power states (R440 to R444) -/

/-- POWER_CMD SLEEP (R444). -/
def execSleep (s : State) : Out := .next (s.operWrite 0x2100 1 1 1).settle
/-- POWER_CMD WAKE (R444). -/
def execWake (s : State) : Out := .next (s.operWrite 0x2100 1 1 2).settle
/-- POWER_CMD HOLD (R444). -/
def execHold (s : State) : Out := .next (s.operWrite 0x2100 1 1 3).settle
/-- AUTO_SLEEP: IDLE_SLEEP µs of idleness have passed (R443). -/
def execAutoSleep (s : State) : Out := .next (if s.run && s.o 0x2100 2 != 0 && s.idleAuto then s.startDrain 1 false else s)
/-- QUIESCE_DONE (R442). -/
def execQuiesceDone (s : State) : Out := .next s.quiesce.settle
/-- SLEEP_ENTRY (R440). -/
def execSleepEntry (s : State) : Out := .next s.sleepEntry
/-- WAKE_DONE: what arrived in SLEEP is applied now (R440, R441). -/
def execWakeDone (s : State) : Out := .next s.wakeGo.settle

/-! ## Bobbin clocks and gating (R447, R448) -/

/-- Whether no operation of Bobbin b is outstanding: its entries are free, no line fill is in flight, no engine runs (R447). -/
def State.bobIdle (s : State) (b : Nat) : Bool :=
  s.occupied b == 0 && (s.bobOf b).trackers == 0 && (List.range 4).all (fun g => (s.engOf b g).ent.isNone)

/-- NEEDLE_CLOCK_STOP (R447). -/
def execNeedleClockStop (b n : Nat) (s : State) : Out :=
  .next (if b < 48 ∧ n < 16 ∧ s.live ∧ s.awake b ∧ s.needleOcc b n = 0 then
    s.modBob b (fun v => { v with needleStop := setFld v.needleStop n 1 1 }) else s)
/-- BOBBIN_CLOCK_STOP (R447). -/
def execBobbinClockStop (b : Nat) (s : State) : Out :=
  .next (if b < 48 ∧ s.live ∧ s.awake b ∧ (s.bobOf b).needleStop = 65535 ∧ s.bobIdle b then s.modBob b (fun v => { v with clock := 1 }) else s)
/-- IDLE_GATING (R448). -/
def execIdleGating (b : Nat) (s : State) : Out :=
  .next (if b < 48 ∧ s.live ∧ (s.bobOf b).clock = 1 ∧ s.inService b ∧ s.mayGate b then s.gateBob b else s)
/-- CONSOLIDATION (R448). -/
def execConsolidation (s : State) : Out := .next s.consolidate
/-- BOBBIN_GATE: a drained Bobbin is gated (R448). -/
def execBobbinGate (b : Nat) (s : State) : Out :=
  .next (if b < 48 ∧ s.live ∧ (s.bobOf b).drain ∧ s.bobIdle b ∧ s.inService b then
    (if s.mayGate b then s.gateBob b else s.modBob b (fun v => { v with drain := false })) else s)
/-- BOBBIN_WAKE (R448). -/
def execBobbinWake (b : Nat) (s : State) : Out :=
  .next (if b < 48 ∧ s.live ∧ (s.bobOf b).clock = 3 then s.modBob b (fun v => { v with clock := 0, needleStop := 0 }) else s).settle
/-- CLOCK_STOPPED_WAKE (R448). -/
def execClockStoppedWake (b : Nat) (s : State) : Out :=
  .next (if b < 48 ∧ s.live ∧ (s.bobOf b).clock = 4 then s.modBob b (fun v => { v with clock := 0, needleStop := 0 }) else s).settle

/-! ## Readings and plans (R446, R450 to R460) -/

/-- THERMAL_READING (R450). -/
def execThermalReading (tj : Int) (s : State) : Out := .next (s.thermal tj)
/-- PROBE_READING (R451). -/
def execProbeReading (su : List (Nat × Nat)) (s : State) : Out := .next (s.probeReading su).settle
/-- VSETTLE (R454). -/
def execVsettle (s : State) : Out := .next s.settled.settle
/-- CLK_A_STEP (R446). -/
def execClkAStep (s : State) : Out := .next s.clkStep.settle
/-- LOG_UPDATE (R459). -/
def execLogUpdate (s : State) : Out := .next s.logUpdate
/-- PART_AUTO (R460). -/
def execPartAuto (s : State) : Out := .next s.partAuto.settle

/-! ## Start and reset (R465 to R471) -/

/-- VDD_W_ON (R465). -/
def execVddWOn (s : State) : Out := .next s.vddOn
/-- VDD_W_OFF (R440). -/
def execVddWOff (s : State) : Out := .next s.vddOff
/-- PWROK_RISE (R465). -/
def execPwrokRise (env : StartEnv) (s : State) : Out := .next (s.pwrokRise env).settle
/-- PWROK_FALL (R465). -/
def execPwrokFall (s : State) : Out := .next s.pwrokFall
/-- RST_N_ASSERT (R465). -/
def execRstNAssert (s : State) : Out := .next s.rstAssert
/-- RST_N_DEASSERT (R465). -/
def execRstNDeassert (env : StartEnv) (s : State) : Out := .next (s.rstDeassert env).settle
/-- START_CMD 0x01 (R467, R471). -/
def execColdStart (env : StartEnv) (s : State) : Out := .next (if s.pstate = 0 then s else (s.startCmd 1 env).2.settle)
/-- START_CMD 0x02 (R467, R471). -/
def execWarmStart (env : StartEnv) (s : State) : Out := .next (if s.pstate = 0 then s else (s.startCmd 2 env).2.settle)
/-- RESET_CMD (R466, R471). -/
def execResetCmd (code : Byte) (s : State) : Out := .next (s.operWrite 0xF001 0 1 code.toNat).settle

/-! ## Abort (R472 to R478) -/

/-- ABORT_CMD 0x01 (R474). -/
def execAbortContext (s : State) : Out := .next (s.operWrite 0xF002 2 1 1).settle
/-- ABORT_CMD 0x02 (R473). -/
def execAbortAll (s : State) : Out := .next (s.operWrite 0xF002 2 1 2).settle
/-- ABORT_COMPLETE (R474). -/
def execAbortComplete (us : Word) (s : State) : Out := .next (s.abortComplete us.toNat).settle
/-- RELEASE_DONE (R478). -/
def execReleaseDone (c : Nat) (s : State) : Out := .next (s.releaseDone c).settle

/-! ## Test port (R486) -/

/-- A test instruction: the port is on VDD_W. -/
def State.tapRow (s : State) (n : Nat) : State := if s.pwr.vddW then s.tapSet n else s

/-- BYPASS. -/
def execTapBypass (s : State) : Out := .next (s.tapRow 0).settle
/-- IDCODE: the identification code is in the data register. -/
def execTapIdcode (s : State) : Out :=
  .next (if s.pwr.vddW then (s.modPwr (fun p => { p with tapData := tapIdcodeValue })).tapSet 1 else s).settle
/-- SAMPLE/PRELOAD: the boundary scan register is sampled or preloaded. -/
def execTapSamplePreload (boundary : Nat) (s : State) : Out :=
  .next (if s.pwr.vddW then (s.modPwr (fun p => { p with tapBoundary := boundary })).tapSet 2 else s).settle
/-- EXTEST. -/
def execTapExtest (s : State) : Out := .next (s.tapRow 3)
/-- CLAMP. -/
def execTapClamp (s : State) : Out := .next (s.tapRow 4)
/-- HIGHZ. -/
def execTapHighz (s : State) : Out := .next (s.tapRow 5)

end Sys2Proof.Machine
end

