-- ==== Sys2Proof/Machine/TileCmds.lean ====
section
/-! DEFINITION. The commands of the control plane: causes, contexts, streams, endpoints, the index table, Baste images, the
partition, maintenance and firmware. A command that is a write of one object goes through the dictionary's write path (R7; log 43). -/

namespace Sys2Proof.Machine

/-- A write at operator level of an object of context c (R13). -/
def State.ctxObj (s : State) (c o sub len v : Nat) : State := if c < 64 then s.operWrite (0x3000 + 64 * c + o) sub len v else s

/-- CAUSE_CLEAR (R432). -/
def execCauseClear (leaf : BitVec 16) (mask : Word) (s : State) : Out :=
  .next (if leafMask leaf.toNat = 0 then s else (s.operWrite leaf.toNat 1 4 mask.toNat).settle)
/-- CANCEL (R67). -/
def execCancel (c : Nat) (mask : Byte) (s : State) : Out := .next (s.ctxObj c 7 0 1 mask.toNat).settle

/-! ## The index table (R98) -/

/-- IDX_CMD 0x01 LOAD. -/
def execIdxLoad (c : Nat) (s : State) : Out := .next (s.ctxObj c 8 0 1 1).settle
/-- IDX_CMD 0x02 DROP. -/
def execDrop (c : Nat) (s : State) : Out := .next (s.ctxObj c 8 0 1 2).settle
/-- IDX_CMD 0x03 REFIT_BEGIN. -/
def execRefitBegin (c : Nat) (s : State) : Out := .next (s.ctxObj c 8 0 1 3).settle
/-- REFIT_HELD. -/
def execRefitHeld (h : Nat) (s : State) : Out := .next (s.refitHeld h).settle
/-- IDX_CMD 0x04 REFIT_END. -/
def execRefitEnd (c : Nat) (s : State) : Out := .next (s.ctxObj c 8 0 1 4).settle
/-- PIN_EXTEND. -/
def execPinExtend (s : State) : Out := .next (if s.live then s.pinExtend else s).settle

/-! ## Baste images (R220) -/

/-- IMG_LOAD 0x01. -/
def execImgLoad (s : State) : Out := .next (s.operWrite 0x2500 3 1 1).settle
/-- IMG_WRITE. -/
def execImgWrite (s : State) : Out := .next s.imgWrite.settle

/-! ## Partition and maintenance (R301, R302, R317 to R321) -/

/-- PART_CMD 0x01 APPLY. -/
def execApply (s : State) : Out := .next (s.operWrite 0x2300 6 1 1).settle
/-- PART_DONE. -/
def execPartDone (s : State) : Out := .next s.partDone.settle
/-- PART_CMD 0x02 SHIFT. -/
def execShift (s : State) : Out := .next (s.operWrite 0x2300 6 1 2).settle
/-- MT_CMD 0x01 while MT_OP is this operation. -/
def State.mtRow (s : State) (op : Nat) : State := if s.mtOp = op then s.operWrite 0xF010 1 1 1 else s
/-- CLEAN (R318). -/
def execClean (s : State) : Out := .next (s.mtRow 1).settle
/-- INVALIDATE (R318). -/
def execInvalidate (s : State) : Out := .next (s.mtRow 2).settle
/-- CLEAN_INVALIDATE (R318). -/
def execCleanInvalidate (s : State) : Out := .next (s.mtRow 3).settle
/-- LOCK (R318). -/
def execLock (s : State) : Out := .next (s.mtRow 4).settle
/-- MT_UNLOCK (R318). -/
def execMtUnlock (s : State) : Out := .next (s.mtRow 5).settle
/-- LOCK_INDEX (R321). -/
def execLockIndex (s : State) : Out := .next (s.mtRow 6).settle
/-- MAINT_DONE (R319). -/
def execMaintDone (s : State) : Out := .next (if s.live then s.maintDone else s).settle

/-! ## Firmware and withdrawn Bobbins -/

/-- READMIT (R394). -/
def execReadmit (code : Byte) (s : State) : Out := .next (s.operWrite 0x7010 7 1 code.toNat).settle
/-- FW_CMD 0x01 STAGE (R426). -/
def execStage (s : State) : Out := .next (s.operWrite 0xF020 2 1 1).settle

/-! ## Enables, quotas and caches (R45, R64, R66, R287, R288, R325) -/

/-- A RING_CTRL write (R45). -/
def execStreamEnable (c st : Nat) (v : Word) (s : State) : Out := .next (if st < 8 then s.ctxObj c (0x19 + 5 * st) 0 4 v.toNat else s).settle
/-- A CTX_CTRL write (R64). -/
def execContextEnable (c : Nat) (v : Word) (s : State) : Out := .next (s.ctxObj c 0 0 4 v.toNat).settle
/-- A BDK_CTRL write (R287). -/
def execBdkEnable (c : Nat) (v : Word) (s : State) : Out := .next (s.ctxObj c 0x17 1 4 v.toNat).settle
/-- An EP_CTRL write (R288). -/
def execEndpointEnable (e : Nat) (v : Word) (s : State) : Out := .next (if e < 1024 then s.operWrite (0x2C00 + e) 1 4 v.toNat else s).settle
/-- The context object of a quota (R62). -/
def quotaObj : Quota → Nat | .park => 1 | .ext => 2 | .reserve => 3
/-- A quota write (R66). -/
def execQuotaWrite (c : Nat) (which : Quota) (v : Word) (s : State) : Out := .next (s.ctxObj c (quotaObj which) 0 4 v.toNat).settle
/-- A write of the cache control object (R325). -/
def execCacheEnable (v : Word) (s : State) : Out := .next (s.operWrite 0x2310 0 4 v.toNat).settle

/-! ## Delivery faults (R253, R262) -/

/-- A write of RES_CTRL that leaves its fields and writes 1 to one of its W1C bits. -/
def State.resBit (s : State) (c st i : Nat) : State :=
  if st < 8 then s.ctxObj c 0x12 (1 + st) 4 (fld (s.resCtrl c st) 0 13 + 2 ^ i) else s
/-- REDIR (R262). -/
def execRedir (c st : Nat) (s : State) : Out := .next (s.resBit c st 16).settle
/-- RFAULT (R253). -/
def execRfault (c st : Nat) (s : State) : Out := .next (s.resBit c st 17).settle

end Sys2Proof.Machine
end

