-- ==== Sys2Proof/Machine/UnitCmds.lean ====
section
/-! DEFINITION. The commands of the Pleater, the Hem, the Bodkin, the Lining and the recovery of queries: what a unit does when its turn
comes. An event whose condition the state does not meet changes nothing (log 1). -/

namespace Sys2Proof.Machine

/-- With no command waiting, one CLK_F cycle passes (log 2). -/
def State.cycle (s : State) : State := { s with clkF := s.clkF + 1 }

/-! ## Pleater (R48 to R51, R180 to R200) -/

/-- FETCH (R181). -/
def execFetch (s : State) : Out := .next s.fetch.settle
/-- ADMISSION (R182). -/
def execAdmission (c st : Nat) (s : State) : Out := .next (s.admission c st).settle
/-- GEN_BEGIN (R50). -/
def execGenBegin (c st : Nat) (s : State) : Out := .next (s.genBegin c st).settle
/-- GENERATE (R48, R49). -/
def execGenerate (s : State) : Out := .next s.generate.settle
/-- CONT_BUILD (R51). -/
def execContBuild (slot : Nat) (s : State) : Out := .next (s.contStart slot).settle
/-- BIN_RIPE (R191). -/
def execBinRipe (bin : Nat) (s : State) : Out := .next (s.ripen bin)
/-- RELEASE (R191 to R193). -/
def execRelease (s : State) : Out := .next s.release.settle
/-- CL0_RELEASE (R194, R196). -/
def execCl0Release (s : State) : Out := .next s.cl0Release.settle
/-- SPILL (R199). -/
def execSpill (s : State) : Out := .next s.spill.settle
/-- RELOAD (R200). -/
def execReload (s : State) : Out := .next s.reload.settle
/-- INTERVAL (R189). -/
def execInterval (s : State) : Out := .next s.interval
/-- SCHEME_DECISION (R189). -/
def execSchemeDecision (s : State) : Out := .next s.schemeDecision

/-! ## Hem (R43, R251, R252, R254, R259) -/

/-- RING_ENTRY_WRITE (R251). -/
def execRingEntryWrite (c st : Nat) (s : State) : Out := .next (s.ringEntryWrite c st).settle
/-- SLOT_FILL_OPEN (R254). -/
def execSlotFillOpen (c st : Nat) (s : State) : Out := .next (s.slotFillOpen c st).settle
/-- FLUSH (R259). -/
def execFlush (c st : Nat) (s : State) : Out := .next (s.flushFill c st).settle
/-- HEAD_WB (R43). -/
def execHeadWb (c st : Nat) (s : State) : Out := .next (s.headWb c st).settle
/-- RES_WB (R252). -/
def execResWb (c st : Nat) (s : State) : Out := .next (s.resWb c st).settle

/-! ## Bodkin (R277 to R284) -/

/-- OPERAND (R277). -/
def execOperand (s : State) : Out := .next s.operand.settle
/-- DISPATCH (R280). -/
def execDispatch (s : State) : Out := .next s.dispatchOne.settle
/-- AFF_WAIT (R281). -/
def execAffWait (t : Nat) (s : State) : Out := .next (s.affWait t)
/-- AGE_LIMIT (R280). -/
def execAgeLimit (t : Nat) (s : State) : Out := .next (s.ageLimit t)
/-- ACK_LATE (R284). -/
def execAckLate (t : Nat) (s : State) : Out := .next (s.ackLate t)

/-! ## Recovery, withdrawal and scrubbing (R328, R371 to R381) -/

/-- REISSUE (R379). -/
def execReissue (slot : Nat) (s : State) : Out := .next (s.reissue slot).settle
/-- MEND_RETRY (R381). -/
def execMendRetry (n : Nat) (s : State) : Out := .next (s.mendRetry n).settle
/-- WITHDRAW_DONE (R374). -/
def execWithdrawDone (b : Nat) (s : State) : Out := .next (s.withdrawDone b).settle
/-- CUTOFF (R375). -/
def execCutoff (b : Nat) (s : State) : Out := .next (s.cutoff b).settle
/-- MISMATCH_INTERVAL (R371). -/
def execMismatchInterval (s : State) : Out := .next s.mismatchInterval
/-- SCRUB (R328, R329). -/
def execScrub (k : Nat) (o : ScrubOutcome) (s : State) : Out := .next (s.scrub k o).settle

end Sys2Proof.Machine
end

