-- ==== Sys2Proof/Machine/Dispatch.lean ====
section
/-! DEFINITION. Every command and the meaning it calls. -/

namespace Sys2Proof.Machine

def exec (i : Instr) (s : State) : Host.Outcome State Fault Refusal :=
  match i with
  | .doorbell hp c st v => Sys2Proof.Machine.execDoorbell hp c st v s
  | .rcons hp c st v => Sys2Proof.Machine.execRcons hp c st v s
  | .scred hp c st v => Sys2Proof.Machine.execScred hp c st v s
  | .bcred hp c v => Sys2Proof.Machine.execBcred hp c v s
  | .dcred hp e v => Sys2Proof.Machine.execDcred hp e v s
  | .spawn hp c w => Sys2Proof.Machine.execSpawn hp c w s
  | .expect hp c w => Sys2Proof.Machine.execExpect hp c w s
  | .ack hp c w => Sys2Proof.Machine.execAck hp c w s
  | .bdkCancel hp c w => Sys2Proof.Machine.execBdkCancel hp c w s
  | .post hp c w => Sys2Proof.Machine.execPost hp c w s
  | .discard hp c w => Sys2Proof.Machine.execDiscard hp c w s
  | .bdkReservedCode hp c w => Sys2Proof.Machine.execBdkReservedCode hp c w s
  | .mbRead hp index sub => Sys2Proof.Machine.execMbRead hp index sub s
  | .mbWrite hp index sub => Sys2Proof.Machine.execMbWrite hp index sub s
  | .mbReservedOp hp index sub op3 => Sys2Proof.Machine.execMbReservedOp hp index sub op3 s
  | .objectWrite w => Sys2Proof.Machine.execObjectWrite w s
  | .cpld p hdr data => Sys2Proof.Machine.execCpld p hdr data s
  | .cpl p hdr => Sys2Proof.Machine.execCpl p hdr s
  | .cplTimeout p wr tag => Sys2Proof.Machine.execCplTimeout p wr tag s
  | .laneFault p m => Sys2Proof.Machine.execLaneFault p m s
  | .retrainDone p => Sys2Proof.Machine.execRetrainDone p s
  | .retrainTimeout p m => Sys2Proof.Machine.execRetrainTimeout p m s
  | .migrate sp f => Sys2Proof.Machine.execMigrate sp f s
  | .migvec sp f => Sys2Proof.Machine.execMigvec sp f s
  | .result sp f => Sys2Proof.Machine.execResult sp f s
  | .recs sp f => Sys2Proof.Machine.execRecs sp f s
  | .maint sp f => Sys2Proof.Machine.execMaint sp f s
  | .maintAck sp f => Sys2Proof.Machine.execMaintAck sp f s
  | .credit sp f => Sys2Proof.Machine.execCredit sp f s
  | .migrateSend slot => Sys2Proof.Machine.execMigrateSend slot s
  | .migTimeout e => Sys2Proof.Machine.execMigTimeout e s
  | .migBackoff e => Sys2Proof.Machine.execMigBackoff e s
  | .ringEnum f => Sys2Proof.Machine.execRingEnum f s
  | .ringRead f => Sys2Proof.Machine.execRingRead f s
  | .ringWrite f => Sys2Proof.Machine.execRingWrite f s
  | .ringMembers f => Sys2Proof.Machine.execRingMembers f s
  | .ringResp f => Sys2Proof.Machine.execRingResp f s
  | .frameDiscard why => Sys2Proof.Machine.execFrameDiscard why s
  | .announce => Sys2Proof.Machine.execAnnounce s
  | .evtResend => Sys2Proof.Machine.execEvtResend s
  | .evtAck eseq => Sys2Proof.Machine.execEvtAck eseq s
  | .unlock record => Sys2Proof.Machine.execUnlock record s
  | .ringRst code => Sys2Proof.Machine.execRingRst code s
  | .ringReset why => Sys2Proof.Machine.execRingReset why s
  | .bypassOpen => Sys2Proof.Machine.execBypassOpen s
  | .domainWriteTimeout index sub => Sys2Proof.Machine.execDomainWriteTimeout index sub s
  | .peerTimeout svc => Sys2Proof.Machine.execPeerTimeout svc s
  | .relay f => Sys2Proof.Machine.execRelay f s
  | .sleep => Sys2Proof.Machine.execSleep s
  | .wake => Sys2Proof.Machine.execWake s
  | .hold => Sys2Proof.Machine.execHold s
  | .autoSleep => Sys2Proof.Machine.execAutoSleep s
  | .quiesceDone => Sys2Proof.Machine.execQuiesceDone s
  | .sleepEntry => Sys2Proof.Machine.execSleepEntry s
  | .wakeDone => Sys2Proof.Machine.execWakeDone s
  | .needleClockStop b n => Sys2Proof.Machine.execNeedleClockStop b n s
  | .bobbinClockStop b => Sys2Proof.Machine.execBobbinClockStop b s
  | .idleGating b => Sys2Proof.Machine.execIdleGating b s
  | .consolidation => Sys2Proof.Machine.execConsolidation s
  | .bobbinGate b => Sys2Proof.Machine.execBobbinGate b s
  | .bobbinWake b => Sys2Proof.Machine.execBobbinWake b s
  | .clockStoppedWake b => Sys2Proof.Machine.execClockStoppedWake b s
  | .thermalReading tj => Sys2Proof.Machine.execThermalReading tj s
  | .probeReading su => Sys2Proof.Machine.execProbeReading su s
  | .vsettle => Sys2Proof.Machine.execVsettle s
  | .clkAStep => Sys2Proof.Machine.execClkAStep s
  | .logUpdate => Sys2Proof.Machine.execLogUpdate s
  | .partAuto => Sys2Proof.Machine.execPartAuto s
  | .interval => Sys2Proof.Machine.execInterval s
  | .schemeDecision => Sys2Proof.Machine.execSchemeDecision s
  | .vddWOn => Sys2Proof.Machine.execVddWOn s
  | .vddWOff => Sys2Proof.Machine.execVddWOff s
  | .pwrokRise env => Sys2Proof.Machine.execPwrokRise env s
  | .pwrokFall => Sys2Proof.Machine.execPwrokFall s
  | .rstNAssert => Sys2Proof.Machine.execRstNAssert s
  | .rstNDeassert env => Sys2Proof.Machine.execRstNDeassert env s
  | .coldStart env => Sys2Proof.Machine.execColdStart env s
  | .warmStart env => Sys2Proof.Machine.execWarmStart env s
  | .resetCmd code => Sys2Proof.Machine.execResetCmd code s
  | .abortContext => Sys2Proof.Machine.execAbortContext s
  | .abortAll => Sys2Proof.Machine.execAbortAll s
  | .abortComplete us => Sys2Proof.Machine.execAbortComplete us s
  | .releaseDone c => Sys2Proof.Machine.execReleaseDone c s
  | .tapBypass => Sys2Proof.Machine.execTapBypass s
  | .tapIdcode => Sys2Proof.Machine.execTapIdcode s
  | .tapSamplePreload boundary => Sys2Proof.Machine.execTapSamplePreload boundary s
  | .tapExtest => Sys2Proof.Machine.execTapExtest s
  | .tapClamp => Sys2Proof.Machine.execTapClamp s
  | .tapHighz => Sys2Proof.Machine.execTapHighz s
  | .causeClear leaf mask => Sys2Proof.Machine.execCauseClear leaf mask s
  | .cancel c mask => Sys2Proof.Machine.execCancel c mask s
  | .idxLoad c => Sys2Proof.Machine.execIdxLoad c s
  | .drop c => Sys2Proof.Machine.execDrop c s
  | .refitBegin c => Sys2Proof.Machine.execRefitBegin c s
  | .refitHeld h => Sys2Proof.Machine.execRefitHeld h s
  | .refitEnd c => Sys2Proof.Machine.execRefitEnd c s
  | .pinExtend => Sys2Proof.Machine.execPinExtend s
  | .imgLoad => Sys2Proof.Machine.execImgLoad s
  | .imgWrite => Sys2Proof.Machine.execImgWrite s
  | .apply => Sys2Proof.Machine.execApply s
  | .partDone => Sys2Proof.Machine.execPartDone s
  | .shift => Sys2Proof.Machine.execShift s
  | .clean => Sys2Proof.Machine.execClean s
  | .invalidate => Sys2Proof.Machine.execInvalidate s
  | .cleanInvalidate => Sys2Proof.Machine.execCleanInvalidate s
  | .lock => Sys2Proof.Machine.execLock s
  | .lockIndex => Sys2Proof.Machine.execLockIndex s
  | .mtUnlock => Sys2Proof.Machine.execMtUnlock s
  | .maintDone => Sys2Proof.Machine.execMaintDone s
  | .readmit code => Sys2Proof.Machine.execReadmit code s
  | .stage => Sys2Proof.Machine.execStage s
  | .streamEnable c st v => Sys2Proof.Machine.execStreamEnable c st v s
  | .contextEnable c v => Sys2Proof.Machine.execContextEnable c v s
  | .bdkEnable c v => Sys2Proof.Machine.execBdkEnable c v s
  | .endpointEnable e v => Sys2Proof.Machine.execEndpointEnable e v s
  | .quotaWrite c which v => Sys2Proof.Machine.execQuotaWrite c which v s
  | .cacheEnable v => Sys2Proof.Machine.execCacheEnable v s
  | .redir c st => Sys2Proof.Machine.execRedir c st s
  | .rfault c st => Sys2Proof.Machine.execRfault c st s
  | .fetch => Sys2Proof.Machine.execFetch s
  | .admission c st => Sys2Proof.Machine.execAdmission c st s
  | .genBegin c st => Sys2Proof.Machine.execGenBegin c st s
  | .generate => Sys2Proof.Machine.execGenerate s
  | .contBuild slot => Sys2Proof.Machine.execContBuild slot s
  | .binRipe bin => Sys2Proof.Machine.execBinRipe bin s
  | .release => Sys2Proof.Machine.execRelease s
  | .cl0Release => Sys2Proof.Machine.execCl0Release s
  | .boxVisit b n chk => Sys2Proof.Machine.execBoxVisit b n chk s
  | .instanceVisit b n chk => Sys2Proof.Machine.execInstanceVisit b n chk s
  | .leafHandoff b n chk => Sys2Proof.Machine.execLeafHandoff b n chk s
  | .metricVisit b n chk => Sys2Proof.Machine.execMetricVisit b n chk s
  | .intersectorResult b chk => Sys2Proof.Machine.execIntersectorResult b chk s
  | .leafArrayResult b chk => Sys2Proof.Machine.execLeafArrayResult b chk s
  | .weightFill b => Sys2Proof.Machine.execWeightFill b s
  | .bankPending b => Sys2Proof.Machine.execBankPending b s
  | .roleChange b bank => Sys2Proof.Machine.execRoleChange b bank s
  | .finishingWalk b e => Sys2Proof.Machine.execFinishingWalk b e s
  | .queryPark b e => Sys2Proof.Machine.execQueryPark b e s
  | .completion b e => Sys2Proof.Machine.execCompletion b e s
  | .ringEntryWrite c st => Sys2Proof.Machine.execRingEntryWrite c st s
  | .slotFillOpen c st => Sys2Proof.Machine.execSlotFillOpen c st s
  | .flush c st => Sys2Proof.Machine.execFlush c st s
  | .headWb c st => Sys2Proof.Machine.execHeadWb c st s
  | .resWb c st => Sys2Proof.Machine.execResWb c st s
  | .operand => Sys2Proof.Machine.execOperand s
  | .dispatch => Sys2Proof.Machine.execDispatch s
  | .affWait t => Sys2Proof.Machine.execAffWait t s
  | .ageLimit t => Sys2Proof.Machine.execAgeLimit t s
  | .ackLate t => Sys2Proof.Machine.execAckLate t s
  | .spill => Sys2Proof.Machine.execSpill s
  | .reload => Sys2Proof.Machine.execReload s
  | .revert b e => Sys2Proof.Machine.execRevert b e s
  | .reissue slot => Sys2Proof.Machine.execReissue slot s
  | .mendRetry n => Sys2Proof.Machine.execMendRetry n s
  | .withdrawDone b => Sys2Proof.Machine.execWithdrawDone b s
  | .cutoff b => Sys2Proof.Machine.execCutoff b s
  | .mismatchInterval => Sys2Proof.Machine.execMismatchInterval s
  | .scrub k o => Sys2Proof.Machine.execScrub k o s
  | .basteHandoff b => Sys2Proof.Machine.execBasteHandoff b s
  | .budget b e => Sys2Proof.Machine.execBudget b e s
  | .illegal b e => Sys2Proof.Machine.execIllegal b e s
  | .bstNop b e chk => Sys2Proof.Machine.execBstNop b e chk s
  | .bstLoad b e chk => Sys2Proof.Machine.execBstLoad b e chk s
  | .bstStore b e chk => Sys2Proof.Machine.execBstStore b e chk s
  | .bstLoadhi b e chk => Sys2Proof.Machine.execBstLoadhi b e chk s
  | .bstLoadx b e chk => Sys2Proof.Machine.execBstLoadx b e chk s
  | .bstStorex b e chk => Sys2Proof.Machine.execBstStorex b e chk s
  | .bstLoady b e chk => Sys2Proof.Machine.execBstLoady b e chk s
  | .bstStorey b e chk => Sys2Proof.Machine.execBstStorey b e chk s
  | .bstLoadct b e chk => Sys2Proof.Machine.execBstLoadct b e chk s
  | .bstStorect b e chk => Sys2Proof.Machine.execBstStorect b e chk s
  | .bstMovax b e chk => Sys2Proof.Machine.execBstMovax b e chk s
  | .bstMovxa b e chk => Sys2Proof.Machine.execBstMovxa b e chk s
  | .bstMovay b e chk => Sys2Proof.Machine.execBstMovay b e chk s
  | .bstMovya b e chk => Sys2Proof.Machine.execBstMovya b e chk s
  | .bstMovact b e chk => Sys2Proof.Machine.execBstMovact b e chk s
  | .bstMovcta b e chk => Sys2Proof.Machine.execBstMovcta b e chk s
  | .bstAddx b e chk => Sys2Proof.Machine.execBstAddx b e chk s
  | .bstAddy b e chk => Sys2Proof.Machine.execBstAddy b e chk s
  | .bstAddct b e chk => Sys2Proof.Machine.execBstAddct b e chk s
  | .bstAdd b e chk => Sys2Proof.Machine.execBstAdd b e chk s
  | .bstAddcy b e chk => Sys2Proof.Machine.execBstAddcy b e chk s
  | .bstSub b e chk => Sys2Proof.Machine.execBstSub b e chk s
  | .bstSubcy b e chk => Sys2Proof.Machine.execBstSubcy b e chk s
  | .bstCmp b e chk => Sys2Proof.Machine.execBstCmp b e chk s
  | .bstAnd b e chk => Sys2Proof.Machine.execBstAnd b e chk s
  | .bstOr b e chk => Sys2Proof.Machine.execBstOr b e chk s
  | .bstXor b e chk => Sys2Proof.Machine.execBstXor b e chk s
  | .bstMul b e chk => Sys2Proof.Machine.execBstMul b e chk s
  | .bstMulh b e chk => Sys2Proof.Machine.execBstMulh b e chk s
  | .bstMulhu b e chk => Sys2Proof.Machine.execBstMulhu b e chk s
  | .bstDiv b e chk => Sys2Proof.Machine.execBstDiv b e chk s
  | .bstDivu b e chk => Sys2Proof.Machine.execBstDivu b e chk s
  | .bstRem b e chk => Sys2Proof.Machine.execBstRem b e chk s
  | .bstRemu b e chk => Sys2Proof.Machine.execBstRemu b e chk s
  | .bstNeg b e chk => Sys2Proof.Machine.execBstNeg b e chk s
  | .bstShl b e chk => Sys2Proof.Machine.execBstShl b e chk s
  | .bstShr b e chk => Sys2Proof.Machine.execBstShr b e chk s
  | .bstSar b e chk => Sys2Proof.Machine.execBstSar b e chk s
  | .bstRol b e chk => Sys2Proof.Machine.execBstRol b e chk s
  | .bstRor b e chk => Sys2Proof.Machine.execBstRor b e chk s
  | .bstMin b e chk => Sys2Proof.Machine.execBstMin b e chk s
  | .bstMax b e chk => Sys2Proof.Machine.execBstMax b e chk s
  | .bstAbs b e chk => Sys2Proof.Machine.execBstAbs b e chk s
  | .bstNot b e chk => Sys2Proof.Machine.execBstNot b e chk s
  | .bstFadd b e chk => Sys2Proof.Machine.execBstFadd b e chk s
  | .bstFsub b e chk => Sys2Proof.Machine.execBstFsub b e chk s
  | .bstFmul b e chk => Sys2Proof.Machine.execBstFmul b e chk s
  | .bstFdiv b e chk => Sys2Proof.Machine.execBstFdiv b e chk s
  | .bstFsqrt b e chk => Sys2Proof.Machine.execBstFsqrt b e chk s
  | .bstFcmp b e chk => Sys2Proof.Machine.execBstFcmp b e chk s
  | .bstFmin b e chk => Sys2Proof.Machine.execBstFmin b e chk s
  | .bstFmax b e chk => Sys2Proof.Machine.execBstFmax b e chk s
  | .bstFneg b e chk => Sys2Proof.Machine.execBstFneg b e chk s
  | .bstFabs b e chk => Sys2Proof.Machine.execBstFabs b e chk s
  | .bstFtoi b e chk => Sys2Proof.Machine.execBstFtoi b e chk s
  | .bstItof b e chk => Sys2Proof.Machine.execBstItof b e chk s
  | .bstBr b e chk => Sys2Proof.Machine.execBstBr b e chk s
  | .bstCall b e chk => Sys2Proof.Machine.execBstCall b e chk s
  | .bstRet b e chk => Sys2Proof.Machine.execBstRet b e chk s
  | .bstDbnz b e chk => Sys2Proof.Machine.execBstDbnz b e chk s
  | .bstRep b e chk => Sys2Proof.Machine.execBstRep b e chk s
  | .bstEnd b e chk => Sys2Proof.Machine.execBstEnd b e chk s
  | .bstFault b e chk => Sys2Proof.Machine.execBstFault b e chk s
  | .bstRtt b e chk => Sys2Proof.Machine.execBstRtt b e chk s
  | .bstTrap b e chk => Sys2Proof.Machine.execBstTrap b e chk s
  | .bstClf b e chk => Sys2Proof.Machine.execBstClf b e chk s

end Sys2Proof.Machine
end

