-- ==== Sys2Proof/Safety.lean ====
section
/-! DEFINITION. What a safe run is, and the words that the claims use for a state and for what a command has done. -/

namespace Sys2Proof

/-- A state from which every command sequence runs on: k steps answer a next state. -/
def RunsOn (s : Machine.State) : Prop := ∀ k : Nat, ∃ t, Host.Core.run core k s = .next t

/-- A command completes: its meaning answers a next state. -/
def Completes (i : Instr) (s : Machine.State) : Prop := ∃ t, Machine.exec i s = .next t

/-- The command completes in a next state of which P holds. -/
def Does (i : Instr) (s : Machine.State) (P : Machine.State → Prop) : Prop := ∃ t, Machine.exec i s = .next t ∧ P t

/-- The command's own effect gives a state of which P holds, and the next state is what the tile makes of it by itself. -/
def Leads (i : Instr) (s : Machine.State) (P : Machine.State → Prop) : Prop := ∃ u, Machine.exec i s = .next u.settle ∧ P u

end Sys2Proof

namespace Sys2Proof.Machine

/-! ## The whole tile -/

/-- The tile is in OFF: nothing is left of its state but the pins, the test port, what it has sent, the commands that wait and the
model's own counters (R439, R440). -/
def State.off (s : State) : Prop := s.vddOff = s

/-- Nothing is left to follow by itself: no completion to hand on, no access that waits for the Lining cache, no index command whose copy is done, no loss to suffer, no query that waits for a bin, no stream with records to
place, a fill to close or a wait for pages, no dictionary request that waits for the Tailor, and no reset that an answered request has asked for. -/
def State.still (s : State) : Bool :=
  s.due.isEmpty && s.tile.lcWait.isEmpty && s.hnd.all (fun e => !e.2.goes) && s.tile.lossWait.isEmpty && s.tile.keyWait.isEmpty && s.strm.all (fun e => e.2.hem.isEmpty && e.2.open_.isNone && e.2.closing.isEmpty && !e.2.rbFull) &&
  s.ring.queue.isEmpty && s.ring.after == 0

/-- Every store is in its canonical form: keys rising, and no entry equal to what an unlisted key reads as. -/
def State.canon (s : State) : Bool :=
  tsorted s.obj && s.obj.all (fun e => e.2 != objReset e.1) && tcanon {} s.port && tcanon {} s.ctx && tcanon {} s.strm && tcanon {} s.ep &&
  tcanon {} s.thr && tcanon {} s.hnd && tcanon {} s.slot && tcanon {} s.rs && tcanon {} s.bob && tcanon {} s.eng && tcanon {} s.mig

/-- A host write through HP.hp is heard: the port's link is up and the tile is in RUN (R347, R441). -/
def State.hears (s : State) (hp : Nat) : Prop := hp < 8 ∧ (s.lstate (16 + hp) = 1 ∨ s.lstate (16 + hp) = 2) ∧ s.run = true

/-- A host write through HP.hp is counted (R351). -/
def State.heard (s : State) (hp : Nat) : State := s.oInc (0x4400 + 16 + hp) 8

/-! ## Baste engines -/

/-- FLAGS with N and Z of an integer result and the rest unchanged (R232). -/
def Flags.nz (f : Flags) (r : Word) : Flags := { f with n := r.getLsbD 31, z := decide (r = 0) }

/-- Where an engine goes on after an instruction that does not jump: at the same word while repetitions are due (R236). -/
def Engine.nextPc (en : Engine) : Nat := if 1 < en.rep then en.pc else en.pc + 1

/-- Engine g of Bobbin b executes word w next, whose opcode is op, and the next address lies inside the code (R227, R236, R238). -/
def State.executes (s : State) (b g w op : Nat) : Prop :=
  s.bstWord b g = some w ∧ iOp w = op ∧ (s.engOf b g).nextPc < 0x1000

/-- The operand of that instruction is v, and the fetch leaves the engine as en (R228 to R231). -/
def State.takes (s : State) (b g w op : Nat) (fm : Form) (v : Word) (en : Engine) : Prop :=
  s.executes b g w op ∧ (s.engOf b g).fetch s.cstAt fm w = .ok v en

/-- That instruction takes no operand, and its bits [23:0] are zero (R227). -/
def State.plain (s : State) (b g w op : Nat) : Prop := s.executes b g w op ∧ w % 2 ^ 24 = 0

/-- Engine g has executed w: it holds en and goes on at pc with rep repetitions due; one instruction is counted, here and against the
budget (R236, R240). -/
def State.acted (s : State) (b g w pc rep : Nat) (en : Engine) : State :=
  (s.oInc (0x42C0 + b) 3).modEng b g (fun _ => { en with pc := pc, rep := rep, last := BitVec.ofNat 32 w, budget := en.budget - 1 })

/-- The same for an instruction that does not jump. -/
def State.actedSeq (s : State) (b g w : Nat) (en : Engine) : State :=
  s.acted b g w (s.engOf b g).nextPc ((s.engOf b g).rep - 1) en

end Sys2Proof.Machine
end

