-- ==== Sys2Proof/Certificates/Slice0/Obligations.lean ====
section
/-! DEFINITION. What is claimed of the tile: each statement is a Prop that names the rules of spec/ it follows. -/

open Sys2Proof Sys2Proof.Machine


/-! ## The queue, the step and reset (R6, R413, R427, R439, R440, R462) -/

/-- A step runs the command at the front of the queue, on the state with the queue's rest. -/
def Obligations.StepRunsFrontCommand : Prop :=
  ∀ (s : State) (i : Instr) (rest : List Instr),
    s.pending = i :: rest → step s = exec i { s with pending := rest }

/-- The model's choice (log 1, log 2): with no command waiting a step is one idle cycle of CLK_F; the commands that wait are served first in, first out, and no command joins the queue or
leaves it but the one at its front. -/
def Obligations.QueueIsFirstInFirstOut : Prop :=
  ∀ (s t : State),
    (s.pending = [] → step s = .next { s with clkF := s.clkF + 1 }) ∧ (step s = .next t → t.pending = s.pending.tail)

/-- Every command has an effect or none in every state: no sequence of commands ends in a fault or a refusal. -/
def Obligations.EverySequenceRuns : Prop :=
  (∀ (i : Instr) (s : State), Completes i s) ∧ ∀ s : State, RunsOn s

/-- R427, R439, R462, R465: after reset the tile is in HOLD with VDD_W applied, PWROK low and RST_N asserted; it is unaddressed, behind a closed bypass, holds no query, no command and no request, every
dictionary register reads its reset value, and every store is in its canonical form with nothing left to follow. -/
def Obligations.ResetValues : Prop :=
  State.reset.pstate = 1 ∧ State.reset.pwr.vddW = true ∧ State.reset.pwr.pwrok = false ∧ State.reset.pwr.rstN = false ∧ State.reset.addr = 0xFE ∧
  State.reset.ring.bypassOpen = false ∧ State.reset.slot = [] ∧ State.reset.pending = [] ∧ State.reset.canon = true ∧ State.reset.still = true ∧
  (∀ (index : BitVec 16) (sub : BitVec 8) (row : ObjRow), objRow? index.toNat sub.toNat = some row → State.reset.o index.toNat sub.toNat = row.reset) ∧
  State.reset.o 0x2700 2 = 4096 ∧ State.reset.o 0x2700 3 = 4096 ∧ State.reset.o 0x2700 4 = 1000 ∧ State.reset.o 0x2700 5 = 2 ∧ State.reset.o 0x2700 6 = 4 ∧
  State.reset.o 0x1110 5 = 200 ∧ State.reset.o 0x1110 6 = 2000 ∧ State.reset.o 0x1110 7 = 3 ∧ State.reset.o 0x1120 6 = 10

/-- R439, R440: a tile in OFF stays in OFF, with nothing of its state, whatever command comes, until VDD_W is applied. -/
def Obligations.OffIsLeftByVddWOnAlone : Prop :=
  ∀ (s t : State),
    s.off → s.pending.head? ≠ some .vddWOn → step s = .next t → t.off ∧ t.pstate = 0

/-- The form of the stores is an invariant of every step: keys rise, and no entry equals what an unlisted key reads as, so that equal contents are equal data. -/
def Obligations.StoresStayCanonical : Prop :=
  ∀ (s t : State),
    s.canon = true → step s = .next t → t.canon = true

/-- What follows a command by itself is nothing where nothing waits to follow: the tile then is as the command has left it. -/
def Obligations.StillStatesStay : Prop :=
  ∀ (s : State),
    s.still = true → s.settle = s ∧ s.afterReq = s


/-! ## Power, start, reset and pins (R402, R439 to R448, R465 to R471) -/

/-- R439, R440, R465, R471: removing VDD_W leaves OFF with the pins alone; applying it gives HOLD with no ring address, the bypass closed and a fresh CHALLENGE; PWROK low or RST_N
asserted gives HOLD; PWROK rising and RST_N deasserted change the pin alone with AUTO = 0, and begin a start of the kind AUTO_KIND with AUTO = 1 in HOLD and the other pin high. -/
def Obligations.SupplyAndResetPins : Prop :=
  (∀ (s : State),
     Does .vddWOff s (fun t => t.off ∧ t.pstate = 0 ∧ t.pwr.pwrok = s.pwr.pwrok ∧ t.pwr.rstN = s.pwr.rstN ∧ t.pending = s.pending) ∧
     (s.pwr.vddW = false → Does .vddWOn s (fun t => t.pwr.vddW = true ∧ t.pstate = 1 ∧ t.addr = 0xFE ∧ t.ring.bypassOpen = false ∧
       t.challenge = Config.freeValue s.free ∧ t.pwr.pwrok = s.pwr.pwrok ∧ t.pwr.rstN = s.pwr.rstN)) ∧
     (s.pwr.vddW = true → Does .pwrokFall s (fun t => t.pwr.pwrok = false ∧ t.pstate = 1 ∧ t.addr = 0xFE ∧ t.ring.bypassOpen = false)) ∧
     (s.pwr.vddW = true → Does .rstNAssert s (fun t => t.pwr.rstN = false ∧ t.pstate = 1 ∧ t.addr = 0xFE ∧ t.ring.bypassOpen = false))) ∧
  (∀ (s : State) (env : StartEnv),
     let up := s.modPwr (fun p => { p with pwrok := true })
     let go := s.modPwr (fun p => { p with rstN := true })
     (s.still = true → bit (s.o 0xF000 2) 0 = false → exec (.pwrokRise env) s = .next up ∧ exec (.rstNDeassert env) s = .next go) ∧
     (s.pwr.vddW = true → bit (s.o 0xF000 2) 0 = true → s.pstate = 1 → s.pwr.start = none →
       (s.pwr.rstN = true → exec (.pwrokRise env) s = .next (up.startBegin (bit (s.o 0xF000 2) 1) env false).settle) ∧
       (s.pwr.pwrok = true → exec (.rstNDeassert env) s = .next (go.startBegin (bit (s.o 0xF000 2) 1) env false).settle)))

/-- R466, R467, R469, R471: a cold start in HOLD that passes steps 1 to 3 reads the lifetime log from its first segment, a warm start that
keeps its kind asks for the set point of its plan, and START_CMD reads 1 meanwhile; RESET_CMD gives HOLD without a ring address. -/
def Obligations.StartsAndReset : Prop :=
  ∀ (s : State) (env : StartEnv),
    (s.pstate = 1 → s.o 0xF000 1 ≠ 1 → s.pwr.pwrok = true → s.pwr.rstN = true → s.pwr.tap < 3 → env.selfTest = none → env.fuseBlock = none →
      s.o 0xF020 3 = 0 →
      (s.o 0x1110 1 ≠ 0xFF → Leads (.coldStart env) s (fun u => u.o 0xF000 1 = 1 ∧ u.pwr.start.map (fun g => g.wait) = some 4 ∧
        u.ring.store.map (fun q => (q.write, q.offset, q.len)) = some (false, 0, 256))) ∧
      (s.pwr.pwrokFell = false → s.pwr.eqSaved = true → bit (s.o 0xF000 3) 12 = false → s.o 0x1110 3 ≠ 0xFF →
        Leads (.warmStart env) s (fun u => u.pwr.start.map (fun g => g.wait) = some 5 ∧ u.ring.vreg.map (fun q => q.write) = some true))) ∧
    (s.pwr.vddW = true → s.pstate ≠ 0 → bit (s.o 0xF000 2) 0 = false →
      Leads (.resetCmd 1) s (fun u => u.pstate = 1 ∧ u.addr = 0xFE ∧ u.pwr.rstN = s.pwr.rstN ∧ u.ring.bypassOpen = false))

/-- R440 to R444: SLEEP, HOLD and automatic sleep lead from RUN into DRAIN, with the command busy; WAKE starts the wake from SLEEP; a drain for
SLEEP that has quiesced leaves SLEEP with CLK_A stopped; the end of the wake leaves RUN, counts a wake, and the plan goes on. -/
def Obligations.PowerStateChanges : Prop :=
  ∀ (s : State),
    (s.still = true → s.run = true → s.o 0x2100 1 ≠ 1 →
      Does .sleep s (fun t => t.pstate = 4 ∧ t.pwr.drainFor = 1 ∧ t.o 0x2100 1 = 1) ∧
      (s.idle = true → Does .hold s (fun t => t.pstate = 4 ∧ t.pwr.drainFor = 2 ∧ t.o 0x2100 1 = 1))) ∧
    (s.still = true → s.pstate = 2 → s.o 0x2100 1 ≠ 1 → Does .wake s (fun t => t.pstate = 2 ∧ t.pwr.waking = true ∧ t.o 0x2100 1 = 1)) ∧
    (s.run = true → s.o 0x2100 2 ≠ 0 → s.idleAuto = true → Does .autoSleep s (fun t => t.pstate = 4 ∧ t.pwr.drainFor = 1)) ∧
    (s.still = true → s.pstate = 4 → s.portsQuiet = true → s.pwr.abortMask = 0 → s.pwr.drainFor = 1 →
      exec .quiesceDone s = .next (s.modPwr (fun p => { p with quiesced := true }))) ∧
    (s.pstate = 4 → s.pwr.quiesced = true → s.pwr.drainFor = 1 →
      Does .sleepEntry s (fun t => t.pstate = 2 ∧ t.o 0x4000 5 = 0 ∧ t.pwr.drainFor = 0)) ∧
    (s.pstate = 2 → s.pwr.waking = true → s.pwr.holdAfterWake = false → s.held = [] →
      ∃ u : State, exec .wakeDone s = .next u.plan.abortAfterWake.settle ∧ u.pstate = 3 ∧ u.pwr.waking = false ∧ u.o 0x4000 8 = (s.o 0x4000 8 + 1) % 2 ^ 64)

/-- R447, R448: a Needle's clock, a Bobbin's clock and its power stop and start again under the conditions of these rules, and nothing else changes; the 1 ms decision drains the highest
awake Bobbin below LOW_LOAD and wakes the lowest gated one above HIGH_LOAD; a gated Bobbin has lost its node cache (a locked way stays, empty), its unretired entries and its engines,
and every other one keeps its own. -/
def Obligations.BobbinClocks : Prop :=
  (∀ (s : State) (b n : Nat),
     (s.live = true → b < 48 → n < 16 → s.awake b = true → s.needleOcc b n = 0 →
       exec (.needleClockStop b n) s = .next (s.modBob b (fun v => { v with needleStop := setFld v.needleStop n 1 1 }))) ∧
     (s.live = true → b < 48 → s.awake b = true → (s.bobOf b).needleStop = 65535 → s.bobIdle b = true →
       exec (.bobbinClockStop b) s = .next (s.modBob b (fun v => { v with clock := 1 }))) ∧
     (s.live = true → b < 48 → (s.bobOf b).clock = 1 → s.inService b = true → s.mayGate b = true → exec (.idleGating b) s = .next (s.gateBob b)) ∧
     (s.live = true → b < 48 → (s.bobOf b).drain = true → s.bobIdle b = true → s.inService b = true → s.mayGate b = true →
       exec (.bobbinGate b) s = .next (s.gateBob b)) ∧
     (s.still = true → s.live = true → b < 48 →
       ((s.bobOf b).clock = 3 → exec (.bobbinWake b) s = .next (s.modBob b (fun v => { v with clock := 0, needleStop := 0 }))) ∧
       ((s.bobOf b).clock = 4 → exec (.clockStoppedWake b) s = .next (s.modBob b (fun v => { v with clock := 0, needleStop := 0 })))) ∧
     (s.live = true → bit (s.o 0x2110 1) 0 = true →
       let aw := s.awakeList
       let u := aw.foldl (fun a b => a + s.occupied b) 0
       (u * 256 < s.o 0x2110 5 * 8192 * (aw.length - 1) → aw.getLast? = some b → s.mayGate b = true →
         (List.range 48).any (fun i => (s.bobOf i).drain) = false →
         exec .consolidation s = .next (s.modBob b (fun v => { v with drain := true }))) ∧
       (¬ u * 256 < s.o 0x2110 5 * 8192 * (aw.length - 1) → s.o 0x2110 6 * 8192 * aw.length < u * 256 →
         firstIdx 48 (fun b => s.inService b && (s.bobOf b).clock == 2) = some b →
         exec .consolidation s = .next (s.modBob b (fun v => { v with clock := 3 }))))) ∧
  (∀ (s : State) (b : Nat),
     (∀ set, set < 1024 → ∀ w, w ∈ (tget {} (s.gateBob b).nc (b * 1024 + set)).ways → w = { way := w.way, locked := true }) ∧
     (tsorted s.rs = true → ∀ e, e < 8192 → (s.ent b e).retired = false → (s.gateBob b).ent b e = {}) ∧
     (∀ g, g < 4 → (s.gateBob b).engOf b g = {}) ∧
     (∀ c e, c ≠ b → e < 8192 → (s.gateBob b).ent c e = s.ent c e) ∧
     (∀ c g, c ≠ b → g < 4 → (s.gateBob b).engOf c g = s.engOf c g) ∧
     ((s.gateBob b).bobOf b).clock = 2 ∧
     (s.gateBob b).o 0x4000 0x0A = (s.o 0x4000 0x0A + 1) % 2 ^ 64)

/-- R446, R450, R451, R454, R459, R460: a junction reading is stored and moves the thermal limit by 25 MHz inside 500 to 800 MHz; a slew moves CLK_A by at
most 25 MHz towards its target; a settled voltage is relied on; a probe reading advances OPSEC by 64 and is evaluated; the log is written to update
OPSEC; at the end of a Lining window the counts for the next are taken, and with AUTO on, 16 windows after the last SHIFT and three hits in four, a SHIFT to twice the cache begins. -/
def Obligations.ReadingsAndPlan : Prop :=
  ∀ (s : State),
    (∀ tj : Int, s.live = true →
      Does (.thermalReading tj) s (fun t => t.o 0x4000 7 = ofInt 32 tj ∧
        ((s.o 0x2130 1 : Int) ≤ tj → t.pwr.thermal = max 500 (s.pwr.thermal - 25)) ∧
        (tj ≤ (s.o 0x2130 1 : Int) - 3 → t.pwr.thermal = min 800 (s.pwr.thermal + 25)) ∧
        ((s.o 0x2130 1 : Int) - 3 < tj → tj < (s.o 0x2130 1 : Int) → t.pwr.thermal = s.pwr.thermal) ∧
        (105 ≤ tj → t.pwr.thermalStop = true))) ∧
    (s.live = true → s.o 0x4000 5 ≠ s.clkTarget →
      ∃ u : State, exec .clkAStep s = .next u.plan.settle ∧
        (s.o 0x4000 5 < s.clkTarget → u.o 0x4000 5 = min s.clkTarget (s.o 0x4000 5 + 25)) ∧
        (s.clkTarget < s.o 0x4000 5 → u.o 0x4000 5 = max s.clkTarget (s.o 0x4000 5 - 25))) ∧
    (s.pwr.settling = true → s.pwr.start = none →
      ∃ u : State, exec .vsettle s = .next u.marginChanged.plan.settle ∧ u.o 0x6000 6 = s.pwr.nvConf ∧ u.pwr.settling = false) ∧
    (∀ su, 2 ≤ s.pstate → exec (.probeReading su) s = .next ((s.oAdd 0x6000 9 64).probe su false false).settle) ∧
    (2 ≤ s.pstate → exec .logUpdate s = .next (s.logWrite [] s.jhead)) ∧
    (s.still = true → s.run = true → bit (s.o 0x2300 7) 0 = false →
      exec .partAuto s = .next (s.modPwr (fun p => { p with lcHits0 := s.o 0x4330 1, lcMiss0 := s.o 0x4330 2, sinceShift := p.sinceShift + 1 }))) ∧
    (let lc := s.part.lc
     let hits := s.o 0x4330 1 - s.pwr.lcHits0
     let total := hits + (s.o 0x4330 2 - s.pwr.lcMiss0)
     let p : Part := { s.part with pin := s.part.pin + lc - 2 * lc, lc := 2 * lc }
     s.run = true → bit (s.o 0x2300 7) 0 = true → 16 ≤ s.pwr.sinceShift → s.o 0x2300 6 ≠ 1 → s.lcMaint = false → 0 < total → 3 * total ≤ 4 * hits → 64 ≤ lc → lc < 1024 →
       16 * lc ≤ s.pinFree → lc ≤ s.part.pin → s.staged.park = s.part.park → s.staged.bin = s.part.bin → s.staged.rb = s.part.rb → partCheck p (s.o 0x2300 8) = 0 →
       Leads .partAuto s (fun u => u.o 0x2300 6 = 1 ∧ u.tile.partOp = some (false, p) ∧ u.pwr.sinceShift = 0 ∧ bit (u.o 0x5700 1) 7 = true))

/-- R486: while VDD_W is on, each test instruction becomes the current one; IDCODE loads the identification code, SAMPLE/PRELOAD takes the
boundary register, and no other state changes unless a start waits for it. -/
def Obligations.TestPort : Prop :=
  ∀ (s : State) (x : Nat),
    s.pwr.vddW = true → (s.pwr.start = none ∨ ∃ g, s.pwr.start = some g ∧ g.wait ≠ 1) →
    (s.still = true →
      exec .tapBypass s = .next (s.modPwr (fun p => { p with tap := 0 })) ∧
      exec .tapIdcode s = .next (s.modPwr (fun p => { p with tap := 1, tapData := tapIdcodeValue })) ∧
      exec (.tapSamplePreload x) s = .next (s.modPwr (fun p => { p with tap := 2, tapBoundary := x }))) ∧
    exec .tapExtest s = .next (s.modPwr (fun p => { p with tap := 3 })) ∧
    exec .tapClamp s = .next (s.modPwr (fun p => { p with tap := 4 })) ∧
    exec .tapHighz s = .next (s.modPwr (fun p => { p with tap := 5 }))

/-- R472 to R474, R478: ABORT_CMD 0x01 and 0x02 in RUN clear EN of the context of ABORT_CTX, or of every enabled one, its Bodkin enable and its streams, drop what the streams had fetched, and read 1; when no write
and no operation of the aborted contexts is left, ABORT_CMD reads 0, RELEASING has their bits too, ABORT_TIME the time taken; a context with nothing left to release leaves RELEASING. -/
def Obligations.Aborts : Prop :=
  ∀ (s : State),
    let stopped := fun (u : State) (c : Nat) => u.ctxEn c = false ∧ u.bdkEn c = false ∧ (u.ctxOf c).aborting = true ∧
      (∀ st, st < 8 → u.ringEn c st = false ∧ (u.st c st).entries = [] ∧ (u.st c st).gen = none)
    (∀ c, s.run = true → s.ring.after = 0 → s.o 0xF002 2 ≠ 1 → c < 64 → s.ctxEn c = true →
      (s.o 0xF002 1 = c → Leads .abortContext s (fun u => u.o 0xF002 2 = 1 ∧ u.pwr.abortMask = 2 ^ c ∧ stopped u c)) ∧
      Leads .abortAll s (fun u => u.o 0xF002 2 = 1 ∧ ∀ d, d < 64 → bit u.pwr.abortMask d = s.ctxEn d ∧ (s.ctxEn d = true → stopped u d))) ∧
    (∀ us : Word, s.live = true → s.pwr.abortMask ≠ 0 → (ctxList s.pwr.abortMask).all (fun c => !s.writesOf c && !s.storeOf c) = true →
      Leads (.abortComplete us) s (fun u => u.o 0xF002 2 = 0 ∧ u.o 0xF002 4 = us.toNat ∧ u.pwr.abortMask = 0 ∧
        ∀ c, c < 64 → bit (u.o 0xF002 3) c = (bit (s.o 0xF002 3) c || bit s.pwr.abortMask c))) ∧
    (∀ c, s.still = true → s.live = true → c < 64 → bit (s.o 0xF002 3) c = true → s.usagePark c = 0 → s.usageExt c = 0 → (s.ctxOf c).spill = [] →
      s.mig.any (fun e => e.2.used && e.2.ctx == c) = false →
      Does (.releaseDone c) s (fun t => t.o 0xF002 3 = s.o 0xF002 3 - 2 ^ c ∧ (t.ctxOf c).aborting = false))


/-! ## The register window (R40, R251, R254, R272, R288, R347, R348) -/

/-- R40, R251, R254, R272, R288: a doorbell that claims no more than the ring holds becomes TAIL, and a credit write inside its range becomes
RCONS, SCRED, BCRED or DCRED; each counts as a register write, and nothing else changes. -/
def Obligations.WindowCreditWrites : Prop :=
  ∀ (s : State) (hp c st e : Nat) (v : Word),
    s.hears hp → s.still = true → c < 64 → st < 8 → e < 1024 →
    let h := s.heard hp
    (s.ringEn c st = true → v ≠ (s.st c st).tail →
      (v - (s.st c st).tail).toNat ≤ 2 ^ s.ringLog c st - ((s.st c st).tail - (s.st c st).head).toNat →
      exec (.doorbell hp c st v) s = .next (h.modSt c st (fun x => { x with tail := v, bells := x.bells ++ [(v, s.clkF)] }))) ∧
    (creditOk v (s.st c st).rcons (s.st c st).prod = true → exec (.rcons hp c st v) s = .next (h.modSt c st (fun x => { x with rcons := v }))) ∧
    (creditOk v (s.st c st).scred (s.st c st).fills = true → exec (.scred hp c st v) s = .next (h.modSt c st (fun x => { x with scred := v }))) ∧
    (creditOk v (s.ctxOf c).bcred (s.ctxOf c).replies = true → exec (.bcred hp c v) s = .next (h.modCtx c (fun x => { x with bcred := v }))) ∧
    (creditOk v (s.epOf e).cons (s.epOf e).disp = true → exec (.dcred hp e v) s = .next (h.modEp e (fun x => { x with cons := v })))

/-- R40, R251, R254, R272, R288: a doorbell of a disabled stream, one that claims more than the ring holds, and a credit write
outside its range leave every count as it was and raise their causes. -/
def Obligations.WindowViolations : Prop :=
  ∀ (s : State) (hp c st e : Nat) (v : Word),
    s.hears hp → c < 64 → st < 8 → e < 1024 →
    let h := s.heard hp
    (s.ringEn c st = false → exec (.doorbell hp c st v) s = .next (h.raise (0x5900 + c) 1 st).settle) ∧
    (s.ringEn c st = true → v ≠ (s.st c st).tail →
      2 ^ s.ringLog c st - ((s.st c st).tail - (s.st c st).head).toNat < (v - (s.st c st).tail).toNat →
      exec (.doorbell hp c st v) s = .next (h.raise (0x5900 + c) 0 st).settle) ∧
    (creditOk v (s.st c st).rcons (s.st c st).prod = false → exec (.rcons hp c st v) s = .next (h.raise (0x5900 + c) 4 st).settle) ∧
    (creditOk v (s.st c st).scred (s.st c st).fills = false → exec (.scred hp c st v) s = .next (h.raise (0x5900 + c) 4 (st + 16)).settle) ∧
    (creditOk v (s.ctxOf c).bcred (s.ctxOf c).replies = false → exec (.bcred hp c v) s = .next (h.raise 0x5500 2 c).settle) ∧
    (creditOk v (s.epOf e).cons (s.epOf e).disp = false → exec (.dcred hp e v) s = .next (h.raise 0x5500 6 e).settle)

/-- R343, R441: in SLEEP, a host write is held with one REQ head and one REQ data credit of its port and starts the wake; it changes nothing else. The end of the wake applies what was held,
which gives the credits back and is counted. -/
def Obligations.SleepHoldsHostWrites : Prop :=
  ∀ (s : State) (hp : Nat) (i : Instr),
    hwrPort i = some hp → hp < 8 → (s.lstate (16 + hp) = 1 ∨ s.lstate (16 + hp) = 2) → s.pstate = 2 →
    ((s.portOf (16 + hp)).hostHead < 64 → (s.portOf (16 + hp)).hostData < 64 →
      s.hwrIn i = { s.modPort (16 + hp) (fun p => { p with hostHead := p.hostHead + 1, hostData := p.hostData + 1 }) with
        held := s.held ++ [i], pwr := { s.pwr with waking := true } }) ∧
    (s.pwr.waking = true → s.held = [i] →
      s.wakeGo = ((({ s with held := [] }.wakeDone.oInc (0x4400 + 16 + hp) 8).modPort (16 + hp) (fun p =>
        { p with hostHead := p.hostHead - 1, hostData := p.hostData - 1 })).applyIn i).abortAfterWake)

/-- R348: a mailbox command with a reserved OP reads back 0x84 and makes no access; while the mailbox is busy every command is discarded; a READ
and a WRITE of an object that does not exist end with 0x81; a READ of an object leaves its bytes in MB_DATA, and a WRITE of its length writes it,
each with the status and the length in MB_STATUS. -/
def Obligations.MailboxCommands : Prop :=
  ∀ (s : State) (hp : Nat) (index : BitVec 16) (sub : BitVec 8) (op3 : Bool),
    s.hears hp → s.still = true →
    ((s.portOf (16 + hp)).mbOp = none →
      exec (.mbReservedOp hp index sub op3) s = .next ((s.heard hp).modPort (16 + hp) (fun p => { p with mbStatus := 0x84 })) ∧
      (objRow? index.toNat sub.toNat = none → ¬(sub.toNat = 0 ∧ 0 < objTop index.toNat) →
        Does (.mbRead hp index sub) s (fun t => (t.portOf (16 + hp)).mbStatus.toNat % 256 = 0x81 ∧ (t.portOf (16 + hp)).mbOp = none) ∧
        Does (.mbWrite hp index sub) s (fun t => (t.portOf (16 + hp)).mbStatus.toNat % 256 = 0x81 ∧ (t.portOf (16 + hp)).mbOp = none)) ∧
      (∀ row n, objRow? index.toNat sub.toNat = some row → row.ty = .u n → row.lvl ≤ s.level (.mail hp) → ¬(sub.toNat = 0 ∧ 0 < objTop index.toNat) →
        let b := fun w => ((s.heard hp).modPort (16 + hp) (fun p => { p with mbOp := some { write := w, index := index, sub := sub }, mbStatus := 1 })).modRing
          (fun r => { r with queue := [] })
        let r := (b false).dictRead row index.toNat sub.toNat
        let w := (b true).objWrite (.mail hp) row index.toNat sub.toNat ((s.portOf (16 + hp)).mbData.toNat % 256 ^ n &&& row.wmask)
        exec (.mbRead hp index sub) s = .next (r.2.modPort (16 + hp) (fun p =>
          { p with mbOp := none, mbStatus := BitVec.ofNat 32 (n * 2 ^ 16), mbData := BitVec.ofNat 512 (ofBytes (toBytes n r.1)) })).afterReq.settle ∧
        ((s.portOf (16 + hp)).mbLen.toNat = n → exec (.mbWrite hp index sub) s = .next (w.2.modPort (16 + hp) (fun p =>
          { p with mbOp := none, mbStatus := BitVec.ofNat 32 (w.1 + (if w.1 = 0 then n else 0) * 2 ^ 16) })).afterReq.settle))) ∧
    ((s.portOf (16 + hp)).mbOp.isSome →
      exec (.mbReservedOp hp index sub op3) s = .next (s.heard hp) ∧ exec (.mbRead hp index sub) s = .next (s.heard hp) ∧
      exec (.mbWrite hp index sub) s = .next (s.heard hp))

/-! ## The Bodkin (R268 to R293) -/

/-- R269 to R277, R282, R284: the seven rows take 32 bytes at BDK_CMD: while the Bodkin is on for the context and its queue has room they join it last; in its context's turn the head of
the queue, valid and without REPLY, leaves it, is counted, and has the effect of its code, and the next turn is the next context's; CANCEL replies with 0x12, and a refused command with its code in RCODE. -/
def Obligations.BodkinCommands : Prop :=
  (∀ (s : State) (hp c : Nat) (w : BdkWords),
     s.hears hp → c < 64 → s.bdkEn c = true → (s.ctxOf c).cmds.length < 64 →
     let t := (s.heard hp).modCtx c (fun x => { x with cmds := x.cmds ++ [w] })
     exec (.spawn hp c (some w)) s = exec (.spawn hp c none) t ∧ exec (.expect hp c (some w)) s = exec (.expect hp c none) t ∧
     exec (.ack hp c (some w)) s = exec (.ack hp c none) t ∧ exec (.bdkCancel hp c (some w)) s = exec (.bdkCancel hp c none) t ∧
     exec (.post hp c (some w)) s = exec (.post hp c none) t ∧ exec (.discard hp c (some w)) s = exec (.discard hp c none) t ∧
     exec (.bdkReservedCode hp c (some w)) s = exec (.bdkReservedCode hp c none) t) ∧
  (∀ (s : State) (hp c : Nat) (w : BdkWords) (rest : List BdkWords),
     let taken := (((s.bdkCycle 0 4).modTile (fun t => { t with bdkNext := c + 1 })).modCtx c (fun x => { x with cmds := rest, replyFull := false })).coSet c 0x17 ((s.bdk c 0xF + 1) % 2 ^ 32) 0xF
     let go := fun (u : State) => (Host.Outcome.next (u.bdkStops c).settle : Out)
     s.run = true → s.bdkTurn = some c → (s.ctxOf c).cmds = w :: rest →
     (s.bdkCheck c w = 0 → BdkCmd.reply w = false →
       (BdkCmd.code w = 1 → exec (.spawn hp c none) s = go (taken.spawnThr c w)) ∧
       (BdkCmd.code w = 2 → exec (.expect hp c none) s = go (taken.expectThr c w)) ∧
       (BdkCmd.code w = 3 → exec (.ack hp c none) s = go (taken.ackThr w)) ∧
       (BdkCmd.code w = 5 → exec (.post hp c none) s = go (taken.postOp c w)) ∧
       (BdkCmd.code w = 6 → exec (.discard hp c none) s = go (taken.discardOps c w))) ∧
     (s.bdkCheck c w = 0 → BdkCmd.code w = 4 →
       exec (.bdkCancel hp c none) s = .next (((taken.cancelThr w).bdkStops c).bdkReply c w 0x12 (taken.bdkInfo c w).1).settle) ∧
     (BdkCmd.code w = 0 ∨ 6 < BdkCmd.code w →
       exec (.bdkReservedCode hp c none) s = .next ((taken.bdkInfo c w).2.bdkReply c w 0x86 (taken.bdkInfo c w).1).settle))

/-- R271: a reserved CODE, and a reserved field that is not zero, are refused with 0x86, before the thread is looked at. -/
def Obligations.BodkinRefusals : Prop :=
  ∀ (s : State) (c : Nat) (w : BdkWords),
    (BdkCmd.code w = 0 ∨ 6 < BdkCmd.code w → s.bdkCheck c w = 0x86) ∧
    (fld w.w0.toNat 9 23 ≠ 0 → s.bdkCheck c w = 0x86) ∧
    (BdkCmd.bad w = false → BdkCmd.code w < 5 → s.inThr c (BdkCmd.thread w) = false → s.bdkCheck c w = 0x80) ∧
    (BdkCmd.bad w = false → BdkCmd.code w = 3 → s.inThr c (BdkCmd.thread w) = true →
      s.bdkCheck c w = if (s.thrOf (BdkCmd.thread w)).st = .dispatched then 0 else 0x81) ∧
    (BdkCmd.bad w = false → BdkCmd.code w = 4 → s.inThr c (BdkCmd.thread w) = true →
      s.bdkCheck c w = match (s.thrOf (BdkCmd.thread w)).st with | .dispatched => 0x83 | .free => 0x81 | _ => 0)

/-- R273, R274, R282, R284: SPAWN makes a free thread WAITING for NEXP operands, or READY when it needs none; ACK frees its thread or arms it
again; CANCEL frees it and drops its expectations. No other thread changes. -/
def Obligations.ThreadStates : Prop :=
  ∀ (s : State) (c : Nat) (w : BdkWords),
    let t := BdkCmd.thread w
    let a0 := w.arg0.toNat
    ((s.spawnThr c w).thrOf t).st = (if fld a0 16 16 = 0 then .ready else .waiting) ∧
    ((s.spawnThr c w).thrOf t).tag = w.arg1.toNat ∧ ((s.spawnThr c w).thrOf t).ctx = c ∧ ((s.spawnThr c w).thrOf t).matched = 0 ∧
    (bit a0 16 = false → (s.ackThr w).thrOf t = {}) ∧
    (bit a0 16 = true → ((s.ackThr w).thrOf t).st = (if fld a0 32 16 = 0 then .ready else .waiting) ∧
      ((s.ackThr w).thrOf t).nexp = fld a0 32 16 ∧ ((s.ackThr w).thrOf t).arm = (s.thrOf t).arm + 1) ∧
    (s.cancelThr w).thrOf t = {} ∧ (s.cancelThr w).expct.all (fun x => x.thread != t) = true ∧
    (∀ k, k ≠ t → (s.spawnThr c w).thrOf k = s.thrOf k ∧ (s.ackThr w).thrOf k = s.thrOf k ∧ (s.cancelThr w).thrOf k = s.thrOf k)


/-! ## The dictionary and the control plane (R7, R9, R13, R414 to R418, R431, R432) -/

/-- R9, R414, R416, R417: an access of a source below the object's level ends with 0x80, one from the ring to the main domain outside RUN and
DRAIN with 0x86, one to an object that does not exist with 0x81; a WRITE of a read-only object answers 0 and changes nothing. -/
def Obligations.DictionaryAccess : Prop :=
  ∀ (s : State) (src : Src) (idx sub off len v : Nat) (last : Bool),
    ¬(sub = 0 ∧ 0 < objTop idx) →
    (objRow? idx sub = none → s.writeReq src idx sub off len v last = (0x81, s) ∧ s.readReq src idx sub off len = (0x81, [], s)) ∧
    (∀ row, objRow? idx sub = some row →
      (s.level src < row.lvl → s.writeReq src idx sub off len v last = (0x80, s.deny src) ∧ s.readReq src idx sub off len = (0x80, [], s.deny src)) ∧
      (∀ a, src = .ring a → row.lvl ≤ s.level src → alwaysOn idx = false → s.pstate < 3 →
        s.writeReq src idx sub off len v last = (0x86, s) ∧ s.readReq src idx sub off len = (0x86, [], s)) ∧
      (row.lvl ≤ s.level src → (alwaysOn idx = true ∨ 3 ≤ s.pstate) → row.acc = .ro → ∀ n, row.ty = .u n → off = 0 → len = n →
        s.writeReq src idx sub off len v last = (0, s)))

/-- R7, R413: a write of a whole object in the tile's domain has the object's effect with the bits that the object lets be written, at operator level. -/
def Obligations.ObjectWriteEffect : Prop :=
  ∀ (s : State) (index : BitVec 16) (sub : BitVec 8) (v : Nat) (row : ObjRow) (n : Nat),
    objRow? index.toNat sub.toNat = some row → row.ty = .u n → row.lvl ≤ 1 → ¬(sub.toNat = 0 ∧ 0 < objTop index.toNat) →
    s.pstate ≠ 0 → (alwaysOn index.toNat = true ∨ 3 ≤ s.pstate) →
    exec (.objectWrite (.dict index sub n v)) s =
      .next (s.objWrite .oper row index.toNat sub.toNat (v % 256 ^ n &&& row.wmask)).2.afterReq.settle

/-- R431, R432: raising a cause that is clear sets its CAUSE bit and its record, count 1 with the low 24 bits of WHAT; one that is set counts up to 255 and keeps the first WHAT; no other
CAUSE bit of the leaf changes, and every other leaf but RNG keeps its registers. Writing 1 to CAUSE bits clears those bits with their records and no other. -/
def Obligations.CausesRaisedAndCleared : Prop :=
  (∀ (s : State) (leaf n what : Nat),
     0x5100 ≤ leaf → leaf < 0x5A00 → leaf ≠ 0x5800 → n < 24 →
     bit ((s.raise leaf n what).o leaf 1) n = true ∧
     (bit (s.o leaf 1) n = false → (s.raise leaf n what).o leaf (0x10 + n) = what % 2 ^ 24 + 2 ^ 24 ∧ (s.raise leaf n what).o leaf 1 = s.o leaf 1 + 2 ^ n) ∧
     (bit (s.o leaf 1) n = true → (s.raise leaf n what).o leaf (0x10 + n) = s.o leaf (0x10 + n) % 2 ^ 24 + min 255 (s.o leaf (0x10 + n) / 2 ^ 24 + 1) * 2 ^ 24 ∧
       (s.raise leaf n what).o leaf 1 = s.o leaf 1) ∧
     (∀ l i, 0x5100 ≤ l → l < 0x5A00 → l ≠ leaf → l ≠ 0x5800 → i < 256 → (s.raise leaf n what).o l i = s.o l i)) ∧
  (∀ (s : State) (leaf : BitVec 16) (mask : Word) (row : ObjRow),
     objRow? leaf.toNat 1 = some row → row.acc = .w1c → row.ty = .u 4 → row.lvl ≤ 1 → row.wmask < 2 ^ 24 → s.o leaf.toNat 1 < 2 ^ 24 →
     leafMask leaf.toNat ≠ 0 → 0x5100 ≤ leaf.toNat → leaf.toNat < 0x5A00 → leaf.toNat ≠ 0x5400 → s.pstate ≠ 0 → s.ring.after = 0 →
     Leads (.causeClear leaf mask) s (fun u =>
       (∀ n, n < 24 → bit (u.o leaf.toNat 1) n = (bit (s.o leaf.toNat 1) n && !(bit mask.toNat n && bit row.wmask n))) ∧
       (∀ n, n < 24 → bit (s.o leaf.toNat 1) n = true → bit mask.toNat n = true → bit row.wmask n = true → u.o leaf.toNat (0x10 + n) = 0)))

/-- R45, R62, R64, R66, R246, R287, R288, R323, R325: the enables and quotas take the written value when their conditions hold, and nothing else changes; a stream
that is enabled starts with TAIL, HEAD, PROD, FILLS and the credit counts at 0 and REDIR and RFAULT clear; caches that are disabled lose their INV bits. -/
def Obligations.EnablesAndQuotas : Prop :=
  ∀ (s : State) (c st e : Nat) (v : Word),
    s.live = true → s.still = true → c < 64 → st < 8 → e < 1024 →
    let x := v.toNat
    (bit x 0 = true → fld x 8 4 = 1 → s.ctxEn c = false → s.usagePark c = 0 → s.releasing c = false → s.reservesFit c (s.co c 3) = true →
      exec (.contextEnable c v) s = .next (s.coSet c 0 (x &&& 0xF07))) ∧
    (s.ctxEn c = true → s.co c 0 = x + 1 → bit x 0 = false → x &&& 0xF07 = x → exec (.contextEnable c v) s = .next (s.coSet c 0 x)) ∧
    (64 ≤ x → x ≤ s.co c 1 → s.ctxEn c = false → exec (.quotaWrite c .reserve v) s = .next (s.coSet c 3 x)) ∧
    (64 ≤ x → s.co c 3 ≤ x → exec (.quotaWrite c .park v) s =
      .next (((s.coSet c 1 x).modCtx c (fun y => { y with overPark := y.overPark || decide (x < s.usagePark c) })).quotaCheck c).afterReq.settle) ∧
    (65 ≤ x → exec (.quotaWrite c .ext v) s =
      .next (((s.coSet c 2 x).modCtx c (fun y => { y with overExt := y.overExt || decide (x < s.usageExt c) })).quotaCheck c).afterReq.settle) ∧
    (s.bdkQuiet c = true → (x = 0 → exec (.bdkEnable c v) s = .next (s.coSet c 0x17 0 1)) ∧
      (x = 1 → (∀ k, k < 64 → s.bdkEn k = false) → s.bdk c 6 + s.bdk c 7 ≤ 262144 →
        exec (.bdkEnable c v) s = .next ((s.coSet c 0x17 1 1).modCtx c (fun y => { y with replies := 0, bcred := 0, replyFull := false, cmds := [] })))) ∧
    (1 ≤ fld x 24 4 → fld x 24 4 ≤ 12 → s.epOn e = false → x &&& 0x0F073F01 = x → bit x 0 = true →
      exec (.endpointEnable e v) s = .next ((s.oSet (0x2C00 + e) 1 x).modEp e (fun _ => {}))) ∧
    (6 ≤ fld x 8 5 → fld x 8 5 ≤ 20 → bit x 0 = false → s.ringEn c st = false → x &&& 0x31F07 = x →
      exec (.streamEnable c st v) s = .next (s.coSet c (0x19 + 5 * st) x)) ∧
    (6 ≤ fld x 8 5 → fld x 8 5 ≤ 20 → bit x 0 = true → s.ringEn c st = false → x &&& 0x31F07 = x →
      s.rbFits (s.streamsOn.length + 1) (s.o 0x2410 1) = true →
      exec (.streamEnable c st v) s = .next ((s.coSet c (0x19 + 5 * st) x).streamReset c st).afterReq.settle ∧
      Leads (.streamEnable c st v) s (fun u => u.ringEn c st = true ∧ u.redir c st = false ∧ u.rfault c st = false ∧
        (u.st c st).tail = 0 ∧ (u.st c st).head = 0 ∧ (u.st c st).prod = 0 ∧ (u.st c st).rcons = 0 ∧ (u.st c st).fills = 0 ∧ (u.st c st).scred = 0)) ∧
    (let old := s.o 0x2310 0
     let keeps := fun (n : Nat) => if bit old n = true ∧ bit x n = false then 0 else fld old (8 + n) 1
     (bit x 0 = true → bit old 0 = true ∨ bit old 8 = true) → (bit x 1 = true → bit old 1 = true ∨ bit old 9 = true) → x < 4 →
     exec (.cacheEnable v) s = .next (s.oSet 0x2310 0 (x + keeps 0 * 256 + keeps 1 * 512)))

/-- R67, R253, R262: a CANCEL of a context without one in progress cancels the streams of its mask: the entries up to TAIL are to be completed with CANCELLED, as is a query that waits in a bin, which goes to the Hem;
writing 1 to REDIR or RFAULT of a stream in that state clears it, and after RFAULT the failed ring entry with every later one waits to be written again. -/
def Obligations.StreamCommands : Prop :=
  (∀ (s : State) (c : Nat) (mask : Byte),
     s.live = true → s.ring.after = 0 → c < 64 → s.cancelling c = false →
     exec (.cancel c mask) s = .next (s.cancel c mask.toNat).afterReq.settle ∧
     (s.slot = [] → ∀ st, st < 8 → bit mask.toNat st = true →
       ((s.cancel c mask.toNat).st c st).cancelTo = if (s.st c st).next = (s.st c st).tail then none else some (s.st c st).tail) ∧
     (s.slot = [] → Leads (.cancel c mask) s (fun u => ∀ st, st < 8 → bit mask.toNat st = true →
       (u.st c st).cancelTo = if (s.st c st).next = (s.st c st).tail then none else some (s.st c st).tail)) ∧
     (∀ k q, s.slot = [(k, q)] → q.place = .binned → q.served = none → q.qr.ctx = c → q.qr.stream < 8 → bit mask.toNat q.qr.stream = true →
       Leads (.cancel c mask) s (fun u => (u.q k).place = .hem ∧ ((u.st c q.qr.stream).hem.getLast?.map (fun i => (i.slot, i.seq, i.status, i.terminal))) = some (k, q.qr.seq, stCancelled, true)))) ∧
  (∀ (s : State) (c st : Nat),
     s.live = true → s.ring.after = 0 → c < 64 → st < 8 → s.resCtrl c st &&& 0x31F03 = s.resCtrl c st →
     (s.redir c st = true → Leads (.redir c st) s (fun u => u.redir c st = false ∧ u.rfault c st = s.rfault c st)) ∧
     (s.rfault c st = true → Leads (.rfault c st) s (fun u => u.rfault c st = false ∧ u.redir c st = s.redir c st ∧ (u.st c st).ringFail = none ∧
       (∀ p, (s.st c st).ringFail = some p → (s.st c st).retry = [] → (u.st c st).retry =
         ((s.st c st).ringOut.map (fun y => y.1)).filter (fun y => decide ((p - (s.st c st).prod).toNat ≤ (y - (s.st c st).prod).toNat))))))

/-- R98: LOAD of a free handle reads its index-table entry, REFIT_BEGIN holds a live handle back, a holding handle without queries in flight becomes HELD, DROP frees a
held handle, and REFIT_END copies the handle's pinned part again. -/
def Obligations.IndexCommands : Prop :=
  ∀ (s : State) (c h : Nat),
    s.live = true → s.ring.after = 0 → c < 64 → s.co c 9 = h → h < 4096 → s.co c 8 ≠ 1 → (s.hndOf h).loading = none →
    ((s.hndOf h).state = 0 → (s.hndOf h).phase = 0 → s.co c 0xA % 64 = 0 →
      exec (.idxLoad c) s = .next ((((s.coSet c 8 1).modHnd h (fun x => { x with loading := some c })).startJob (.idxImage c h) c (s.co c 0xA) 128 .rd noWhat).afterReq).settle) ∧
    ((s.hndOf h).owner = c →
      ((s.hndOf h).state = 1 → Leads (.refitBegin c) s (fun u => (u.hndOf h).state = 2 ∧ u.co c 8 = 1)) ∧
      ((s.hndOf h).state = 2 → s.inflight h = 0 → Leads (.refitHeld h) s (fun u => (u.hndOf h).state = 3 ∧ u.co c 8 = 0)) ∧
      ((s.hndOf h).state = 3 → s.heldOf h = [] → Leads (.drop c) s (fun u => u.hndOf h = {} ∧ u.co c 8 = 0)) ∧
      ((s.hndOf h).state = 3 → s.co c 0xA % 256 = 0 → s.co c 0xB % 256 = 0 → 
        ∃ v : State, exec (.refitEnd c) s = .next (v.startCopy h c 2).afterReq.settle ∧ v.hnd = s.hnd ∧ v.co c 8 = 1))

/-- R220, R300 to R302, R317, R319, R321, R394, R426: IMG_LOAD of an enabled context waits for the engines; APPLY of an idle tile and SHIFT take sizes that fit and have the Lining cache flushed; the maintenance
commands start their operation and read busy, and UNLOCK of all scope unlocks the one line that is locked; READMIT of a Bobbin answers 0 and leaves a log without its withdrawals; STAGE gives the verdict on the image, and
an image that passes stands staged with its version. -/
def Obligations.TileCommands : Prop :=
  ∀ (s : State),
    s.run = true → s.still = true →
    (s.o 0x2500 3 ≠ 1 → s.o 0x2500 1 < 64 → s.ctxEn (s.o 0x2500 1) = true →
      exec .imgLoad s = .next ((s.oSet 0x2500 3 1).modTile (fun t => { t with imgStep := 1 }))) ∧
    (s.o 0x2300 6 ≠ 1 → s.idle = true → partCheck s.staged (s.o 0x2300 8) = 0 →
      exec .apply s = .next (((s.oSet 0x2300 6 1).modTile (fun t => { t with partOp := some (true, s.staged) })).lcFlush).afterReq.settle ∧
        Leads .apply s (fun u => u.o 0x2300 6 = 1 ∧ u.tile.partOp = some (true, s.staged))) ∧
    (s.o 0x2300 6 ≠ 1 → partCheck s.staged (s.o 0x2300 8) = 0 → s.staged.park = s.part.park → s.staged.bin = s.part.bin → s.staged.rb = s.part.rb →
      s.staged.pin + s.staged.lc = s.part.pin + s.part.lc → s.lcMaint = false →
      exec .shift s = .next ((s.oSet 0x2300 6 1).shiftGo s.staged).afterReq.settle ∧
        Leads .shift s (fun u => u.o 0x2300 6 = 1 ∧ u.tile.partOp = some (false, s.staged))) ∧
    (s.o 0xF010 1 ≠ 1 → s.mtCheck = 0 →
      let busy := fun (u : State) (op : Nat) => u.o 0xF010 1 = 1 ∧ u.tile.maint.map (fun m => (m.op, m.word)) = some (op, s.o 0xF010 2)
      (s.mtOp = 1 → exec .clean s = .next ((s.mtSweep true false).1.mtBegin (s.mtSweep true false).2 s.mtFills).afterReq.settle ∧ Leads .clean s (fun u => busy u 1)) ∧
      (s.mtOp = 2 → exec .invalidate s = .next ((s.mtSweep false true).1.mtBegin (s.mtSweep false true).2 s.mtFills).afterReq.settle ∧ Leads .invalidate s (fun u => busy u 2)) ∧
      (s.mtOp = 3 → exec .cleanInvalidate s = .next ((s.mtSweep true true).1.mtBegin (s.mtSweep true true).2 s.mtFills).afterReq.settle ∧ Leads .cleanInvalidate s (fun u => busy u 3)) ∧
      (s.mtOp = 4 → Leads .lock s (fun u => busy u 4)) ∧
      (s.mtOp = 5 → s.nc = [] → Does .mtUnlock s (fun t => t.o 0xF010 1 = 1 ∧ t.o 0xF010 7 = 0)) ∧
      (∀ b set w, s.mtOp = 5 → s.mtScope = 3 → s.mtTarget = 0 → s.mtBobs.contains b = true → set < 1024 → s.nc = [(b * 1024 + set, { ways := [w] })] → w.locked = true → w.valid ≠ 0 →
        Does .mtUnlock s (fun t => t.o 0xF010 1 = 1 ∧ t.o 0xF010 7 = 1 ∧ tget {} t.nc (b * 1024 + set) = { ways := [{ w with locked := false }] })) ∧
      (s.mtOp = 6 → exec .lockIndex s = .next (State.lockNext 65536 ((s.mtBegin 0 []).modMaint (fun m => { m with refs := [((s.hndOf m.handle).root, 0)] }))).afterReq.settle ∧
        Leads .lockIndex s (fun u => busy u 6))) ∧
    (s.o 0x7010 6 < 48 → Leads (.readmit 1) s (fun u => u.o 0x7010 7 = 0 ∧ (s.ring.storeBad = false → u.seg 4 = (s.oSet 0x7010 7 0).wdSeg (s.o 0x7010 6) 0 0 0))) ∧
    (∀ n, s.ring.fwLen = some n →
      let r := Config.imageVerdict s.ring.fwBytes n
      exec .stage s = .next (if r.1 = 0 then (s.oSet 0xF020 2 0).oSet 0xF020 3 r.2.toNat else s.oSet 0xF020 2 r.1))

/-- R220, R301, R305, R319: what ends these operations: the image header is read when no engine runs; a pinned handle that is short is copied on to the end of its unit, or of one more; a
clean or invalidation with no write-back and no fill that it reached outstanding is done, and MT_CMD reads 0; the sizes of a change whose write-backs are done and whose lines are gone are in force. -/
def Obligations.TileOperationsEnd : Prop :=
  ∀ (s : State),
    s.live = true →
    (s.tile.imgStep = 1 → s.bstBusy = false → exec .imgWrite s =
      .next ((s.modTile (fun t => { t with imgStep := 2 })).startJob .bstHeader (s.o 0x2500 1) (s.o 0x2500 2) 64 .rd noWhat).settle) ∧
    (∀ e : Nat × Handle, (e.2.rlen < 65536 * e.2.units ∨ s.pinFree ≠ 0) → s.hnd = [e] → (e.2.state = 1 ∨ e.2.state = 3) → e.2.rlen < e.2.pinLen → e.2.extended = false →
      e.2.copying = false → e.2.phase = 0 → exec .pinExtend s =
        .next ((s.modHnd e.1 (fun x => { x with units := if e.2.rlen < 65536 * e.2.units then e.2.units else e.2.units + 1, phase := 3, extended := true })).pinCopy e.1 e.2.rlen
          (min e.2.pinLen (65536 * (e.2.rlen / 65536 + 1)) - e.2.rlen)).settle) ∧
    (∀ m, s.tile.maint = some m → m.op < 4 → m.todo = [] → m.refs = [] → m.reading = false → m.fills.any s.mtFilling = false → s.lcBacksOut true = 0 →
      Leads .maintDone s (fun u => u.tile.maint = none ∧ u.o 0xF010 1 = 0 ∧ bit (u.o 0x5200 1) 0 = true)) ∧
    (∀ change p, s.tile.partOp = some (change, p) → s.lcBacksOut = 0 → s.lc.all (fun e => e.2.ways.isEmpty) = true →
      Leads .partDone s (fun u => u.part = p ∧ u.o 0x2300 6 = 0 ∧ u.lc = [] ∧ bit (u.o 0x5200 1) 1 = true ∧ (change = true → u.hnd = [] ∧ u.slot = [] ∧ u.pin = [] ∧ u.tile.bins = [])))


/-! ## The ring (R400 to R425) -/

/-- R400, R403, R407 to R410, R420: an intact frame of another type, or for another member, is relayed as it came; the tile's own is stripped; a faulty one is counted and goes no further; a
closed bypass receives nothing; it opens on an unaddressed tile, which announces itself; held events go out again in order until acknowledged, each with those before it. -/
def Obligations.RingFrames : Prop :=
  (∀ (s : State) (f : RingFrame) (why : RxFault),
     (s.ring.bypassOpen = false → exec (.relay f) s = .next s ∧ exec (.frameDiscard why) s = .next s) ∧
     (s.ring.bypassOpen = true → s.pwr.vddW = true →
       (rxFault f = none → f.dst.toNat ≠ s.addr → f.dst ≠ 0xFF → (f.src.toNat ≠ s.addr ∨ s.addr = 0xFE) →
         exec (.relay f) s = .next { s with out := .ring f :: s.out }) ∧
       (rxFault f = none → f.dst.toNat ≠ s.addr → f.dst ≠ 0xFF → f.src.toNat = s.addr → s.addr ≠ 0xFE → exec (.relay f) s = .next s) ∧
       (rxFault f = none → f.dst = 0xFF → 4 ≤ f.ftype.toNat → (f.src.toNat ≠ s.addr ∨ s.addr = 0xFE) → s.addr ≠ 0xFF →
         exec (.relay f) s = .next { s.oInc 0x1100 4 with out := .ring f :: s.out }) ∧
       exec (.frameDiscard why) s = .next (s.oInc 0x1100 (if why = .crc then 6 else 7)))) ∧
  (∀ (s : State) (eseq : BitVec 16) (ev : BitVec 16 × List Byte) (before rest : List (BitVec 16 × List Byte)),
     s.pwr.vddW = true →
     (s.ring.bypassOpen = true → s.addr = 0xFE → Does .announce s (fun t => t.out = .ring (sealFrame (announceFrame s)) :: s.out ∧ t.ring = s.ring ∧ t.addr = 0xFE)) ∧
     (s.ring.bypassOpen = true → s.addr ≠ 0xFE → exec .announce s = .next s) ∧
     (s.ring.bypassOpen = false → s.pwr.pwrok = true → s.pwr.rstN = true → Does .bypassOpen s (fun t => t.ring.bypassOpen = true ∧ t.addr = 0xFE ∧ t.out ≠ s.out)) ∧
     (s.ring.bypassOpen = true → exec .bypassOpen s = .next s) ∧
     (s.ring.events = [ev] → s.ring.bypassOpen = true → s.addr < 64 → s.o 0x1120 1 ≠ 0xFF →
       Does .evtResend s (fun t => t.out = .ring (sealFrame (eventFrame s ev)) :: s.out ∧ t.ring.events = [ev])) ∧
     exec .evtResend s = .next s.sendHeld ∧
     (s.pstate ≠ 0 → s.ring.events = before ++ ev :: rest → ev.1 = eseq → (∀ e, e ∈ before → e.1 ≠ eseq) →
       Does (.evtAck eseq) s (fun t => t.ring.events = rest ∧ t.o 0x1120 2 = eseq.toNat)) ∧
     (s.pstate ≠ 0 → (∀ e, e ∈ s.ring.events → e.1 ≠ eseq) → exec (.evtAck eseq) s = .next s))

/-- R409, R410, R418, R420: an ENUM gives the tile the address NEXT and is passed on with NEXT + 1; it clears MEMBERS, the vendor unlock and the duplicate table and keeps the held
events. One that would give an address above 63 is passed on as it came and leaves the tile unaddressed. The master's MEMBERS write is taken without a RESP. -/
def Obligations.Enumeration : Prop :=
  ∀ (s : State) (f : RingFrame) (v : Byte),
    s.ring.bypassOpen = true → s.pwr.vddW = true → s.still = true → rxFault f = none → f.dst = 0xFF → (f.src.toNat ≠ s.addr ∨ s.addr = 0xFE) → f.data = [v] →
    (f.ftype = 1 → Does (.ringEnum f) s (fun t =>
      t.o 0x1100 3 = 0 ∧ t.o 0x1220 3 = 0xFF ∧ t.ring.dup = [] ∧ t.ring.events = s.ring.events ∧ t.o 0x1120 3 = s.o 0x1120 3 ∧
      t.o 0x1100 4 = (s.o 0x1100 4 + 1) % 2 ^ 64 ∧
      (v.toNat ≤ 63 → t.addr = v.toNat ∧ (s.ring.events = [] → s.ring.store = none → s.ring.vreg = none →
        t.out = .ring (sealFrame { f with data := [v + 1] }) :: s.out)) ∧
      (63 < v.toNat → t.addr = 0xFE ∧ t.out = .ring f :: s.out))) ∧
    (f.ftype = 3 → f.index = 0x1100 → f.sub = 3 → f.src = 0 → f.len = 1 → s.addr ≠ 0xFE → exec (.ringMembers f) s =
      .next { (s.oInc 0x1100 4).oSet 0x1100 3 v.toNat with out := .ring f :: s.out })

/-- R413 to R415: a request for the tile is served, answered with its STAT and data, counted, and its answer kept for its source; the same source and TID again get the kept answer and
nothing is executed; with the queue full the answer is 0x84. A READ of an object gives its value, and a WRITE of EVT_RESEND stores a value from 1 to 10,000 and refuses another. -/
def Obligations.RingRequests : Prop :=
  ∀ (s : State) (f : RingFrame),
    s.ring.bypassOpen = true → s.pwr.vddW = true → rxFault f = none → s.addr < 64 → f.dst.toNat = s.addr → f.src.toNat ≠ s.addr →
    let s1 := s.oInc 0x1100 4
    let src := f.src.toNat
    (∀ g, s.ring.dup.find? (fun d => d.1 == src && d.2.1 == f.tid.toNat) = some (src, f.tid.toNat, g) →
      (f.ftype = 2 → exec (.ringRead f) s = .next ((s1.oInc 0x1100 0xB).sendRing g).settle) ∧
      (f.ftype = 3 → exec (.ringWrite f) s = .next ((s1.oInc 0x1100 0xB).sendRing g).settle)) ∧
    (s.ring.dup.find? (fun d => d.1 == src && d.2.1 == f.tid.toNat) = none → s.still = true →
      (f.ftype = 2 → exec (.ringRead f) s = .next (s1.serveRing f).settle) ∧
      (f.ftype = 2 → ∀ row v n, objRow? f.index.toNat f.sub.toNat = some row → row.ty = .u n → ¬(f.sub.toNat = 0 ∧ 0 < objTop f.index.toNat) →
        row.lvl ≤ s.level (.ring src) → (alwaysOn f.index.toNat = true ∨ 3 ≤ s.pstate) → f.offset = 0 → (f.len = 0 ∨ f.len.toNat = row.ty.size) →
        s1.dictRead row f.index.toNat f.sub.toNat = (v, s1) → Does (.ringRead f) s (fun t =>
          t.out = .ring (sealFrame (respTo s f 0 (toBytes row.ty.size v))) :: s.out ∧ t.o 0x1100 5 = (s.o 0x1100 5 + 1) % 2 ^ 64)) ∧
      (f.ftype = 3 → f.index = 0x1120 → f.sub = 6 → f.offset = 0 → f.len = 2 → f.fflags = 1 → 1 ≤ s.level (.ring src) → Does (.ringWrite f) s (fun t =>
        let v := ofBytes f.data % 65536
        (1 ≤ v ∧ v ≤ 10000 → t.o 0x1120 6 = v ∧ t.out = .ring (sealFrame (respTo s f 0 [])) :: s.out) ∧
        (¬(1 ≤ v ∧ v ≤ 10000) → t.o 0x1120 6 = s.o 0x1120 6 ∧ t.out = .ring (sealFrame (respTo s f 0x83 [])) :: s.out)))) ∧
    (s.ring.dup.find? (fun d => d.1 == src && d.2.1 == f.tid.toNat) = none → 8 ≤ s.ring.queue.length →
      (f.ftype = 2 → exec (.ringRead f) s = .next ((s1.oInc 0x1100 8).sendRing (respTo s f 0x84 [])).settle) ∧
      (f.ftype = 3 → exec (.ringWrite f) s = .next ((s1.oInc 0x1100 8).sendRing (respTo s f 0x84 [])).settle))

/-- R420, R421, R423: a RESP with the TID of the outstanding request, from its destination, is its answer, whose STAT 0 alone is a success: a set point confirmed is VDD_SET and is relied on
after VSETTLE. A request without an answer is counted and sent again with its TID until PEER_RETRY is used up, and has then failed. -/
def Obligations.PeerRequests : Prop :=
  ∀ (s : State) (f : RingFrame) (q : PeerReq),
    s.ring.bypassOpen = true → s.pwr.vddW = true → s.addr < 64 →
    (rxFault f = none → f.dst.toNat = s.addr → f.src.toNat ≠ s.addr → f.ftype = 4 → q.tid = f.tid → q.dst = f.src →
      (s.ring.store = some q → exec (.ringResp f) s = .next ((s.oInc 0x1100 4).storeAnswer q (f.stat == 0) f.data).settle) ∧
      (s.ring.store = none → s.ring.vreg = some q → exec (.ringResp f) s = .next ((s.oInc 0x1100 4).vregAnswer q (f.stat == 0)).settle) ∧
      (s.ring.store = none → s.ring.vreg = some q → f.stat = 0 → Leads (.ringResp f) s (fun u =>
        u.ring.vreg = none ∧ u.o 0x4000 6 = q.mv ∧ u.pwr.settling = true ∧ u.pwr.nvConf = (q.mv - Config.vf) / 5))) ∧
    (s.ring.store = some q → q.retries < s.o 0x1110 7 → Leads (.peerTimeout .store) s (fun u =>
      u.ring.store = some { q with retries := q.retries + 1 } ∧ u.o 0x1100 9 = (s.o 0x1100 9 + 1) % 2 ^ 64 ∧ u.out = .ring (sealFrame (peerFrame s q)) :: s.out)) ∧
    (s.ring.vreg = some q → q.retries < s.o 0x1110 7 → Leads (.peerTimeout .vreg) s (fun u =>
      u.ring.vreg = some { q with retries := q.retries + 1 } ∧ u.o 0x1100 9 = (s.o 0x1100 9 + 1) % 2 ^ 64 ∧ u.out = .ring (sealFrame (peerFrame s q)) :: s.out)) ∧
    (s.ring.store = some q → s.o 0x1110 7 ≤ q.retries → exec (.peerTimeout .store) s = .next ((s.oInc 0x1100 9).storeAnswer q false []).settle) ∧
    (s.ring.vreg = some q → s.o 0x1110 7 ≤ q.retries → exec (.peerTimeout .vreg) s = .next ((s.oInc 0x1100 9).vregAnswer q false).settle)

/-- R402, R411, R413, R417, R418: RING_RST, a restart of the Tailor's firmware and a loss of lock reset the ring interface: the bypass closes, the address, the duplicate table and the vendor unlock
are gone, and RING_RESETS counts; a partial DOMAIN write is dropped after 10 ms; a verified UNLOCK gives the vendor level, and a record that fails gives none. -/
def Obligations.RingResetsAndUnlock : Prop :=
  ∀ (s : State) (why : RingLoss) (index : BitVec 16) (sub : BitVec 8) (record : BitVec 832),
    s.pwr.vddW = true → s.pstate ≠ 0 → s.ring.after = 0 →
    let cleared := fun (u : State) => u.ring.bypassOpen = false ∧ u.addr = 0xFE ∧ u.ring.dup = [] ∧ u.o 0x1220 3 = 0xFF ∧
      u.o 0x1100 0xA = (s.o 0x1100 0xA + 1) % 2 ^ 32
    (s.ring.bypassOpen = true → Does (.ringReset why) s cleared) ∧
    (s.ring.bypassOpen = false → why ≠ .firmware → exec (.ringReset why) s = .next s) ∧
    Leads (.ringRst 1) s cleared ∧
    (∀ code : Byte, code ≠ 1 → exec (.ringRst code) s = .next s.settle) ∧
    exec (.domainWriteTimeout index sub) s = .next (s.modRing (fun r => { r with domW := r.domW.filter (fun d => d.key != okey index.toNat sub.toNat) })) ∧
    (s.ring.domW = [] → Leads (.unlock record) s (fun u =>
      (Config.unlockVerifies (putBytes record.toNat 1 7 0) s.challenge = true → record.toNat % 256 < 64 →
        u.o 0x1220 3 = record.toNat % 256) ∧
      (Config.unlockVerifies (putBytes record.toNat 1 7 0) s.challenge = false → u.o 0x1220 3 = s.o 0x1220 3 ∧ bit (u.o 0x5800 1) 2 = true)))


/-! ## Memory and host ports (R338 to R349) -/

/-- R339, R340, R343, R344: the last or only CPLD of a read releases its tag with its REQ credits and hands its data on, and a CPL releases a write, which has been made if its status is OK; a completion for a tag that
is not outstanding raises LATE_CPL, and a malformed packet BAD_PKT; neither changes a tag. -/
def Obligations.PortCompletions : Prop :=
  ∀ (s : State) (p : Nat) (hdr : BitVec 256) (data : BitVec 512) (r : PReq),
    s.portUp p = true →
    let h := hdr.toNat
    let tag := pktTag h
    (pktBad h 9 = false → (s.portOf p).rds.find? (fun e => e.1 == tag) = some (tag, r) → r.big = false → r.left = 1 → r.err = false →
      (pktStat h = 0 → exec (.cpld p hdr data) s = .next
        ((((s.modPort p (fun ps => { ps.reqBack r with rds := tdel ps.rds tag })).oAdd (0x4400 + p) 5 64).sectorIn p r 0 data.toNat true).drainAfter s p).settle) ∧
      (pktStat h ≠ 0 → exec (.cpld p hdr data) s = .next
        (((s.modPort p (fun ps => { ps.reqBack r with rds := tdel ps.rds tag })).failReq p { r with left := 0, err := true }).drainAfter s p).settle)) ∧
    (pktBad h 9 = false → (s.portOf p).rds.find? (fun e => e.1 == tag) = some (tag, r) → r.big = true → bit r.left (pktSect h) = true → r.left ≠ 2 ^ pktSect h → pktStat h = 0 → r.err = false →
      let kept := { r with left := r.left - 2 ^ pktSect h, jobs := r.jobs.filter (fun j => j.2.1 != pktSect h) }
      exec (.cpld p hdr data) s = .next ((((s.modPort p (fun ps => { ps with rds := tins (tdel ps.rds tag) tag kept })).oAdd (0x4400 + p) 5 64).sectorIn p r (pktSect h) data.toNat false).drainAfter s p).settle) ∧
    (pktBad h 8 = false → (s.portOf p).wrs.find? (fun e => e.1 == tag) = some (tag, r) →
      (pktStat h = 0 → r.wp = none → exec (.cpl p hdr) s = .next ((s.modPort p (fun ps => { ps.reqBack r with wrs := tdel ps.wrs tag })).drainAfter s p).settle) ∧
      (∀ w, pktStat h = 0 → r.wp = some w → exec (.cpl p hdr) s = .next
        (State.drainAfter { s.modPort p (fun ps => { ps.reqBack r with wrs := tdel ps.wrs tag }) with due := s.due ++ [.wrote r.ctx w false] } s p).settle) ∧
      (pktStat h ≠ 0 → exec (.cpl p hdr) s = .next
        (((s.modPort p (fun ps => { ps.reqBack r with wrs := tdel ps.wrs tag })).failReq p r (pktStat h == 3)).drainAfter s p).settle)) ∧
    (pktBad h 9 = false → (s.portOf p).rds.find? (fun e => e.1 == tag) = none → Leads (.cpld p hdr data) s (fun u =>
      bit (u.o (0x5300 + p) 1) 2 = true ∧ (u.portOf p).rds = (s.portOf p).rds)) ∧
    (pktBad h 8 = false → (s.portOf p).wrs.find? (fun e => e.1 == tag) = none → Leads (.cpl p hdr) s (fun u =>
      bit (u.o (0x5300 + p) 1) 2 = true ∧ (u.portOf p).wrs = (s.portOf p).wrs)) ∧
    (pktBad h 9 = true → Leads (.cpld p hdr data) s (fun u => bit (u.o (0x5300 + p) 1) 0 = true ∧ (u.portOf p).rds = (s.portOf p).rds)) ∧
    (pktBad h 8 = true → Leads (.cpl p hdr) s (fun u => bit (u.o (0x5300 + p) 1) 0 = true ∧ (u.portOf p).wrs = (s.portOf p).wrs))

/-- R338, R344, R349: a request without a completion is completed as an error and raises CPL_TIMEOUT; a lane fault has a FULL port retrain at x32, and a HALF port fail; a retrain that
completes leaves HALF with WIDTH_HALF raised, and one that does not fails the port; a FAILED port holds no request, and a memory port with REROUTE set becomes REROUTED. -/
def Obligations.PortFaults : Prop :=
  ∀ (s : State) (p m : Nat) (wr : Bool) (tag : BitVec 12) (r : PReq),
    s.live = true → p < 48 → m < portModules p → 
    let gone := fun (u : State) => (u.portOf p).rds = [] ∧ (u.portOf p).wrs = [] ∧ (u.portOf p).retrain = false ∧ bit (u.o (0x5300 + p) 1) 5 = true ∧
      (if p < 16 ∧ bit (s.o (0x2800 + p) 1) 11 = true then u.lstate p = 4 ∧ bit (u.o (0x5300 + p) 1) 6 = true else u.lstate p = 3)
    let bare := (s.portOf p).rds = [] ∧ (s.portOf p).wrs = [] ∧ (s.portOf p).waiting = [] ∧ (s.portOf p).seamQ = []
    (p < 24 → (if wr then (s.portOf p).wrs else (s.portOf p).rds).find? (fun e => e.1 == tag.toNat) = some (tag.toNat, r) →
      ∃ v : State, exec (.cplTimeout p wr tag) s = .next (((v.raise (0x5300 + p) 1 tag.toNat).failReq p r).drainAfter s p).settle ∧
        (v.portOf p).wrs = (if wr then tdel (s.portOf p).wrs tag.toNat else (s.portOf p).wrs) ∧ (v.portOf p).rds = (if wr then (s.portOf p).rds else tdel (s.portOf p).rds tag.toNat) ∧
        (wr, tag.toNat) ∈ (v.portOf p).forced ∧ v.obj = s.obj) ∧
    (p < 24 → (if wr then (s.portOf p).wrs else (s.portOf p).rds).find? (fun e => e.1 == tag.toNat) = none → exec (.cplTimeout p wr tag) s = .next s.settle) ∧
    ((s.portOf p).retrain = false →
      (s.lstate p = 1 → Leads (.laneFault p m) s (fun u => u.lstate p = 1 ∧ (u.portOf p).retrain = true ∧ (u.portOf p).faulty = m ∧ u.obj = s.obj)) ∧
      (s.lstate p = 2 → exec (.laneFault p m) s = .next (s.portFail p m).settle) ∧
      (s.lstate p = 2 → bare → Leads (.laneFault p m) s gone) ∧
      ((s.lstate p = 0 ∨ 3 ≤ s.lstate p) → exec (.laneFault p m) s = .next s.settle)) ∧
    ((s.portOf p).retrain = true →
      (let v := ((s.oSet (0x4400 + p) 1 2).modPort p (fun ps => { ps with retrain := false, faulty := 0 })).raise (0x5300 + p) 4 (s.portOf p).faulty
       v.lstate p = 2 ∧ (v.portOf p).retrain = false ∧ bit (v.o (0x5300 + p) 1) 4 = true ∧
       (p < 24 → exec (.retrainDone p) s = .next (v.drainPort p).settle) ∧
       (24 ≤ p → exec (.retrainDone p) s = .next (v.seamDrain (p - 24)).settle)) ∧
      exec (.retrainTimeout p m) s = .next (s.portFail p m).settle ∧
      (bare → Leads (.retrainTimeout p m) s gone))

/-! ## Seam frames and migration (R353 to R366) -/

/-- R354 to R357, R361, R364: a frame returns credits and is discarded with MIG_STALE when malformed or for another tile; CREDIT and MAINT_ACK do nothing else; MIGVEC keeps its bytes of the
vector; MAINT of a trusted tile writes its object of the context and is acknowledged, and any other is refused with 0x80. Nothing arrives on a port that is not up. -/
def Obligations.SeamArrival : Prop :=
  (∀ (s : State) (sp : Nat) (f : SeamFrame),
     s.run = true →
     let s1 := s.seamCredits sp f
     let bad := f.bad = true ∨ f.dst ≠ s.tileNo
     let stale := Host.Outcome.next (s1.migStale sp f).settle
     (s.seamUp sp = false → exec (.credit sp f) s = .next s.settle ∧ exec (.migrate sp f) s = .next s.settle) ∧
     (s.seamUp sp = true →
       ((s.portOf (24 + sp)).seamQ = [] → (s1.portOf (24 + sp)).credN = (s.portOf (24 + sp)).credN + f.crn ∧ (s1.portOf (24 + sp)).credE = (s.portOf (24 + sp)).credE + f.cre ∧
         s1.obj = s.obj ∧ s1.slot = s.slot ∧ s1.mig = s.mig ∧ s1.tile = s.tile ∧ s1.out = s.out) ∧
       (bad → exec (.migrate sp f) s = stale ∧ exec (.migvec sp f) s = stale ∧ exec (.result sp f) s = stale ∧ exec (.recs sp f) s = stale ∧
         exec (.maint sp f) s = stale ∧ exec (.maintAck sp f) s = stale ∧ exec (.credit sp f) s = stale ∧
         bit ((s1.migStale sp f).o (0x5300 + 24 + sp) 1) 9 = true ∧ (s1.migStale sp f).o 0x4440 6 = (s1.o 0x4440 6 + 1) % 2 ^ 64) ∧
       (¬bad → exec (.credit sp f) s = .next s1.settle ∧ exec (.maintAck sp f) s = .next s1.settle ∧
         exec (.migvec sp f) s = .next (s1.migvecIn f).settle ∧
         (s.tile.migVec = [] → bytesAt (tget 0 (s1.migvecIn f).tile.migVec (vecKey f)) (f.arg0 % 65536) f.plen = bytesAt f.payload 0 f.plen)))) ∧
  (∀ (s : State) (sp : Nat) (f : SeamFrame),
     s.run = true → s.seamUp sp = true → f.bad = false → f.dst = s.tileNo →
     let s1 := s.seamCredits sp f
     let c := fld f.arg0 0 6
     let o := fld f.arg0 8 6
     let trusted := bit (s1.o 0x2700 7) f.src = true
     ((¬trusted ∨ o < 8 ∨ 0xB < o) → exec (.maint sp f) s = .next (s1.maintAck f.src f.migid 0x80).settle) ∧
     (trusted → o = 9 → f.arg1 < 4096 → exec (.maint sp f) s = .next ((s1.coSet c 9 f.arg1).maintAck f.src f.migid 0).settle) ∧
     (trusted → (o = 0xA ∨ o = 0xB) → exec (.maint sp f) s = .next ((s1.coSet c o f.arg1).maintAck f.src f.migid 0).settle) ∧
     (trusted → o = 8 → f.arg1 = 1 → (s1.ctxOf c).maintFrom = none → s1.co c 8 ≠ 1 → (s1.hndOf (s1.co c 9 % 4096)).state = 0 → (s1.hndOf (s1.co c 9 % 4096)).phase = 0 → (s1.hndOf (s1.co c 9 % 4096)).loading = none → s1.co c 0xA % 64 = 0 →
       exec (.maint sp f) s = .next ((((s1.modCtx c (fun x => { x with maintFrom := some (f.src, f.migid) })).coSet c 8 1).modHnd (s1.co c 9 % 4096) (fun x =>
         { x with loading := some c })).startJob (.idxImage c (s1.co c 9 % 4096)) c (s1.co c 0xA) 128 .rd noWhat).settle))

/-- R27, R72, R94, R359, R366: a MIGRATE whose handle is free or not distributed, or whose owner is disabled, is answered MIGRATION_FAULT, one whose ROOT is no reference FORMAT_FAULT, one that finds its class or parking
full BUSY and counted; otherwise the MIGRATE is served: it is counted, and its query takes the lowest free slot under the owner context and is binned, with the stub's ROOT, level, path and hop count that came with it. -/
def Obligations.ServingAMigration : Prop :=
  ∀ (s : State) (sp : Nat) (f : SeamFrame),
    s.run = true → s.seamUp sp = true → f.bad = false → f.dst = s.tileNo →
    let s1 := s.seamCredits sp f
    let hn := f.routew % 4096
    let h := s1.hndOf hn
    let hops := fld f.routew 16 2
    let r := QRec.ofBytes (f.payload % 2 ^ 512)
    let absent := h.state = 0 ∨ s1.ctxEn h.owner = false ∨ h.distrib = false
    let rootOk := match longRef f.arg0 with | some x => refOk h .stub x | none => false
    let full := s1.o 0x2700 2 ≤ s1.poolUse (fun x => x == hops) ∨ 16777216 ≤ s1.queriesIn ∨ s1.parkUnits ≤ s1.queriesIn
    let back := fun (st : Nat) => ∃ (v : Served) (w : State), v.tile = f.src ∧ v.migid = f.migid ∧ w.slot = s1.slot ∧
      w.o 0x4440 3 = (if st = 1 then (s1.o 0x4440 3 + 1) % 2 ^ 64 else s1.o 0x4440 3) ∧
      exec (.migrate sp f) s = .next (w.answer v 2 st r.trail 0x70 r.bytes hn).settle
    (absent → back stMigration) ∧
    (¬absent → rootOk = false → back stFormat) ∧
    (¬absent → rootOk = true → full → back 1) ∧
    (¬absent → rootOk = true → ¬full → Leads (.migrate sp f) s (fun u =>
      u.o 0x4440 2 = (s1.o 0x4440 2 + 1) % 2 ^ 64 ∧
      let q := u.q s1.freeSlot
      q.place = .binned ∧ q.qr.ctx = h.owner ∧ q.qr.handle = hn ∧ q.qr.trail = r.trail ∧ q.uid = s1.order ∧
      (q.served.map (fun v => (v.tile, v.migid, v.hops))) = some (f.src, f.migid, hops) ∧
      (q.served.map (fun v => (v.root, v.baseLevel, v.rcap))) = some (f.arg0, fld f.routew 12 4, bytesAt f.payload 0x58 4)))

/-- R361, R363, R365: a frame of another generation is stale; BUSY waits for MIG_BACKOFF and is no attempt; records are staged, and a RESULT is applied once its records are in: done, it applies
finish() at the stub's level and bins the query again; with PARTIAL it sends the query again; a fault ends it with MIGRATION_FAULT and MIG_FAULT. An orphan's RESULT frees the entry. -/
def Obligations.MigrationResults : Prop :=
  ∀ (s : State) (sp : Nat) (f : SeamFrame) (m : MigInfo),
    s.run = true → s.seamUp sp = true → f.bad = false → f.dst = s.tileNo →
    let s1 := s.seamCredits sp f
    let e := f.migid % 65536
    let x := s1.migOf e
    let cur := x.used = true ∧ x.gen = f.migid / 65536
    let st := f.arg0 % 256
    (¬cur → exec (.result sp f) s = .next (s1.migStale sp f).settle ∧ exec (.recs sp f) s = .next (s1.migStale sp f).settle) ∧
    (cur → x.orphan = true → exec (.result sp f) s = .next (s1.migFree e).settle ∧ exec (.recs sp f) s = .next s1.settle) ∧
    (cur → x.orphan = false →
      (st = 1 → Leads (.result sp f) s (fun u => (u.migOf e).backoff = true ∧ (u.migOf e).attempts = x.attempts ∧ (u.migOf e).gen = x.gen ∧ u.slot = s1.slot)) ∧
      (x.res = none → Leads (.recs sp f) s (fun u => (u.migOf e).staged.length = x.staged.length + f.arg0 % 65536 ∧ u.slot = s1.slot)) ∧
      ((st = stDone ∨ st = stTruncated ∨ stWindow ≤ st) → s1.mending (s1.q x.slot).qr.ctx = false → x.staged.length < f.arg0 / 2 ^ 32 →
        Leads (.result sp f) s (fun u => (u.migOf e).res = some f ∧ u.slot = s1.slot)) ∧
      (f.arg0 / 2 ^ 32 ≤ x.staged.length → (st = stDone ∨ st = stTruncated ∨ (stWindow ≤ st ∧ st ≠ stUnrecovered)) →
        exec (.result sp f) s = .next ((s1.modMig e (fun x => { x with res := some f })).applyResult sp e f).settle) ∧
      (x.staged = [] → (s1.q x.slot).mig = some m → (s1.q x.slot).qr.kind = kRayClosest → (s1.q x.slot).qr.trace = false → m.closed = false → f.arg0 / 2 ^ 32 = 0 → st = stDone → bit f.arg0 9 = false →
        ∃ v : State, exec (.result sp f) s = .next (v.insert x.slot 1).settle ∧ (v.migOf e).used = false ∧ (v.migOf e).gen = x.gen ∧ (v.q x.slot).mig = none ∧
          (v.q x.slot).qr.haveHit = (QRec.ofBytes (f.payload % 2 ^ 512)).haveHit ∧ (bit f.arg0 8 = true → (v.q x.slot).remoteHit = { avalid := true, attrs := bytesAt f.payload 0x40 0x30 })) ∧
      (x.staged = [] → (s1.q x.slot).mig = some m → f.arg0 / 2 ^ 32 = 0 → st = stDone → bit f.arg0 9 = true →
        ∃ v : State, exec (.result sp f) s = .next (v.migAgain e).settle ∧ (v.migOf e).subtrail = f.arg1 ∧ (v.migOf e).attempts = 1) ∧
      (x.staged = [] → (s1.q x.slot).mig = some m → f.arg0 / 2 ^ 32 = 0 → stWindow ≤ st → st ≠ stUnrecovered →
        ∃ v : State, exec (.result sp f) s = .next (v.migFault e).settle ∧ bit (v.o (0x5300 + 24 + sp) 1) 8 = true))

/-- R358, R363, R365: a query in the place remote takes the lowest free entry of its class, with a new GEN, and its MIGRATE goes out; without a RESULT it goes out again under the next GEN, and after
MIG_RETRY further attempts it completes with MIGRATION_FAULT; after a BUSY answer it goes out again once MIG_BACKOFF has passed. An orphan entry is freed with its last timeout. -/
def Obligations.MigrationsOut : Prop :=
  ∀ (s : State) (k i : Nat) (m : MigInfo),
    s.run = true →
    let q := s.q k
    let e := 16384 * q.hops + i
    (q.place = .remote → q.kill = none → (s.ctxOf q.qr.ctx).aborting = false → s.migEntry k = none → isMetric q.qr.kind = false → q.mig = some m → q.qr.migRecs = false →
      i < 16384 → (s.migOf e).used = false → (∀ j, j < i → (s.migOf (16384 * q.hops + j)).used = true) →
      ∃ v : State, exec (.migrateSend k) s = .next (v.migOut e).settle ∧ v.slot = s.slot ∧
        v.migOf e = { used := true, ctx := q.qr.ctx, slot := k, gen := ((s.migOf e).gen + 1) % 65536, home := m.home, attempts := 1 }) ∧
    (∀ n : Nat, let x := s.migOf n
      x.used = true →
      (x.orphan = true → Leads (.migTimeout n) s (fun u => if s.o 0x2700 5 ≤ x.attempts then u.migOf n = { gen := x.gen } else u.migOf n = { x with attempts := x.attempts + 1 })) ∧
      (x.orphan = false → x.backoff = false → s.mending (s.q x.slot).qr.ctx = false →
        (x.attempts ≤ s.o 0x2700 5 → Leads (.migTimeout n) s (fun u => u.migOf n =
          { x with attempts := x.attempts + 1, gen := (x.gen + 1) % 65536, staged := [], res := none })) ∧
        (s.o 0x2700 5 < x.attempts → exec (.migTimeout n) s = .next (s.migFault n).settle)) ∧
      (x.orphan = false → x.backoff = true → Leads (.migBackoff n) s (fun u => u.migOf n =
        { x with gen := (x.gen + 1) % 65536, staged := [], res := none, backoff := false }) ∧ exec (.migTimeout n) s = .next s.settle))


/-! ## The Pleater (R40 to R52, R180 to R203) -/

/-- R44, R47, R48, R50 to R52, R67, R180 to R182: one fetch read of at most 16 entries for the next ring in turn; the oldest fetched entry, in its stream's turn, is admitted into a slot and binned, waits where its quota or
a stop holds it, or completes with its status without a slot; a generation descriptor begins when its checks pass and admits its queries one at a time, rings in turn; a parent's continuation block is read once. -/
def Obligations.QueriesIn : Prop :=
  ∀ (s : State) (c st : Nat) (e : Fetched) (rest : List Fetched),
    s.run = true → c < 64 → st < 8 →
    let x := s.st c st
    let r := plainRec c st e.count e.data
    let k := c * 8 + st
    ((s.tile.rrFetch + 1) % 512 = k → s.fetchable c st = true →
      let n := min (min 16 (x.tail - x.fetched).toNat) (min (16384 - x.heldEntries) (2 ^ s.ringLog c st - x.fetched.toNat % 2 ^ s.ringLog c st))
      let cnt := fun (j : Nat) => x.fetched + BitVec.ofNat 32 j
      exec .fetch s = .next ((List.range n).foldl (fun (u : State) j =>
        u.startJob (.fetch c st x.ep (x.bellOf (cnt j)) x.fetched (cnt j)) c (u.co c (0x18 + 5 * st) + 64 * ((cnt j).toNat % 2 ^ s.ringLog c st)) 64 .rd st)
        ((s.modTile (fun t => { t with rrFetch := k })).modSt c st (fun x => { x with
          fetched := cnt n, inFlight := x.inFlight ++ [(x.fetched, n)], bells := x.bells.filter (fun b => cancelled (some b.1) (cnt n)) }))).settle ∧
      Leads .fetch s (fun u => (u.st c st).fetched = cnt n ∧ (u.st c st).inFlight = x.inFlight ++ [(x.fetched, n)])) ∧
    ((∀ a, a < 64 → ∀ b, b < 8 → s.fetchable a b = false) → exec .fetch s = .next s.settle) ∧
    ((s.ctxOf c).aborting = false → x.gen = none → x.old = [] → x.entries = e :: rest → e.count = x.next →
      (s.admitTurn c st = true → ∀ y, e.status = some y → x.cancels e.count = false →
        let s1 := s.slotlessRec { ctx := c, stream := st, seq := e.count } y e.count 0 (unreadRec e.count y)
        exec (.admission c st) s = .next ((if y = stUnrecovered then s1.unrecovered c st else s1).entryDone c st).settle) ∧
      (s.admitTurn c st = true → e.status = none → bit e.data 15 = false → x.cancels e.count = true →
        exec (.admission c st) s = .next ((s.refuse r stCancelled e.count 0).entryDone c st).settle) ∧
      (s.admitTurn c st = true → e.status = none → bit e.data 15 = false → x.cancels e.count = false → s.ctxEn c = true →
        (9 ≤ fld e.data 0 4 → exec (.admission c st) s = .next ((s.refuse r stBadKind e.count 0).entryDone c st).settle) ∧
        (s.plainCheck c st e.data = none → s.mustWait r = true → exec (.admission c st) s = .next s.settle) ∧
        (s.plainCheck c st e.data = none → s.mustWait r = false →
          let a := s.allocate r e.count 0 (if r.trace then bytesAt e.data 0x30 8 else 0) (if r.trace then bytesAt e.data 8 4 else 0) e.bell true
          exec (.admission c st) s = .next ((a.1.insert a.2 4).entryDone c st).settle ∧ a.1.o 0x4300 1 = (s.o 0x4300 1 + 1) % 2 ^ 64 ∧
          Leads (.admission c st) s (fun u => (u.st c st).next = x.next + 1 ∧ (u.st c st).entries = rest ∧ (u.q s.freeSlot).place = .binned ∧ (u.q s.freeSlot).qr.kind = r.kind ∧
            (u.q s.freeSlot).qr.seq = e.count ∧ (u.q s.freeSlot).desc = e.count))) ∧
      (e.status = none → bit e.data 15 = true → x.cancels e.count = true →
        exec (.genBegin c st) s = .next ((s.refuse (genRefusal c st e.count e.data) stCancelled e.count 0).entryDone c st).settle) ∧
      (e.status = none → bit e.data 15 = true → x.cancels e.count = false → s.ctxEn c = true → s.genClash c st e.count = false →
        (∀ y, s.genCheck c st e.data = some y → exec (.genBegin c st) s = .next (((s.checkFault c st y).refuse (genRec c st e.count e.data 0) y e.count 0).entryDone c st).settle) ∧
        (s.genCheck c st e.data = none → fld e.data 0 4 = 2 →
          exec (.genBegin c st) s = .next (s.modSt c st (fun x => { x with gen := some { desc := e.data, s := e.count, ready := true, ord := s.order, count := 1 } })).settle) ∧
        (s.genCheck c st e.data = none → fld e.data 0 4 = 1 →
          exec (.genBegin c st) s = .next ((s.modSt c st (fun x => { x with gen := some { desc := e.data, s := e.count, ready := false, ord := s.order, count := bytesAt e.data 0x1C 4 } })).startJob
            (.shot c st) c (bytesAt e.data 0x10 8) 64 .rd st).settle))) ∧
    ((s.ctxOf c).aborting = false → ∀ g, x.gen = some g → g.ready = true → (s.tile.rrGen + 1) % 512 = k → s.admitTurn c st = true → s.frontWaits c st = false →
      exec .generate s = exec (.admission c st) (s.modTile (fun t => { t with rrGen := k })) ∧
      (g.cancelled = false → (s.genNext c st g).status = none → Leads .generate s (fun u => u.tile.rrGen = k ∧ u.o 0x4300 1 = (s.o 0x4300 1 + 1) % 2 ^ 64 ∧
        (u.q s.freeSlot).place = .binned ∧ (u.q s.freeSlot).qr.kind = (s.genNext c st g).qr.kind ∧ (u.q s.freeSlot).desc = g.s ∧ (u.q s.freeSlot).genN = g.n ∧
        (g.n + 1 < g.count → (u.st c st).gen.map (fun y => y.n) = some (g.n + 1))))) ∧
    (∀ n, (s.q n).place = .parent → (s.q n).contRead = false → exec (.contBuild n) s = .next ((s.modQ n (fun q => { q with contRead := true })).startJob
      (.cont n (s.q n).uid) (s.q n).qr.ctx (s.co (s.q n).qr.ctx (0x1B + 5 * (s.q n).qr.stream)) 64 .rd (s.q n).qr.stream).settle)

/-- R189, R191 to R194, R199 to R201: a bin whose oldest entry has waited RIPE_CYC is ripe; where class 0 has nothing to load, the ripe bin's batch goes to the Bobbin that took the last one while it has room, and each query into
a ray-store entry; class 0 takes an entry at once; entries spill to the context's window in order and are read back oldest first; the hit ratio of 65,536 admissions is latched, and a decision keeps BEST and H_BEST. -/
def Obligations.QueriesOut : Prop :=
  ∀ (s : State) (i k b : Nat) (bin : Bin),
    s.run = true → s.ncOn = true → 
    let c := (s.q k).qr.ctx
    (i < 131072 → (s.binOf i).entries ≠ [] → exec (.binRipe i) s = .next (s.modBin i (fun x => { x with ripe := true }))) ∧
    (s.cl0First = false → s.tile.bins = [(i, bin)] → bin.cls = 1 ∨ bin.cls = 2 ∨ bin.cls = 3 → bin.entries ≠ [] → (∀ j, j ∈ bin.entries → s.releasable j = true ∧ s.need j = .any) → bin.lastBob = some b →
      bin.waitBob = none → bin.entries.length ≤ s.o 0x2400 4 → bin.entries.length ≤ s.freeEnts b → b < 48 → s.mayTake b = true → (s.bobOf b).clock = 0 →
      exec .release s = .next (s.sendBatch i b bin.entries).settle) ∧
    (s.cl0First = false → s.tile.bins = [(i, bin)] → bin.cls = 1 ∨ bin.cls = 2 ∨ bin.cls = 3 → bin.entries = [k] → s.releasable k = true → s.need k = .any → bin.lastBob = some b → bin.waitBob = none →
      (s.q k).qr.cls = bin.cls → 1 ≤ s.o 0x2400 4 → 1 ≤ s.freeEnts b → b < 48 → s.mayTake b = true → (s.bobOf b).clock = 0 → ∀ n, s.findEnt b false = some n →
      Leads .release s (fun u => (u.q k).place = .rayStore b n ∧ (u.ent b n).slot = some k ∧ (u.ent b n).order = s.order ∧ (u.binOf i).entries = [] ∧
        u.o 0x4300 3 = (s.o 0x4300 3 + 1) % 2 ^ 64 ∧ u.o 0x4300 4 = (s.o 0x4300 4 + 1) % 2 ^ 64)) ∧
    (s.tile.bins = [] → exec .release s = .next s.settle) ∧
    (s.cl0Head = some k → s.need k = .any → ∀ held n, s.cl0Target .any = some (b, held) → s.findEnt b held = some n →
      exec .cl0Release s = .next ((s.modTile (fun t => { t with cl0 := t.cl0.filter (fun j => j != k) })).load k b n).settle ∧
      Leads .cl0Release s (fun u => (u.q k).place = .rayStore b n ∧ (u.ent b n).slot = some k ∧ u.tile.cl0.contains k = false)) ∧
    (s.tile.bins = [(i, bin)] → i < 131072 → 2 ≤ bin.chunks → s.occAtLeast (s.o 0x2400 0xB) = true → (∀ j, j ∈ bin.entries.take (bin.chunks / 2 * 128) → (s.q j).qr.ctx = c) → s.spillRoom c = true →
      let old := bin.entries.take (bin.chunks / 2 * 128)
      exec .spill s = .next (old.foldl (fun (u : State) j => if u.spillRoom (u.q j).qr.ctx then (u.spillWhole old j).spillOne j else u)
        (s.modTile (fun t => { t with spilling := true }))).settle) ∧
    (s.occAtLeast (s.o 0x2400 0xB) = false → s.tile.spilling = false → exec .spill s = .next (s.modTile (fun t => { t with spilling := false })).settle) ∧
    (c < 64 → (∀ d, d < 64 → d ≠ c → (s.ctxOf d).spill = []) → (s.ctxOf c).spill.head? = some k → (s.ctxOf c).reloading = false → s.spillUrgent c = false → s.occAtLeast (s.o 0x2400 0xD) = false →
      exec .reload s = .next ((s.modCtx c (fun x => { x with reloading := true })).startJob (.spillRd c k (s.q k).uid) c (s.spillAddr c (s.q k).spillAt) 16 .rw noWhat).settle) ∧
    (65536 ≤ s.tile.sinceInterval → s.o 0x2400 1 ≠ 1 → s.tile.latched = none → s.tile.hits0 + s.tile.misses0 < s.ncTotals.1 + s.ncTotals.2 → s.tile.hits0 ≤ s.ncTotals.1 → s.tile.misses0 ≤ s.ncTotals.2 →
      Does .interval s (fun t => t.tile.latched = some ((s.ncTotals.1 - s.tile.hits0) * 65536 / ((s.ncTotals.1 - s.tile.hits0) + (s.ncTotals.2 - s.tile.misses0))) ∧ t.tile.sinceInterval = s.tile.sinceInterval - 65536)) ∧
    (s.tile.sinceInterval < 65536 → exec .interval s = .next s) ∧
    (∀ h, s.tile.latched = some h → Does .schemeDecision s (fun t => t.tile.latched = none ∧ t.tile.decisions = s.tile.decisions + 1 ∧ t.o 0x4300 0x12 = min t.tile.hBest 65535 ∧
      (s.tile.trial = none → t.tile.hBest = h ∧ t.tile.best = some (s.tile.best.getD (s.o 0x2400 2))) ∧
      (∀ tr, s.tile.trial = some tr → s.tile.hBest + 1024 < h → t.tile.hBest = h ∧ t.tile.best = some tr) ∧
      (∀ tr, s.tile.trial = some tr → h ≤ s.tile.hBest + 1024 → t.tile.hBest = s.tile.hBest ∧ t.tile.best = some (s.tile.best.getD (s.o 0x2400 2))) ∧
      ((s.tile.decisions + 2) % 16 ≠ 0 → t.tile.trial = none)))

/-- R186, R187: a key has 24 bits: the octant in its top three, then the cell of the scheme's level, then the hash of the next item's address; MARK queries have key 0, and the octant of a query
that is no ray is 0. -/
def Obligations.KeysHave24Bits : Prop :=
  ∀ (s : State) (k scheme : Nat) (vec : Option Nat),
    s.keyOf k scheme vec < 2 ^ 24 ∧
    ((s.q k).qr.kind = 0 → s.keyOf k scheme vec = 0) ∧
    ((s.q k).qr.kind ≠ 0 → (scheme = 0 ∨ scheme = 2 ∨ scheme = 4) → s.keyOf k scheme vec / 2 ^ 21 = (s.q k).qr.octant) ∧
    ((s.q k).qr.kind ≠ 0 → (scheme = 0 ∨ scheme = 3 ∨ 4 < scheme) → s.keyOf k scheme vec % 2 ^ 12 = hashW 12 (s.itemAddr k)) ∧
    (isRay (s.q k).qr.kind = false → (s.q k).qr.octant = 0) ∧
    (isRay (s.q k).qr.kind = true → (s.q k).qr.octant.testBit 2 = fNeg ((s.q k).qr.b32 0x20) ∧ (s.q k).qr.octant.testBit 1 = fNeg ((s.q k).qr.b32 0x24) ∧
      (s.q k).qr.octant.testBit 0 = fNeg ((s.q k).qr.b32 0x28))

/-! ## Needles and their units (R103 to R212) -/

/-- R103, R106, R120, R140, R179, R208, R369 to R371: the item that a Needle picks is visited if it is a box or an instance and handed to its unit if it is a leaf or a metric node; a unit serves its handoffs in order, and the
lowest free Baste engine takes the first of them; an operation that is wrong twice has no effect but a suspect unit and, in the leaf array, its counted recomputation. A box whose format does not hold ends the query
with FORMAT_FAULT. -/
def Obligations.NeedleOperations : Prop :=
  ∀ (s s1 : State) (b n e v : Nat) (it : Item),
    let bad := fun (u : State) (kind num : Nat) => Host.Outcome.next (((u.mismatch b kind num true).mismatch b kind num false).suspect b kind num).settle
    (s.pick b n = (s1, some (e, v)) → (s1.ent b e).item = some it →
      (it.ty = 1 → exec (.boxVisit b n .ok) s = .next (s1.visitBox b e v).settle ∧ exec (.boxVisit b n .twice) s = bad s1 0 n ∧
        (boxOk (s1.hndOf (s1.ent b e).qr.handle) v = false → Leads (.boxVisit b n .ok) s (fun u => (u.ent b e).phase = 3 ∧ (u.ent b e).status = some stFormat ∧
          u.o (0x4200 + b) 1 = (s1.o (0x4200 + b) 1 + 1) % 2 ^ 64))) ∧
      (it.ty = 2 → exec (.instanceVisit b n .ok) s = .next (s1.visitInst b e v).settle ∧ exec (.instanceVisit b n .twice) s = bad s1 1 n) ∧
      (let took : Handoff := { unit := leafUnit it.ty, order := s1.order, step := (s1.ent b e).firstPrim, hold := (s1.ent b e).leafHold it.ty v, loc := s1.startLoc (s1.ent b e) }
       (leafType it.ty = true → exec (.leafHandoff b n .twice) s = bad s1 1 n ∧ exec (.leafHandoff b n .ok) s = .next ((s1.handoff b e v).netTaken b e).settle ∧
         (it.ty ≠ 8 → Leads (.leafHandoff b n .ok) s (fun u =>
           (u.ent b e).op = some took ∧ (u.ent b e).item = some it ∧ u.o (0x4200 + b) 2 = (s1.o (0x4200 + b) 2 + 1) % 2 ^ 64))) ∧
       (it.ty = 9 → exec (.metricVisit b n .twice) s = bad s1 1 n ∧ Leads (.metricVisit b n .ok) s (fun u => (u.ent b e).op = some took ∧ u.slot = s1.slot))) ∧
      (it.ty ≠ 1 → exec (.boxVisit b n .ok) s = .next s1.settle) ∧ (it.ty ≠ 2 → exec (.instanceVisit b n .ok) s = .next s1.settle)) ∧
    (s.pick b n = (s1, none) → exec (.boxVisit b n .ok) s = .next s1.settle ∧ exec (.instanceVisit b n .ok) s = .next s1.settle ∧ exec (.leafHandoff b n .ok) s = .next s1.settle ∧
      exec (.metricVisit b n .ok) s = .next s1.settle) ∧
    (b < 48 → s.bobRuns b = true →
      (let next := fun (unit : Nat) => (s.queueOf b unit).find? (fun e => !s.stillWaits b (s.ent b e))
       (next 1 = some e → exec (.intersectorResult b .ok) s = .next (State.serve (fun s e => s.isectOne b e) (s.queueOf b 1) s).settle ∧ exec (.intersectorResult b .twice) s = bad s 2 0) ∧
       (next 2 = some e → s.arrayOk b = true → exec (.leafArrayResult b .ok) s = .next (State.serve (fun s e => s.arrayOne b e) (s.queueOf b 2) s).settle ∧
         exec (.leafArrayResult b .twice) s = bad (s.recomputed b e .twice) 3 0)) ∧
      (s.queueOf b 1 = [] → exec (.intersectorResult b .ok) s = .next s.settle) ∧ (s.queueOf b 2 = [] → exec (.leafArrayResult b .ok) s = .next s.settle) ∧
      ((∀ g, g < 4 → (s.engOf b g).ent = none) → s.tile.imgStep = 0 → ∀ g, g < 4 → s.engineOff b g = false → (∀ i, i < g → s.engineOff b i = true) →
        (∀ rest, s.queueOf b 3 = e :: rest → exec (.basteHandoff b) s = .next (s.bstTake b g e).settle) ∧ (s.queueOf b 3 = [] → exec (.basteHandoff b) s = .next s.settle)))

/-- R118, R119, R173, R174, R197, R249, R362, R374, R391: a finishing walk starts from the root with its limits; a query that parks is written back and binned again, or waits with no more issues for room for its records; one that has
ended goes to the Hem; one whose releases have waited too long reverts; a fill ends when its sectors are there; a bank that holds no live slot changes its role. -/
def Obligations.EntriesAndBanks : Prop :=
  ∀ (s : State) (b e k bank : Nat) (w : WSlot),
    b < 48 → e < 8192 → s.run = true → s.ncOn = true → s.bobRuns b = true →
    let x := s.ent b e
    let q := s.q k
    (x.slot = some k → x.op = none → q.kill = none →
      (x.phase = 1 → ((s.needleList b (e / 512)).filter (fun y => y.2.phase == 1)).head?.map (fun y => y.1) = some e → s.inService b = true → s.finUse b (e / 512) + x.qr.finK ≤ 256 → (s.ctxOf x.qr.ctx).aborting = false →
        Leads (.finishingWalk b e) s (fun u => (u.ent b e).phase = 2 ∧ (u.ent b e).item = some (s.rootItem k) ∧ ((u.ent b e).tlo, (u.ent b e).thi) = q.finLims ∧ (u.ent b e).stack = [] ∧
          u.o (0x4200 + b) 6 = (s.o (0x4200 + b) 6 + 1) % 2 ^ 64)) ∧
      (x.phase ≠ 3 → x.phase ≠ 4 → (x.wantsArray = false ∨ s.arrayOk b = true) → s.releaseFits b e = true → s.budgetDue x = false →
        (x.parkAsked = false → (s.bobOf b).drain = true → exec (.queryPark b e) s = .next ((s.parkBack b e x.parkTrail (x.parkNext q.nextItem)).insert k 1).settle) ∧
        (x.parkAsked = true → exec (.queryPark b e) s = .next ((((s.parkBack b e x.parkTrail (x.parkNext q.nextItem)).insert k 1).oInc 0x4300 0x0A).cl0Into b e).settle)) ∧
      (x.phase ≠ 3 → x.phase ≠ 4 → (x.wantsArray = false ∨ s.arrayOk b = true) → (s.bobOf b).drain = true →
        (s.releaseFits b e = false → exec (.queryPark b e) s = .next ((s.modEnt b e (fun y => { y with relWait := true })).rbStop x.qr.ctx x.qr.stream).settle) ∧
        exec (.queryPark b (e + 8192)) s = .next (s.entError b e).settle) ∧
      (s.releaseFits b e = false → exec (.revert b e) s = .next ((s.oInc 0x7020 0x0B).recoverEnt b e).settle) ∧
      (s.releaseFits b e = true → exec (.revert b e) s = .next s.settle)) ∧
    (x.slot = some k → x.op = none → x.phase = 3 →
      let s2 := ((s.modQ k (fun q => { q with qr := x.qr, remoteHit := if x.best.isSome && !x.remoteForm then {} else q.remoteHit })).releaseOut k x.pend x.samples).leave b e
      (s.releaseFits b e = false → exec (.completion b e) s = .next (s.rbStop x.qr.ctx x.qr.stream).settle) ∧
      (s.releaseFits b e = true → ∀ y, x.status = some y → exec (.completion b e) s = .next (s2.endSlot k y).settle) ∧
      (s.releaseFits b e = true → x.status = none → (s2.q k).served = none →
        let d := s2.openVal (s2.q k).qr.ctx (s2.openKey (s2.q k).qr (s2.q k).body0 (s2.q k).desc (s2.q k).genN 256)
        let fr := d.2.finalRecs x k d.1 ((s2.q k).qr.trace && decide ((s2.q k).traceCap ≤ (s2.q k).traceWritten))
        exec (.completion b e) s = .next ((d.2.traceFlags k x.hits).toHem k fr.2 fr.1).settle) ∧
      (s.releaseFits b e = true → x.status = none → ∀ sv, (s2.q k).served = some sv → exec (.completion b e) s = .next (s2.answerDone x k sv).settle)) ∧
    ((s.bobOf b).wslots = [w] → w.ready = false →
      (∀ s1, s.ncRead b w.ctx w.strm w.hnd w.addr 2 [] w.held = (.wait, s1) → (s1.bobOf b).wslots = [w] →
        exec (.weightFill b) s = .next (s1.modBob b (fun y => { y with wslots := [{ w with held := s.holdTrans w.ctx w.addr 2 w.held }] })).settle) ∧
      (∀ s1 s2 hd v, s.ncRead b w.ctx w.strm w.hnd w.addr 2 [] w.held = (.bytes hd, s1) → netOk hd = true → s1.ncRead b w.ctx w.strm w.hnd w.addr (nSize hd) [] w.held = (.bytes v, s2) → (s2.bobOf b).wslots = [w] →
        Leads (.weightFill b) s (fun u => (u.bobOf b).wslots = [{ w with ready := true, data := v, size := nSize hd, secs := s2.sectorsOf w.ctx w.addr (nSize hd) w.held, bad := if weightsOk v then 0 else stFormat }] ∧
          u.o (0x4280 + b) 5 = (s2.o (0x4280 + b) 5 + 1) % 2 ^ 64))) ∧
    (s.occupants b = [(e, x)] → x.op = none → x.pqWait = true → (s.bobOf b).pqBanks = 1 → (s.bobOf b).pendBanks = 0 → Does (.bankPending b) s (fun t => (t.bobOf b).pendBanks = 2 ∧ (t.bobOf b).pqBanks = 1)) ∧
    (bank < 2 → bit (s.bobOf b).pendBanks bank = true → bit (s.bobOf b).pqBanks bank = true → s.pqUse b bank = 0 → (s.bobOf b).pqBanks < 4 → (s.bobOf b).pendBanks < 4 →
      Does (.roleChange b bank) s (fun t => bit (t.bobOf b).pqBanks bank = false ∧ bit (t.bobOf b).pendBanks bank = false ∧ (∀ y, y ∈ (t.bobOf b).wslots → y.bank ≠ bank) ∧
        t.o (0x4280 + b) 8 = (s.o (0x4280 + b) 8 + 1) % 2 ^ 64 ∧ bit (t.bobOf b).pqBanks (1 - bank) = bit (s.bobOf b).pqBanks (1 - bank)))
/-! ## Baste engines (R214 to R240) -/

/-- R228: the effective address of every mode, the operand found there and the post-increment. -/
def Obligations.OperandAddressing : Prop :=
  ∀ (cst : Nat → Nat) (en en1 : Engine) (fm : Form) (w : Nat) (v : Word),
    en.fetch cst fm w = .ok v en1 →
    (iMode w = 0 → v = immOf fm w ∧ en1 = en) ∧
    (iMode w ≠ 0 → ∃ a, accessTrap a (accSize w) false = none ∧
      (iMode w = 1 → a = iImm w) ∧
      (iMode w = 2 → a = (en.x.toNat + iImm w) % 2 ^ 16) ∧
      (iMode w = 3 → a = (en.y.toNat + iImm w) % 2 ^ 16) ∧
      (iMode w = 4 → a = en.x.toNat) ∧
      (iMode w = 5 → a = en.y.toNat) ∧
      (iMode w = 6 → a = 0xF000 + iImm w ∧ iImm w < 0x100) ∧
      (iMode w = 7 → a = 0xE000 + (en.pbase + iImm w) % 0x1000 ∧ iImm w < 0x1000) ∧
      (bit (iSc w) 2 = false → v = BitVec.ofNat 32 (en.load cst a (accSize w))) ∧
      (bit (iSc w) 2 = true → v = BitVec.ofNat 32 (ofInt 32 (toSigned (8 * accSize w) (en.load cst a (accSize w))))) ∧
      en1 = { en with x := if iMode w = 4 then en.x + BitVec.ofNat 16 (iImm w) else en.x,
                      y := if iMode w = 5 then en.y + BitVec.ofNat 16 (iImm w) else en.y })

/-- R232: the loads, NOP, the moves between A and the 16-bit registers, and ADDX, ADDY and ADDCT complete with the register they name, N and Z where A is
loaded, and nothing else changed; the sums are modulo 2^16 and come after the operand's post-increment. -/
def Obligations.BasteRegisters : Prop :=
  (∀ (s : State) (b g w : Nat) (v : Word) (en : Engine),
     (s.takes b g w 0x02 .int v en → exec (.bstLoad b g .ok) s = .next (s.actedSeq b g w { en with a := v, fl := en.fl.nz v })) ∧
     (s.takes b g w 0x05 .half v en → exec (.bstLoadx b g .ok) s = .next (s.actedSeq b g w { en with x := v.truncate 16 })) ∧
     (s.takes b g w 0x07 .half v en → exec (.bstLoady b g .ok) s = .next (s.actedSeq b g w { en with y := v.truncate 16 })) ∧
     (s.takes b g w 0x09 .half v en → exec (.bstLoadct b g .ok) s = .next (s.actedSeq b g w { en with ct := v.truncate 16 })) ∧
     (s.executes b g w 0x04 → iMode w = 0 → iSc w = 0 →
       exec (.bstLoadhi b g .ok) s = .next (s.actedSeq b g w
         { s.engOf b g with a := BitVec.ofNat 32 (iImm w) <<< 16, fl := (s.engOf b g).fl.nz (BitVec.ofNat 32 (iImm w) <<< 16) }))) ∧
  (∀ (s : State) (b g w : Nat),
     (s.plain b g w 0x01 → exec (.bstNop b g .ok) s = .next (s.actedSeq b g w (s.engOf b g))) ∧
     (s.plain b g w 0x0B → exec (.bstMovax b g .ok) s = .next (s.actedSeq b g w { s.engOf b g with x := (s.engOf b g).a.truncate 16 })) ∧
     (s.plain b g w 0x0C → exec (.bstMovxa b g .ok) s = .next (s.actedSeq b g w
       { s.engOf b g with a := (s.engOf b g).x.zeroExtend 32, fl := (s.engOf b g).fl.nz ((s.engOf b g).x.zeroExtend 32) })) ∧
     (s.plain b g w 0x0D → exec (.bstMovay b g .ok) s = .next (s.actedSeq b g w { s.engOf b g with y := (s.engOf b g).a.truncate 16 })) ∧
     (s.plain b g w 0x0E → exec (.bstMovya b g .ok) s = .next (s.actedSeq b g w
       { s.engOf b g with a := (s.engOf b g).y.zeroExtend 32, fl := (s.engOf b g).fl.nz ((s.engOf b g).y.zeroExtend 32) })) ∧
     (s.plain b g w 0x0F → exec (.bstMovact b g .ok) s = .next (s.actedSeq b g w { s.engOf b g with ct := (s.engOf b g).a.truncate 16 })) ∧
     (s.plain b g w 0x10 → exec (.bstMovcta b g .ok) s = .next (s.actedSeq b g w
       { s.engOf b g with a := (s.engOf b g).ct.zeroExtend 32, fl := (s.engOf b g).fl.nz ((s.engOf b g).ct.zeroExtend 32) }))) ∧
  (∀ (s : State) (b g w : Nat) (v : Word) (en : Engine),
     (s.takes b g w 0x11 .half v en → exec (.bstAddx b g .ok) s = .next (s.actedSeq b g w { en with x := en.x + v.truncate 16 })) ∧
     (s.takes b g w 0x12 .half v en → exec (.bstAddy b g .ok) s = .next (s.actedSeq b g w { en with y := en.y + v.truncate 16 })) ∧
     (s.takes b g w 0x13 .half v en → exec (.bstAddct b g .ok) s = .next (s.actedSeq b g w { en with ct := en.ct + v.truncate 16 })))

/-- R222, R223, R229, R232: STORE, STOREX, STOREY and STORECT complete with the low bytes of their register at the effective address, for every legal form
whose access does not trap, and no register but the post-incremented one changes; a load reads the bytes back, and every byte outside them reads as before. -/
def Obligations.BasteStores : Prop :=
  (∀ (s : State) (b g w : Nat),
     accessTrap ((s.engOf b g).ea w) (accSize w) true = none →
     (s.executes b g w 0x03 → formOk .store w = true →
       exec (.bstStore b g .ok) s = .next (s.actedSeq b g w
         (((s.engOf b g).store ((s.engOf b g).ea w) (accSize w) (s.engOf b g).a.toNat).postInc w))) ∧
     (formOk .storeH w = true →
       (s.executes b g w 0x06 → exec (.bstStorex b g .ok) s = .next (s.actedSeq b g w
         (((s.engOf b g).store ((s.engOf b g).ea w) 2 (s.engOf b g).x.toNat).postInc w))) ∧
       (s.executes b g w 0x08 → exec (.bstStorey b g .ok) s = .next (s.actedSeq b g w
         (((s.engOf b g).store ((s.engOf b g).ea w) 2 (s.engOf b g).y.toNat).postInc w))) ∧
       (s.executes b g w 0x0A → exec (.bstStorect b g .ok) s = .next (s.actedSeq b g w
         (((s.engOf b g).store ((s.engOf b g).ea w) 2 (s.engOf b g).ct.toNat).postInc w))))) ∧
  (∀ (cst : Nat → Nat) (en : Engine) (a n v : Nat),
     (n = 1 ∨ n = 2 ∨ n = 4) → accessTrap a n true = none →
     (0x8000 ≤ a → a < 0xE000 → (en.store a n v).load cst a n = v % 256 ^ n) ∧
     (∀ x, x < 0xF200 → (x < a ∨ a + n ≤ x) → (en.store a n v).load cst x 1 = en.load cst x 1))

/-- R232: ADD, ADDCY, SUB, SUBCY and CMP complete with their result, N, Z, C and V; C of a difference is "no borrow", V tells that the signed result does
not fit. AND, OR, XOR, MIN, MAX and NOT complete with their result, N and Z, and no other flag. -/
def Obligations.BasteIntegers : Prop :=
  (∀ (s : State) (b g w : Nat) (v : Word) (en : Engine),
     let a := en.a
     let c : Nat := if en.fl.c then 1 else 0
     let flags := fun (r : Word) (carry ovf : Bool) => { en.fl.nz r with c := carry, v := ovf }
     (s.takes b g w 0x20 .int v en → exec (.bstAdd b g .ok) s = .next (s.actedSeq b g w
       { en with a := a + v, fl := flags (a + v) (decide (2 ^ 32 ≤ a.toNat + v.toNat)) (decide ((a + v).toInt ≠ a.toInt + v.toInt)) })) ∧
     (s.takes b g w 0x21 .int v en → exec (.bstAddcy b g .ok) s = .next (s.actedSeq b g w
       { en with a := a + v + BitVec.ofNat 32 c, fl := flags (a + v + BitVec.ofNat 32 c) (decide (2 ^ 32 ≤ a.toNat + v.toNat + c))
                                                         (decide ((a + v + BitVec.ofNat 32 c).toInt ≠ a.toInt + v.toInt + c)) })) ∧
     (s.takes b g w 0x22 .int v en → exec (.bstSub b g .ok) s = .next (s.actedSeq b g w
       { en with a := a - v, fl := flags (a - v) (decide (v.toNat ≤ a.toNat)) (decide ((a - v).toInt ≠ a.toInt - v.toInt)) })) ∧
     (s.takes b g w 0x23 .int v en → exec (.bstSubcy b g .ok) s = .next (s.actedSeq b g w
       { en with a := a - v - BitVec.ofNat 32 (1 - c), fl := flags (a - v - BitVec.ofNat 32 (1 - c)) (decide (v.toNat + (1 - c) ≤ a.toNat))
                                                               (decide ((a - v - BitVec.ofNat 32 (1 - c)).toInt ≠ a.toInt - v.toInt - (1 - c : Nat))) })) ∧
     (s.takes b g w 0x24 .int v en → exec (.bstCmp b g .ok) s = .next (s.actedSeq b g w
       { en with fl := flags (a - v) (decide (v.toNat ≤ a.toNat)) (decide ((a - v).toInt ≠ a.toInt - v.toInt)) }))) ∧
  (∀ (s : State) (b g w : Nat) (v : Word) (en : Engine),
     let go := fun (en : Engine) (r : Word) => (Host.Outcome.next : State → Out) (s.actedSeq b g w { en with a := r, fl := en.fl.nz r })
     (s.takes b g w 0x25 .int v en → exec (.bstAnd b g .ok) s = go en (en.a &&& v)) ∧
     (s.takes b g w 0x26 .int v en → exec (.bstOr b g .ok) s = go en (en.a ||| v)) ∧
     (s.takes b g w 0x27 .int v en → exec (.bstXor b g .ok) s = go en (en.a ^^^ v)) ∧
     (s.takes b g w 0x35 .int v en → exec (.bstMin b g .ok) s = go en (if en.a.toInt ≤ v.toInt then en.a else v)) ∧
     (s.takes b g w 0x36 .int v en → exec (.bstMax b g .ok) s = go en (if en.a.toInt ≤ v.toInt then v else en.a)) ∧
     (s.plain b g w 0x38 → exec (.bstNot b g .ok) s = go (s.engOf b g) (~~~(s.engOf b g).a)))

/-- R232, R233: MUL, MULH and MULHU complete with the halves of the exact product, NEG and ABS with −A and |A|, DIV, DIVU, REM and REMU with the truncated
quotient or the remainder; V tells that a result does not fit; a division by zero, FDIV's among them, writes its result, sets DZ, and then traps with TRAP_DZ. -/
def Obligations.BasteProducts : Prop :=
  (∀ (s : State) (b g w : Nat) (v : Word) (en : Engine),
     let e := s.engOf b g
     (s.takes b g w 0x28 .int v en → exec (.bstMul b g .ok) s = .next (s.actedSeq b g w
       { en with a := BitVec.ofInt 32 (en.a.toInt * v.toInt),
                 fl := { en.fl.nz (BitVec.ofInt 32 (en.a.toInt * v.toInt)) with
                   v := decide (en.a.toInt * v.toInt < -2 ^ 31 ∨ 2 ^ 31 ≤ en.a.toInt * v.toInt) } })) ∧
     (s.takes b g w 0x29 .int v en → exec (.bstMulh b g .ok) s = .next (s.actedSeq b g w
       { en with a := BitVec.ofInt 32 (en.a.toInt * v.toInt / 2 ^ 32), fl := en.fl.nz (BitVec.ofInt 32 (en.a.toInt * v.toInt / 2 ^ 32)) })) ∧
     (s.takes b g w 0x2A .int v en → exec (.bstMulhu b g .ok) s = .next (s.actedSeq b g w
       { en with a := BitVec.ofNat 32 (en.a.toNat * v.toNat / 2 ^ 32), fl := en.fl.nz (BitVec.ofNat 32 (en.a.toNat * v.toNat / 2 ^ 32)) })) ∧
     (s.plain b g w 0x2F → exec (.bstNeg b g .ok) s = .next (s.actedSeq b g w
       { e with a := -e.a, fl := { e.fl.nz (-e.a) with v := decide (e.a = 0x80000000) } })) ∧
     (s.plain b g w 0x37 → exec (.bstAbs b g .ok) s = .next (s.actedSeq b g w
       { e with a := BitVec.ofNat 32 e.a.toInt.natAbs, fl := { e.fl.nz (BitVec.ofNat 32 e.a.toInt.natAbs) with v := decide (e.a = 0x80000000) } }))) ∧
  (∀ (s : State) (b g w : Nat) (v : Word) (en : Engine),
     let ran := fun (r : Word) (f : Flags) => s.actedSeq b g w { en with a := r, fl := f }
     let after := fun (r : Word) (f : Flags) (dz : Bool) => (Host.Outcome.next : State → Out)
       (if dz && en.trapDz then (ran r f).bstTrap b g tcDz (s.engOf b g).nextPc ((s.engOf b g).rep - 1) (BitVec.ofNat 32 w) else ran r f)
     let zero := fun (r : Word) => { en.fl.nz r with v := false, dz := true }
     (s.takes b g w 0x2B .int v en →
       (v ≠ 0 → exec (.bstDiv b g .ok) s = after (BitVec.ofInt 32 (en.a.toInt.tdiv v.toInt))
         { en.fl.nz (BitVec.ofInt 32 (en.a.toInt.tdiv v.toInt)) with v := decide (en.a = 0x80000000 ∧ v = 0xFFFFFFFF) } false) ∧
       (v = 0 → exec (.bstDiv b g .ok) s = after 0 (zero 0) true)) ∧
     (s.takes b g w 0x2C .int v en →
       (v ≠ 0 → exec (.bstDivu b g .ok) s = after (BitVec.ofNat 32 (en.a.toNat / v.toNat)) (en.fl.nz (BitVec.ofNat 32 (en.a.toNat / v.toNat))) false) ∧
       (v = 0 → exec (.bstDivu b g .ok) s = after 0 (zero 0) true)) ∧
     (s.takes b g w 0x2D .int v en →
       (v ≠ 0 → exec (.bstRem b g .ok) s = after (BitVec.ofInt 32 (en.a.toInt.tmod v.toInt))
         { en.fl.nz (BitVec.ofInt 32 (en.a.toInt.tmod v.toInt)) with v := false } false) ∧
       (v = 0 → exec (.bstRem b g .ok) s = after en.a (zero en.a) true)) ∧
     (s.takes b g w 0x2E .int v en →
       (v ≠ 0 → exec (.bstRemu b g .ok) s = after (BitVec.ofNat 32 (en.a.toNat % v.toNat)) (en.fl.nz (BitVec.ofNat 32 (en.a.toNat % v.toNat))) false) ∧
       (v = 0 → exec (.bstRemu b g .ok) s = after en.a (zero en.a) true)) ∧
     (s.takes b g w 0x43 .fp v en → binary32.isZero (flush en.subn v.toNat) = true →
       exec (.bstFdiv b g .ok) s = after (fpDiv en.fl en.subn en.a v).r (fpDiv en.fl en.subn en.a v).f true ∧ (fpDiv en.fl en.subn en.a v).f.dz = true))

/-- R234: the five shifts complete with the result and C of R234 for every count from 0 to 255. -/
def Obligations.BasteShifts : Prop :=
  ∀ (s : State) (b g w : Nat) (v : Word) (en : Engine),
    let n := v.toNat % 256
    let a := en.a
    let go := fun (r : Word) (c : Bool) => (Host.Outcome.next : State → Out) (s.actedSeq b g w { en with a := r, fl := { en.fl.nz r with c := c } })
    (s.takes b g w 0x30 .shift v en →
      (n = 0 → exec (.bstShl b g .ok) s = go a en.fl.c) ∧
      (1 ≤ n → n ≤ 31 → exec (.bstShl b g .ok) s = go (BitVec.ofNat 32 (a.toNat * 2 ^ n)) (a.getLsbD (32 - n))) ∧
      (n = 32 → exec (.bstShl b g .ok) s = go 0 (a.getLsbD 31)) ∧
      (33 ≤ n → exec (.bstShl b g .ok) s = go 0 false)) ∧
    (s.takes b g w 0x31 .shift v en →
      (n = 0 → exec (.bstShr b g .ok) s = go a en.fl.c) ∧
      (1 ≤ n → n ≤ 31 → exec (.bstShr b g .ok) s = go (BitVec.ofNat 32 (a.toNat / 2 ^ n)) (a.getLsbD (n - 1))) ∧
      (n = 32 → exec (.bstShr b g .ok) s = go 0 (a.getLsbD 0)) ∧
      (33 ≤ n → exec (.bstShr b g .ok) s = go 0 false)) ∧
    (s.takes b g w 0x32 .shift v en →
      (n = 0 → exec (.bstSar b g .ok) s = go a en.fl.c) ∧
      (1 ≤ n → n ≤ 31 → exec (.bstSar b g .ok) s = go (BitVec.ofInt 32 (a.toInt / 2 ^ n)) (a.getLsbD (n - 1))) ∧
      (32 ≤ n → exec (.bstSar b g .ok) s = go (if a.getLsbD 31 then 0xFFFFFFFF else 0) (a.getLsbD 31))) ∧
    (s.takes b g w 0x33 .shift v en →
      (n % 32 = 0 → exec (.bstRol b g .ok) s = go a en.fl.c) ∧
      (n % 32 ≠ 0 → exec (.bstRol b g .ok) s = go (a.rotateLeft (n % 32)) ((a.rotateLeft (n % 32)).getLsbD 0))) ∧
    (s.takes b g w 0x34 .shift v en →
      (n % 32 = 0 → exec (.bstRor b g .ok) s = go a en.fl.c) ∧
      (n % 32 ≠ 0 → exec (.bstRor b g .ok) s = go (a.rotateRight (n % 32)) ((a.rotateRight (n % 32)).getLsbD 31)))

/-- R232, R235: the FP32 instructions complete with the IEEE 754 result of the flushed operands (fAdd, fSub, fMul, fDiv and fSqrt round the exact result once)
and the flags of R232 and R235; every NaN result is 0x7FC00000, FX is set by it and by an overflow and never cleared; with SUBN = 0 no result is subnormal. -/
def Obligations.BasteFloats : Prop :=
  (∀ (s : State) (b g w : Nat) (v : Word) (en : Engine),
     let n := en.subn
     let e := s.engOf b g
     let take := fun (en : Engine) (u : Alu) => (Host.Outcome.next : State → Out) (s.actedSeq b g w { en with a := u.r, fl := u.f })
     (s.takes b g w 0x40 .fp v en → exec (.bstFadd b g .ok) s = take en (fpArith en.fl n fAdd en.a v)) ∧
     (s.takes b g w 0x41 .fp v en → exec (.bstFsub b g .ok) s = take en (fpArith en.fl n fSub en.a v)) ∧
     (s.takes b g w 0x42 .fp v en → exec (.bstFmul b g .ok) s = take en (fpArith en.fl n fMul en.a v)) ∧
     (s.takes b g w 0x43 .fp v en → (binary32.isZero (flush n v.toNat) = false ∨ en.trapDz = false) → exec (.bstFdiv b g .ok) s = take en (fpDiv en.fl n en.a v)) ∧
     (s.takes b g w 0x44 .fp v en → exec (.bstFsqrt b g .ok) s = take en (fpSqrt en.fl n v)) ∧
     (s.takes b g w 0x45 .fp v en → exec (.bstFcmp b g .ok) s = .next (s.actedSeq b g w { en with fl :=
       { en.fl with n := fLt (flush n en.a.toNat) (flush n v.toNat), z := fEq (flush n en.a.toNat) (flush n v.toNat),
                    c := fNan (flush n en.a.toNat) || fNan (flush n v.toNat), v := false } })) ∧
     (s.takes b g w 0x46 .fp v en → exec (.bstFmin b g .ok) s = take en (fpMin en.fl n false en.a v)) ∧
     (s.takes b g w 0x47 .fp v en → exec (.bstFmax b g .ok) s = take en (fpMin en.fl n true en.a v)) ∧
     (s.plain b g w 0x48 → exec (.bstFneg b g .ok) s = take e (fpSign e.fl (e.a ^^^ 0x80000000))) ∧
     (s.plain b g w 0x49 → exec (.bstFabs b g .ok) s = take e (fpSign e.fl (e.a &&& 0x7FFFFFFF))) ∧
     (s.plain b g w 0x4A → exec (.bstFtoi b g .ok) s = take e (fpToInt e.fl e.subn e.a)) ∧
     (s.plain b g w 0x4B → exec (.bstItof b g .ok) s = take e (fpOfInt e.fl e.a))) ∧
  (∀ (f : Flags) (subn : Bool) (a b : Word) (u : Alu),
     (u = fpArith f subn fAdd a b ∨ u = fpArith f subn fSub a b ∨ u = fpArith f subn fMul a b ∨ u = fpDiv f subn a b) →
     (fNan u.r.toNat = true → u.r = 0x7FC00000 ∧ u.f.n = false ∧ u.f.z = false ∧ u.f.fx = true) ∧
     (fNan a.toNat = true ∨ fNan b.toNat = true → u.r = 0x7FC00000) ∧
     (fInf u.r.toNat = true → fFin a.toNat = true → fFin b.toNat = true → u.f.fx = true ∨ u.dz = true) ∧
     (f.fx = true → u.f.fx = true) ∧
     (subn = false → binary32.exp u.r.toNat = 0 → binary32.man u.r.toNat = 0))

/-- R230, R232, R236: BR, CALL, RET, DBNZ, REP and CLF complete with the next address, the return stack and the count that their rows give, and no flag changes
but those CLF clears; every condition of BR, and a reserved one traps with ILLEGAL. An instruction that a REP repeats is none of these. -/
def Obligations.BasteControl : Prop :=
  (∀ (s : State) (b g w : Nat),
     let e := s.engOf b g
     e.rep = 0 →
     (s.executes b g w 0x60 → (iMode w = 0 ∨ iMode w = 2) →
       (e.fl.cond e.ct (iSc w) = some false → exec (.bstBr b g .ok) s = .next (s.acted b g w (e.pc + 1) 0 e)) ∧
       (e.fl.cond e.ct (iSc w) = some true → e.target w < 0x1000 → exec (.bstBr b g .ok) s = .next (s.acted b g w (e.target w) 0 e))) ∧
     (s.executes b g w 0x60 → (iMode w = 0 ∨ iMode w = 2) → e.fl.cond e.ct (iSc w) = none → exec (.bstBr b g .ok) s = .next (s.bstTrap b g tcIllegal e.pc 0 (BitVec.ofNat 32 w))) ∧
     (s.executes b g w 0x61 → (iMode w = 0 ∨ iMode w = 2) → iSc w = 0 → e.stack.length < 8 → e.target w < 0x1000 →
       exec (.bstCall b g .ok) s = .next (s.acted b g w (e.target w) 0 { e with stack := BitVec.ofNat 16 (e.pc + 1) :: e.stack })) ∧
     (s.plain b g w 0x62 → ∀ r rest, e.stack = r :: rest → r.toNat < 0x1000 →
       exec (.bstRet b g .ok) s = .next (s.acted b g w r.toNat 0 { e with stack := rest })) ∧
     (s.executes b g w 0x63 → iMode w = 0 → iSc w = 0 →
       (e.ct = 1 → exec (.bstDbnz b g .ok) s = .next (s.acted b g w (e.pc + 1) 0 { e with ct := 0 })) ∧
       (e.ct ≠ 1 → iImm w < 0x1000 → exec (.bstDbnz b g .ok) s = .next (s.acted b g w (iImm w) 0 { e with ct := e.ct - 1 }))) ∧
     (s.plain b g w 0x64 →
       (e.ct ≠ 0 → exec (.bstRep b g .ok) s = .next (s.acted b g w (e.pc + 1) e.ct.toNat e)) ∧
       (e.ct = 0 → e.pc + 2 < 0x1000 → exec (.bstRep b g .ok) s = .next (s.acted b g w (e.pc + 2) 0 e))) ∧
     (s.executes b g w 0x69 → iMode w = 0 → iSc w = 0 → iImm w < 64 →
       exec (.bstClf b g .ok) s = .next (s.acted b g w (e.pc + 1) 0 { e with fl :=
         { n := e.fl.n && !(iImm w).testBit 0, z := e.fl.z && !(iImm w).testBit 1, c := e.fl.c && !(iImm w).testBit 2,
           v := e.fl.v && !(iImm w).testBit 3, dz := e.fl.dz && !(iImm w).testBit 4, fx := e.fl.fx && !(iImm w).testBit 5 } }))) ∧
  (∀ (f : Flags) (ct : BitVec 16),
     f.cond ct 0 = some true ∧ f.cond ct 1 = some f.z ∧ f.cond ct 2 = some (!f.z) ∧ f.cond ct 3 = some f.n ∧ f.cond ct 4 = some (!f.n) ∧
     f.cond ct 5 = some f.c ∧ f.cond ct 6 = some (!f.c) ∧ f.cond ct 7 = some f.v ∧ f.cond ct 8 = some (!f.v) ∧
     f.cond ct 9 = some (decide (f.c = true ∧ f.z = false)) ∧ f.cond ct 10 = some (decide (f.c = false ∨ f.z = true)) ∧
     f.cond ct 11 = some (decide (f.n = f.v)) ∧ f.cond ct 12 = some (decide (f.n ≠ f.v)) ∧
     f.cond ct 13 = some (decide (f.z = false ∧ f.n = f.v)) ∧ f.cond ct 14 = some (decide (f.z = true ∨ f.n ≠ f.v)) ∧
     f.cond ct 15 = some f.dz ∧ f.cond ct 16 = some f.fx ∧ f.cond ct 17 = some (decide (ct ≠ 0)) ∧
     f.cond ct 18 = some (decide (f.n = false ∧ f.z = false ∧ f.c = false)) ∧ f.cond ct 19 = some (decide (f.n = false ∧ f.c = false)) ∧
     ∀ sc, 20 ≤ sc → f.cond ct sc = none)

/-- R237 to R240: TRAP, a reserved opcode and a used-up budget enter the trap state: A, X, Y, CT and FLAGS are saved, TCAUSE, TPC, TINSN and TREM are set, and PC is 8;
TRAP counts as an instruction, and BUDGET gives the handler 256 more and raises BST_BUDGET. RTT restores them, leaves the trap state and goes on at TPC with TREM repetitions due. -/
def Obligations.TrapEntry : Prop :=
  (∀ (s : State) (b g : Nat),
     let e := s.engOf b g
     let enter := fun (s : State) (cause tpc trem : Nat) (insn : Word) (left : Nat) =>
       (s.oInc (0x42C0 + b) 5).modEng b g (fun en =>
         { en with ta := e.a, tx := e.x, ty := e.y, tct := e.ct, tflg := BitVec.ofNat 8 e.fl.toNat, tcause := cause, tpc := BitVec.ofNat 16 tpc,
                   tinsn := insn, trem := BitVec.ofNat 16 trem, trapped := true, pc := 8, rep := 0, budget := left })
     e.trapped = false → s.codeAt 8 ≠ 0 → e.ent.isSome →
     (∀ w, s.bstWord b g = some w → iOp w = 0x68 → e.rep = 0 → iMode w = 0 → iSc w = 0 → iImm w < 256 →
       exec (.bstTrap b g .ok) s = .next (enter ((s.oInc (0x42C0 + b) 3).modEng b g (fun en => { en with last := BitVec.ofNat 32 w }))
         8 (e.pc + 1) 0 (BitVec.ofNat 32 w) (e.budget - 1))) ∧
     (∀ w, s.bstWord b g = some w → opKnown (iOp w) = false →
       exec (.illegal b g) s = .next (enter s 1 e.pc e.rep (BitVec.ofNat 32 w) e.budget).settle) ∧
     (b < 48 → g < 4 → s.bobRuns b = true → e.kind ≠ 0 → e.budget = 0 →
       exec (.budget b g) s = .next (((enter s 7 e.pc e.rep e.last 256).oInc (0x42C0 + b) 6).raise 0x5600 1 (4 * b + g)).settle)) ∧
  (∀ (s : State) (b g w : Nat),
     let e := s.engOf b g
     s.bstWord b g = some w → iOp w = 0x67 → w % 2 ^ 24 = 0 → e.rep = 0 → e.trapped = true → e.tcause ≠ tcBudget → e.tpc.toNat < 0x1000 →
     exec (.bstRtt b g .ok) s = .next (s.acted b g w e.tpc.toNat e.trem.toNat
       { e with a := e.ta, x := e.tx, y := e.ty, ct := e.tct, fl := Flags.ofNat e.tflg.toNat, trapped := false }))

/-- R238: an instruction of a wrong form, CALL with a full and RET with an empty return stack, RTT outside the trap state, and an access that traps
do nothing but trap with their cause, at their own address. -/
def Obligations.TrapBeforeActing : Prop :=
  ∀ (s : State) (b g w : Nat),
    let e := s.engOf b g
    let traps := fun (cause : Nat) => (Host.Outcome.next : State → Out) (s.bstTrap b g cause e.pc 0 (BitVec.ofNat 32 w))
    e.trapped = false → s.codeAt 8 ≠ 0 → e.ent.isSome → e.rep = 0 → s.bstWord b g = some w →
    (∀ c, iOp w = 0x02 → e.fetch s.cstAt .int w = .trap c → exec (.bstLoad b g .ok) s = traps c) ∧
    (∀ c, iOp w = 0x40 → e.fetch s.cstAt .fp w = .trap c → exec (.bstFadd b g .ok) s = traps c) ∧
    (∀ c, iOp w = 0x03 → e.put .store w e.a.toNat = .trap c → exec (.bstStore b g .ok) s = traps c) ∧
    (iOp w = 0x61 → formOk .call w = true → 8 ≤ e.stack.length → exec (.bstCall b g .ok) s = traps tcStack) ∧
    (iOp w = 0x62 → formOk .none w = true → e.stack = [] → exec (.bstRet b g .ok) s = traps tcStack) ∧
    (iOp w = 0x67 → formOk .none w = true → exec (.bstRtt b g .ok) s = traps tcIllegal)

/-- R212, R213, R232: END with VERDICT 0 of a PROC or SHAPE invocation leaves no candidate and the handoff goes on with its next primitive; END with a
VERDICT above 1, and FAULT, complete the query with BASTE_FAULT and free the engine. -/
def Obligations.InvocationEnds : Prop :=
  ∀ (s : State) (b g w e : Nat) (h : Handoff),
    let en := s.engOf b g
    let s1 := s.oInc (0x42C0 + b) 3
    let follow := fun (t : State) => (Host.Outcome.next : State → Out) (if (t.engOf b g).ent = en.ent then t else t.settle)
    s.bstWord b g = some w → w % 2 ^ 24 = 0 → en.rep = 0 → en.ent = some e → (s.ent b e).op = some h →
    (iOp w = 0x65 → bytesAt en.candW 0xD 1 = 0 → (en.kind = 1 ∨ en.kind = 3) →
      exec (.bstEnd b g .ok) s = follow (s1.bstOver b g e { h with step := h.step + 1, cand := none })) ∧
    (iOp w = 0x65 → 2 ≤ bytesAt en.candW 0xD 1 →
      exec (.bstEnd b g .ok) s = follow ((((s1.oInc (0x42C0 + b) 7).raise 0x5600 0 ((4 * b + g) % 256)).freeEng b g).leafFault b e stBaste)) ∧
    (iOp w = 0x66 →
      exec (.bstFault b g .ok) s = follow ((((s1.oInc (0x42C0 + b) 7).raise 0x5600 0 ((4 * b + g) % 256)).freeEng b g).leafFault b e stBaste))

/-- R370, R371: an operation whose check fails once is applied and counted; one that fails twice is not applied, and its unit is
suspect. For the Baste engines, whose check unit is their own number. -/
def Obligations.SelfChecks : Prop :=
  ∀ (s : State) (b g w : Nat),
    s.plain b g w 0x01 →
    let s1 := s.mismatch b 4 g true
    let t := s1.actedSeq b g w (s.engOf b g)
    let bad := (s1.mismatch b 4 g false).suspect b 4 g
    let follow := fun (u : State) => (Host.Outcome.next : State → Out) (if (u.engOf b g).ent = (s.engOf b g).ent then u else u.settle)
    (exec (.bstNop b g .twice) s = follow bad) ∧
    (t.mismatched b 4 g = false → exec (.bstNop b g .once) s = .next t) ∧
    (t.mismatched b 4 g = true → exec (.bstNop b g .once) s = follow (t.suspect b 4 g)) ∧
    s1.o 0x7020 1 = (s.o 0x7020 1 + 1) % 2 ^ 64 ∧ (b < 48 → bit (s1.o (0x5100 + b) 1) 0 = true)


/-! ## The Hem, dispatch and recovery (R43, R245 to R286, R328, R371 to R381) -/

/-- R43, R251 to R254, R259: a record goes to the entry of its ring position while the ring has room, failed ones first; a slot fill opens at the next ring slot while there is credit; a flush closes the open fill;
the HEAD and producer reports go out as release writes when they have changed. -/
def Obligations.Deliveries : Prop :=
  ∀ (s : State) (c st : Nat) (i : HemItem) (r : Rec) (rest : List Rec) (f : Fill),
    s.run = true → c < 64 → st < 8 → (s.ctxOf c).aborting = false →
    let x := s.st c st
    (s.rfault c st = false →
      (x.retry = [] → s.ringItem c st = some i → i.recs = r :: rest → (s.q i.slot).skip = 0 →
        ((x.issued - x.rcons).toNat < 2 ^ s.rlog c st → ∃ v : State, exec (.ringEntryWrite c st) s = .next (v.ringPut c st x.issued r).settle ∧ (v.st c st).issued = x.issued + 1 ∧
          (v.st c st).ringOut = x.ringOut ++ [(x.issued, { i with recs := [r], terminal := rest.isEmpty && i.terminal })] ∧ v.o 0x4310 1 = (s.o 0x4310 1 + 1) % 2 ^ 64 ∧ v.slot = s.slot) ∧
        (¬(x.issued - x.rcons).toNat < 2 ^ s.rlog c st → exec (.ringEntryWrite c st) s = .next s.settle)) ∧
      (x.retry = [] → s.ringItem c st = none → exec (.ringEntryWrite c st) s = .next s.settle) ∧
      (∀ p ps y, x.retry = p :: ps → x.ringOut.find? (fun z => z.1 == p) = some (p, y) → exec (.ringEntryWrite c st) s =
        .next ((s.modSt c st (fun x => { x with retry := ps })).ringPut c st p (y.recs.headD (.trc 0))).settle)) ∧
    (s.destSlot c st = true → s.redir c st = false → x.open_ = none → s.nextWhole c st ≠ none → (x.fills - x.scred).toNat < 2 ^ s.slog c st → s.grain c = false → s.slotRingOk c st = true →
      let n := x.fills.toNat % (2 ^ 32 - 1) + 1
      let a := s.slotBase c st + 64 * s.sstride c st * (x.fills.toNat % 2 ^ s.slog c st)
      exec (.slotFillOpen c st) s = .next ((s.modSt c st (fun x => { x with fills := x.fills + 1, open_ := some { number := n, addr := a } })).startJob (.slotHdr c st x.ep) c a 64 .rd st).settle) ∧
    (x.fills = x.scred + BitVec.ofNat 32 (2 ^ s.slog c st) → s.slog c st < 32 → exec (.slotFillOpen c st) s = .next s.settle) ∧
    (x.open_ = some f → f.ready = true → f.placed ≠ [] → fld (s.slotCtrl c st) 24 8 ≠ 0 → exec (.flush c st) s = .next (s.fillClose c st { f with flushed := true }).settle) ∧
    (bit (s.ringCtrl c st) 2 = true → x.head ≠ x.headRep →
      let a := s.co c (0x1A + 5 * st)
      exec (.headWb c st) s = .next ((s.modSt c st (fun x => { x with headRep := x.head })).writeOut c a (x.head.toNat * 256 ^ (a % 64)) (15 * 2 ^ (a % 64)) true (.headWb c st) st).settle) ∧
    (bit (s.resCtrl c st) 1 = true → x.prod ≠ x.prodRep →
      exec (.resWb c st) s = .next ((s.modSt c st (fun x => { x with prodRep := x.prod })).hemWrite c st (s.co c 0x13 (1 + st)) 4 x.prod.toNat true (.resWb c st)).settle) ∧
    (bit (s.resCtrl c st) 1 = false ∨ x.prod = x.prodRep → exec (.resWb c st) s = .next s.settle)

/-- R277, R278, R280, R281, R283, R284, R286: the oldest operand is applied to its thread, waits for it, or is discarded and counted where the context takes none; a dispatch gives the thread chosen in this cycle, or else in the next, the next place of its
endpoint's ring, and its record and DSEQ go out on one port, DSEQ as a release write; the waits for affinity, age and ACK have the effects they name. -/
def Obligations.ThreadEvents : Prop :=
  ∀ (s : State) (t e : Nat) (x : Thread) (affine : Bool),
    s.run = true →
    let now := s.bdkCycle 2 4
    let later := s.bdkAfter 2
    (s.tile.posts = [] → exec .operand s = .next s.settle) ∧
    (∀ p rest, s.tile.posts = p :: rest →
      let s1 := (s.bdkCycle 1 32).modTile (fun t => { t with posts := rest })
      (s.bdkEn p.ctx = false → exec .operand s = .next (s1.oInc 0x4320 4).settle) ∧
      (s.bdkEn p.ctx = true → ∀ s2, s1.applyOp p = some s2 → exec .operand s = .next (s2.bdkStops p.ctx).settle) ∧
      (s.bdkEn p.ctx = true → s1.applyOp p = none → exec .operand s = .next (((s1.began 0x4320 0x0D).modTile (fun t => { t with waitPosts := t.waitPosts ++ [p] })).bdkStops p.ctx).settle)) ∧
    (now.chosen = none → later.chosen = none → exec .dispatch s = .next s.settle) ∧
    ((now.chosen = some (t, x, e, affine) ∨ now.chosen = none ∧ later.chosen = some (t, x, e, affine)) →
      let d := (s.epOf e).disp
      let a := s.o (0x2C00 + e) 2 + 32 * (d.toNat % 2 ^ fld (s.epCtrl e) 24 4)
      let p := 16 + fld (s.epCtrl e) 16 3
      ∃ v : State, (v.thrOf t).st = .dispatched ∧ (v.thrOf t).lastEp = some e ∧ (v.thrOf t).sent = some (e, d) ∧ (v.epOf e).disp = d + 1 ∧
        exec .dispatch s = .next (((v.bdkStops x.ctx).send p
          { wr := true, addr := a / 64 * 64, data := x.record t affine * 256 ^ (a % 64), mask := (2 ^ 28 - 1) * 2 ^ (a % 64), wp := some (.dispatch e t d), ctx := x.ctx }).send p
          { wr := true, addr := a / 64 * 64, data := (d + 1).toNat * 256 ^ (a % 64 + 28), mask := 15 * 2 ^ (a % 64 + 28), rel := true, wp := some (.dseq e t d), ctx := x.ctx }).settle) ∧
    (s.offerable (s.thrOf t) = true → s.affWaits (s.thrOf t) = true → exec (.affWait t) s = .next (s.modThr t (fun x => { x with affOver := true }))) ∧
    (s.offerable (s.thrOf t) = false → exec (.affWait t) s = .next s) ∧
    ((s.thrOf t).st = .ready → exec (.ageLimit t) s = .next (s.modThr t (fun x => { x with aged := true }))) ∧
    ((s.thrOf t).st ≠ .ready → exec (.ageLimit t) s = .next s) ∧
    ((s.thrOf t).st = .dispatched → s.o 0x2420 3 ≠ 0 → (s.thrOf t).warned = false → Does (.ackLate t) s (fun u => bit (u.o 0x5500 1) 7 = true ∧ (u.thrOf t).warned = true ∧ (u.thrOf t).st = .dispatched)) ∧
    ((s.thrOf t).st ≠ .dispatched ∨ (s.thrOf t).warned = true → exec (.ackLate t) s = .next s)

/-- R316, R328, R329, R371, R374, R375, R379 to R381: a lost query of a mending context is read again from its descriptor, counted and raised, in another slot where its own is lost; a failed request goes out again, on the port of its re-map where it has one; a withdrawal ends when the
Bobbin is empty or at the cutoff, each raised; mismatches are counted anew each interval; a scrub pass walks its controller's lines, logs what it corrected, retires a line that cannot be corrected or has been corrected too often, and drops a way whose
tag is wrong (what the region of a retired line loses with it is the model's free choice: log 17). -/
def Obligations.Recovery : Prop :=
  ∀ (s : State) (k b n : Nat),
    s.run = true →
    let q := s.q k
    let c := q.qr.ctx
    (q.place = .lost → q.contRead = false → q.kill = none → (s.ctxOf c).aborting = false → c < 64 → s.tile.lostSlots.contains k = false → ∃ v : State, bit (v.o (0x5900 + c) 1) 9 = true ∧ v.o 0x7020 7 = (s.o 0x7020 7 + 1) % 2 ^ 64 ∧
      v.q k = { q.fresh s.order (q.delivered + (s.st c q.qr.stream).onWay k q.qr.seq) with delivered := q.delivered } ∧ exec (.reissue k) s = .next (v.startJob (.redesc k s.order) c
        (v.co c (0x18 + 5 * q.qr.stream) + 64 * (q.desc.toNat % 2 ^ v.ringLog c q.qr.stream)) 64 .rd q.qr.stream).settle) ∧
    (q.place = .lost → q.contRead = false → q.kill = none → (s.ctxOf c).aborting = false → s.tile.lostSlots.contains k = true →
      (s.poolFree = 0 → exec (.reissue k) s = .next s.settle) ∧
      (s.poolFree ≠ 0 → s.freeSlot ≠ k → Leads (.reissue k) s (fun u => u.q k = {} ∧ u.o 0x7020 7 = (s.o 0x7020 7 + 1) % 2 ^ 64 ∧
        (u.q s.freeSlot).desc = q.desc ∧ (u.q s.freeSlot).uid = s.order))) ∧
    (q.place = .lost → q.contRead = false → (s.ctxOf c).aborting = false → ∀ y, q.kill = some y → exec (.reissue k) s = .next (s.endSlot k y).settle) ∧
    (∀ p r, s.tile.mendWait[n]? = some (p, r) → r.rmp = none →
      exec (.mendRetry n) s = .next (((s.modTile (fun t => { t with mendWait := t.mendWait.eraseIdx n })).oInc 0x7020 9).send p r).settle) ∧
    (∀ p r m, s.tile.mendWait[n]? = some (p, r) → r.rmp = some m →
      exec (.mendRetry n) s = .next (((s.modTile (fun t => { t with mendWait := t.mendWait.eraseIdx n })).oInc 0x7020 9).send m { r with rmp := none }).settle) ∧
    (s.tile.mendWait[n]? = none → exec (.mendRetry n) s = .next s.settle) ∧
    (b < 48 → (s.bobOf b).wd = true → s.occupants b = [] → exec (.withdrawDone b) s = .next (((s.withdrawn b).oInc 0x7020 3).raise (0x5100 + b) 2 noWhat).settle ∧ exec (.cutoff b) s = .next s.settle) ∧
    (b < 48 → (s.bobOf b).wd = true → s.occupants b ≠ [] → exec (.withdrawDone b) s = .next s.settle ∧ Leads (.cutoff b) s (fun u => bit (u.o (0x5100 + b) 1) 3 = true)) ∧
    exec .mismatchInterval s = .next (s.modTile (fun t => { t with mism := [] })) ∧
    (s.o 0x2320 1 ≠ 0 → k < 48 → tget 0 s.tile.scrubPos k < 262143 → s.lineOff (k + 48 * tget 0 s.tile.scrubPos k) = false →
      let line := k + 48 * tget 0 s.tile.scrubPos k
      let n := tget 0 s.tile.passes line + 1
      let s1 := s.modTile (fun t => { t with scrubPos := tset 0 t.scrubPos k (tget 0 s.tile.scrubPos k + 1) })
      let s2 := (s1.modTile (fun t => { t with passes := tset 0 t.passes line n })).oInc 0x4330 7
      let s3 := s2.logWrite s2.passSegs s2.jhead
      exec (.scrub k .clean) s = .next s1.settle ∧
      exec (.scrub k .uncorrectable) s = .next (s1.retire line true).settle ∧
      exec (.scrub k .tag) s = .next s1.wayTagError.settle ∧
      (n < s3.o 0x2320 2 → exec (.scrub k .corrected) s = .next s3.settle) ∧
      (s3.o 0x2320 2 ≤ n → exec (.scrub k .corrected) s = .next (s3.retire line false).settle))
end

