-- ==== Sys2Proof/Laws/Tbl.lean ====
section
/-! SUPPORT. Reading and writing a sparse table, and its canonical form. -/

namespace Sys2Proof.Machine

variable {α : Type}

theorem tget_tdel_same (d : α) (t : Tbl α) (k : Nat) : tget d (tdel t k) k = d := by
  unfold tdel
  induction t with
  | nil => rfl
  | cons e r ih =>
    obtain ⟨k', v⟩ := e
    by_cases h : k' = k
    · simp [h]; exact ih
    · simp [h, tget]; exact ih

theorem tget_tdel_ne (d : α) (t : Tbl α) (k k' : Nat) (h : k' ≠ k) : tget d (tdel t k) k' = tget d t k' := by
  unfold tdel
  induction t with
  | nil => rfl
  | cons e r ih =>
    obtain ⟨a, v⟩ := e
    by_cases ha : a = k
    · have : ¬ a = k' := fun x => h (x ▸ ha)
      simp [ha, tget]
      rw [if_neg (fun x => h x.symm)]
      exact ih
    · simp [ha, tget, ih]

theorem tget_tins_same (d : α) (t : Tbl α) (k : Nat) (v : α) (h : ∀ e ∈ t, e.1 ≠ k) : tget d (tins t k v) k = v := by
  induction t with
  | nil => simp [tins, tget]
  | cons e r ih =>
    obtain ⟨a, w⟩ := e
    have ha : a ≠ k := h (a, w) (by simp)
    have hr : ∀ e ∈ r, e.1 ≠ k := fun e he => h e (by simp [he])
    unfold tins
    split
    · simp [tget]
    · simp [tget, ha, ih hr]

theorem tget_tins_ne (d : α) (t : Tbl α) (k k' : Nat) (v : α) (h : k' ≠ k) : tget d (tins t k v) k' = tget d t k' := by
  induction t with
  | nil => simp [tins, tget, Ne.symm h]
  | cons e r ih =>
    obtain ⟨a, w⟩ := e
    unfold tins
    split
    · simp [tget, Ne.symm h]
    · simp [tget, ih]

theorem tdel_key (t : Tbl α) (k : Nat) : ∀ e ∈ tdel t k, e.1 ≠ k := by
  intro e he
  simpa using (List.mem_filter.mp he).2

/-- A key reads what was last written to it. -/
theorem tget_tset_same [DecidableEq α] (d : α) (t : Tbl α) (k : Nat) (v : α) : tget d (tset d t k v) k = v := by
  unfold tset
  split
  · rename_i h; rw [tget_tdel_same, h]
  · exact tget_tins_same d _ k v (tdel_key t k)

/-- Every other key reads as before, whatever default the write was made with. -/
theorem tget_tset_ne [DecidableEq α] (d d' : α) (t : Tbl α) (k k' : Nat) (v : α) (h : k' ≠ k) :
    tget d' (tset d t k v) k' = tget d' t k' := by
  unfold tset
  split
  · exact tget_tdel_ne d' t k k' h
  · rw [tget_tins_ne d' _ k k' v h, tget_tdel_ne d' t k k' h]

/-! ## The canonical form -/

/-- Rising keys, as a property of pairs. -/
theorem tsorted_iff (t : Tbl α) : tsorted t = true ↔ t.Pairwise (fun a b => a.1 < b.1) := by
  induction t with
  | nil => simp [tsorted]
  | cons a r ih =>
    cases r with
    | nil => simp [tsorted]
    | cons b r' =>
      rw [tsorted, Bool.and_eq_true, ih]
      constructor
      · rintro ⟨h, hr⟩
        refine List.pairwise_cons.mpr ⟨?_, hr⟩
        intro x hx
        rcases List.mem_cons.mp hx with rfl | hx
        · exact of_decide_eq_true h
        · exact Nat.lt_trans (of_decide_eq_true h) ((List.pairwise_cons.mp hr).1 x hx)
      · intro h
        have h' := List.pairwise_cons.mp h
        exact ⟨decide_eq_true (h'.1 b (by simp)), h'.2⟩

theorem tsorted_tdel (t : Tbl α) (k : Nat) (h : tsorted t = true) : tsorted (tdel t k) = true := by
  rw [tsorted_iff] at *
  exact h.sublist List.filter_sublist

theorem mem_tins (t : Tbl α) (k : Nat) (v : α) (e : Nat × α) : e ∈ tins t k v ↔ e = (k, v) ∨ e ∈ t := by
  induction t with
  | nil => simp [tins]
  | cons a r ih =>
    obtain ⟨a, w⟩ := a
    unfold tins
    split
    · simp
    · simp [ih]; exact or_left_comm

theorem tsorted_tins (t : Tbl α) (k : Nat) (v : α) (h : tsorted t = true) (hk : ∀ e ∈ t, e.1 ≠ k) : tsorted (tins t k v) = true := by
  rw [tsorted_iff] at *
  induction t with
  | nil => simp [tins]
  | cons a r ih =>
    obtain ⟨a, w⟩ := a
    have ha : a ≠ k := hk (a, w) (by simp)
    have hr := List.pairwise_cons.mp h
    unfold tins
    split
    · rename_i hlt
      refine List.pairwise_cons.mpr ⟨?_, h⟩
      intro e he
      rcases List.mem_cons.mp he with rfl | he
      · exact hlt
      · exact Nat.lt_trans hlt (hr.1 e he)
    · rename_i hlt
      refine List.pairwise_cons.mpr ⟨?_, ih hr.2 (fun e he => hk e (by simp [he]))⟩
      intro e he
      rcases (mem_tins r k v e).mp he with rfl | he
      · simp only; omega
      · exact hr.1 e he

/-- A write keeps the canonical form. -/
theorem tcanon_tset [DecidableEq α] (d : α) (t : Tbl α) (k : Nat) (v : α) (h : tcanon d t = true) : tcanon d (tset d t k v) = true := by
  unfold tcanon at *
  rw [Bool.and_eq_true] at *
  unfold tset
  split
  · refine ⟨tsorted_tdel t k h.1, ?_⟩
    rw [List.all_eq_true] at *
    exact fun e he => h.2 e (List.mem_filter.mp he).1
  · rename_i hv
    refine ⟨tsorted_tins _ k v (tsorted_tdel t k h.1) (tdel_key t k), ?_⟩
    rw [List.all_eq_true] at *
    intro e he
    rcases (mem_tins _ k v e).mp he with rfl | he
    · simpa using hv
    · exact h.2 e (List.mem_filter.mp he).1

end Sys2Proof.Machine
end

