-- ==== Sys2Proof/Laws/State.lean ====
section
/-! SUPPORT. What each named update of the state leaves alone, one lemma for each field, and what its own field reads afterwards. -/

namespace Sys2Proof.Machine

variable (s : State)

/-! ### oSet -/

@[simp] theorem State.oSet_pending (i j v : Nat) : (s.oSet i j v).pending = s.pending := rfl
@[simp] theorem State.oSet_free (i j v : Nat) : (s.oSet i j v).free = s.free := rfl
@[simp] theorem State.oSet_clkF (i j v : Nat) : (s.oSet i j v).clkF = s.clkF := rfl
@[simp] theorem State.oSet_order (i j v : Nat) : (s.oSet i j v).order = s.order := rfl
@[simp] theorem State.oSet_out (i j v : Nat) : (s.oSet i j v).out = s.out := rfl
@[simp] theorem State.oSet_held (i j v : Nat) : (s.oSet i j v).held = s.held := rfl
@[simp] theorem State.oSet_challenge (i j v : Nat) : (s.oSet i j v).challenge = s.challenge := rfl
@[simp] theorem State.oSet_ring (i j v : Nat) : (s.oSet i j v).ring = s.ring := rfl
@[simp] theorem State.oSet_pwr (i j v : Nat) : (s.oSet i j v).pwr = s.pwr := rfl
@[simp] theorem State.oSet_port (i j v : Nat) : (s.oSet i j v).port = s.port := rfl
@[simp] theorem State.oSet_job (i j v : Nat) : (s.oSet i j v).job = s.job := rfl
@[simp] theorem State.oSet_nextJob (i j v : Nat) : (s.oSet i j v).nextJob = s.nextJob := rfl
@[simp] theorem State.oSet_due (i j v : Nat) : (s.oSet i j v).due = s.due := rfl
@[simp] theorem State.oSet_ctx (i j v : Nat) : (s.oSet i j v).ctx = s.ctx := rfl
@[simp] theorem State.oSet_strm (i j v : Nat) : (s.oSet i j v).strm = s.strm := rfl
@[simp] theorem State.oSet_ep (i j v : Nat) : (s.oSet i j v).ep = s.ep := rfl
@[simp] theorem State.oSet_thr (i j v : Nat) : (s.oSet i j v).thr = s.thr := rfl
@[simp] theorem State.oSet_expct (i j v : Nat) : (s.oSet i j v).expct = s.expct := rfl
@[simp] theorem State.oSet_orphan (i j v : Nat) : (s.oSet i j v).orphan = s.orphan := rfl
@[simp] theorem State.oSet_cursor (i j v : Nat) : (s.oSet i j v).cursor = s.cursor := rfl
@[simp] theorem State.oSet_hnd (i j v : Nat) : (s.oSet i j v).hnd = s.hnd := rfl
@[simp] theorem State.oSet_pin (i j v : Nat) : (s.oSet i j v).pin = s.pin := rfl
@[simp] theorem State.oSet_slot (i j v : Nat) : (s.oSet i j v).slot = s.slot := rfl
@[simp] theorem State.oSet_rs (i j v : Nat) : (s.oSet i j v).rs = s.rs := rfl
@[simp] theorem State.oSet_bob (i j v : Nat) : (s.oSet i j v).bob = s.bob := rfl
@[simp] theorem State.oSet_nc (i j v : Nat) : (s.oSet i j v).nc = s.nc := rfl
@[simp] theorem State.oSet_lc (i j v : Nat) : (s.oSet i j v).lc = s.lc := rfl
@[simp] theorem State.oSet_eng (i j v : Nat) : (s.oSet i j v).eng = s.eng := rfl
@[simp] theorem State.oSet_code (i j v : Nat) : (s.oSet i j v).code = s.code := rfl
@[simp] theorem State.oSet_const (i j v : Nat) : (s.oSet i j v).const = s.const := rfl
@[simp] theorem State.oSet_ectrlInit (i j v : Nat) : (s.oSet i j v).ectrlInit = s.ectrlInit := rfl
@[simp] theorem State.oSet_mig (i j v : Nat) : (s.oSet i j v).mig = s.mig := rfl
@[simp] theorem State.oSet_part (i j v : Nat) : (s.oSet i j v).part = s.part := rfl
@[simp] theorem State.oSet_tile (i j v : Nat) : (s.oSet i j v).tile = s.tile := rfl

/-! ### modPort -/

@[simp] theorem State.modPort_pending (p : Nat) (f : PortSt → PortSt) : (s.modPort p f).pending = s.pending := rfl
@[simp] theorem State.modPort_free (p : Nat) (f : PortSt → PortSt) : (s.modPort p f).free = s.free := rfl
@[simp] theorem State.modPort_clkF (p : Nat) (f : PortSt → PortSt) : (s.modPort p f).clkF = s.clkF := rfl
@[simp] theorem State.modPort_order (p : Nat) (f : PortSt → PortSt) : (s.modPort p f).order = s.order := rfl
@[simp] theorem State.modPort_out (p : Nat) (f : PortSt → PortSt) : (s.modPort p f).out = s.out := rfl
@[simp] theorem State.modPort_held (p : Nat) (f : PortSt → PortSt) : (s.modPort p f).held = s.held := rfl
@[simp] theorem State.modPort_obj (p : Nat) (f : PortSt → PortSt) : (s.modPort p f).obj = s.obj := rfl
@[simp] theorem State.modPort_challenge (p : Nat) (f : PortSt → PortSt) : (s.modPort p f).challenge = s.challenge := rfl
@[simp] theorem State.modPort_ring (p : Nat) (f : PortSt → PortSt) : (s.modPort p f).ring = s.ring := rfl
@[simp] theorem State.modPort_pwr (p : Nat) (f : PortSt → PortSt) : (s.modPort p f).pwr = s.pwr := rfl
@[simp] theorem State.modPort_job (p : Nat) (f : PortSt → PortSt) : (s.modPort p f).job = s.job := rfl
@[simp] theorem State.modPort_nextJob (p : Nat) (f : PortSt → PortSt) : (s.modPort p f).nextJob = s.nextJob := rfl
@[simp] theorem State.modPort_due (p : Nat) (f : PortSt → PortSt) : (s.modPort p f).due = s.due := rfl
@[simp] theorem State.modPort_ctx (p : Nat) (f : PortSt → PortSt) : (s.modPort p f).ctx = s.ctx := rfl
@[simp] theorem State.modPort_strm (p : Nat) (f : PortSt → PortSt) : (s.modPort p f).strm = s.strm := rfl
@[simp] theorem State.modPort_ep (p : Nat) (f : PortSt → PortSt) : (s.modPort p f).ep = s.ep := rfl
@[simp] theorem State.modPort_thr (p : Nat) (f : PortSt → PortSt) : (s.modPort p f).thr = s.thr := rfl
@[simp] theorem State.modPort_expct (p : Nat) (f : PortSt → PortSt) : (s.modPort p f).expct = s.expct := rfl
@[simp] theorem State.modPort_orphan (p : Nat) (f : PortSt → PortSt) : (s.modPort p f).orphan = s.orphan := rfl
@[simp] theorem State.modPort_cursor (p : Nat) (f : PortSt → PortSt) : (s.modPort p f).cursor = s.cursor := rfl
@[simp] theorem State.modPort_hnd (p : Nat) (f : PortSt → PortSt) : (s.modPort p f).hnd = s.hnd := rfl
@[simp] theorem State.modPort_pin (p : Nat) (f : PortSt → PortSt) : (s.modPort p f).pin = s.pin := rfl
@[simp] theorem State.modPort_slot (p : Nat) (f : PortSt → PortSt) : (s.modPort p f).slot = s.slot := rfl
@[simp] theorem State.modPort_rs (p : Nat) (f : PortSt → PortSt) : (s.modPort p f).rs = s.rs := rfl
@[simp] theorem State.modPort_bob (p : Nat) (f : PortSt → PortSt) : (s.modPort p f).bob = s.bob := rfl
@[simp] theorem State.modPort_nc (p : Nat) (f : PortSt → PortSt) : (s.modPort p f).nc = s.nc := rfl
@[simp] theorem State.modPort_lc (p : Nat) (f : PortSt → PortSt) : (s.modPort p f).lc = s.lc := rfl
@[simp] theorem State.modPort_eng (p : Nat) (f : PortSt → PortSt) : (s.modPort p f).eng = s.eng := rfl
@[simp] theorem State.modPort_code (p : Nat) (f : PortSt → PortSt) : (s.modPort p f).code = s.code := rfl
@[simp] theorem State.modPort_const (p : Nat) (f : PortSt → PortSt) : (s.modPort p f).const = s.const := rfl
@[simp] theorem State.modPort_ectrlInit (p : Nat) (f : PortSt → PortSt) : (s.modPort p f).ectrlInit = s.ectrlInit := rfl
@[simp] theorem State.modPort_mig (p : Nat) (f : PortSt → PortSt) : (s.modPort p f).mig = s.mig := rfl
@[simp] theorem State.modPort_part (p : Nat) (f : PortSt → PortSt) : (s.modPort p f).part = s.part := rfl
@[simp] theorem State.modPort_tile (p : Nat) (f : PortSt → PortSt) : (s.modPort p f).tile = s.tile := rfl

/-! ### modCtx -/

@[simp] theorem State.modCtx_pending (c : Nat) (f : CtxSt → CtxSt) : (s.modCtx c f).pending = s.pending := rfl
@[simp] theorem State.modCtx_free (c : Nat) (f : CtxSt → CtxSt) : (s.modCtx c f).free = s.free := rfl
@[simp] theorem State.modCtx_clkF (c : Nat) (f : CtxSt → CtxSt) : (s.modCtx c f).clkF = s.clkF := rfl
@[simp] theorem State.modCtx_order (c : Nat) (f : CtxSt → CtxSt) : (s.modCtx c f).order = s.order := rfl
@[simp] theorem State.modCtx_out (c : Nat) (f : CtxSt → CtxSt) : (s.modCtx c f).out = s.out := rfl
@[simp] theorem State.modCtx_held (c : Nat) (f : CtxSt → CtxSt) : (s.modCtx c f).held = s.held := rfl
@[simp] theorem State.modCtx_obj (c : Nat) (f : CtxSt → CtxSt) : (s.modCtx c f).obj = s.obj := rfl
@[simp] theorem State.modCtx_challenge (c : Nat) (f : CtxSt → CtxSt) : (s.modCtx c f).challenge = s.challenge := rfl
@[simp] theorem State.modCtx_ring (c : Nat) (f : CtxSt → CtxSt) : (s.modCtx c f).ring = s.ring := rfl
@[simp] theorem State.modCtx_pwr (c : Nat) (f : CtxSt → CtxSt) : (s.modCtx c f).pwr = s.pwr := rfl
@[simp] theorem State.modCtx_port (c : Nat) (f : CtxSt → CtxSt) : (s.modCtx c f).port = s.port := rfl
@[simp] theorem State.modCtx_job (c : Nat) (f : CtxSt → CtxSt) : (s.modCtx c f).job = s.job := rfl
@[simp] theorem State.modCtx_nextJob (c : Nat) (f : CtxSt → CtxSt) : (s.modCtx c f).nextJob = s.nextJob := rfl
@[simp] theorem State.modCtx_due (c : Nat) (f : CtxSt → CtxSt) : (s.modCtx c f).due = s.due := rfl
@[simp] theorem State.modCtx_strm (c : Nat) (f : CtxSt → CtxSt) : (s.modCtx c f).strm = s.strm := rfl
@[simp] theorem State.modCtx_ep (c : Nat) (f : CtxSt → CtxSt) : (s.modCtx c f).ep = s.ep := rfl
@[simp] theorem State.modCtx_thr (c : Nat) (f : CtxSt → CtxSt) : (s.modCtx c f).thr = s.thr := rfl
@[simp] theorem State.modCtx_expct (c : Nat) (f : CtxSt → CtxSt) : (s.modCtx c f).expct = s.expct := rfl
@[simp] theorem State.modCtx_orphan (c : Nat) (f : CtxSt → CtxSt) : (s.modCtx c f).orphan = s.orphan := rfl
@[simp] theorem State.modCtx_cursor (c : Nat) (f : CtxSt → CtxSt) : (s.modCtx c f).cursor = s.cursor := rfl
@[simp] theorem State.modCtx_hnd (c : Nat) (f : CtxSt → CtxSt) : (s.modCtx c f).hnd = s.hnd := rfl
@[simp] theorem State.modCtx_pin (c : Nat) (f : CtxSt → CtxSt) : (s.modCtx c f).pin = s.pin := rfl
@[simp] theorem State.modCtx_slot (c : Nat) (f : CtxSt → CtxSt) : (s.modCtx c f).slot = s.slot := rfl
@[simp] theorem State.modCtx_rs (c : Nat) (f : CtxSt → CtxSt) : (s.modCtx c f).rs = s.rs := rfl
@[simp] theorem State.modCtx_bob (c : Nat) (f : CtxSt → CtxSt) : (s.modCtx c f).bob = s.bob := rfl
@[simp] theorem State.modCtx_nc (c : Nat) (f : CtxSt → CtxSt) : (s.modCtx c f).nc = s.nc := rfl
@[simp] theorem State.modCtx_lc (c : Nat) (f : CtxSt → CtxSt) : (s.modCtx c f).lc = s.lc := rfl
@[simp] theorem State.modCtx_eng (c : Nat) (f : CtxSt → CtxSt) : (s.modCtx c f).eng = s.eng := rfl
@[simp] theorem State.modCtx_code (c : Nat) (f : CtxSt → CtxSt) : (s.modCtx c f).code = s.code := rfl
@[simp] theorem State.modCtx_const (c : Nat) (f : CtxSt → CtxSt) : (s.modCtx c f).const = s.const := rfl
@[simp] theorem State.modCtx_ectrlInit (c : Nat) (f : CtxSt → CtxSt) : (s.modCtx c f).ectrlInit = s.ectrlInit := rfl
@[simp] theorem State.modCtx_mig (c : Nat) (f : CtxSt → CtxSt) : (s.modCtx c f).mig = s.mig := rfl
@[simp] theorem State.modCtx_part (c : Nat) (f : CtxSt → CtxSt) : (s.modCtx c f).part = s.part := rfl
@[simp] theorem State.modCtx_tile (c : Nat) (f : CtxSt → CtxSt) : (s.modCtx c f).tile = s.tile := rfl

/-! ### modSt -/

@[simp] theorem State.modSt_pending (c i : Nat) (f : StreamSt → StreamSt) : (s.modSt c i f).pending = s.pending := rfl
@[simp] theorem State.modSt_free (c i : Nat) (f : StreamSt → StreamSt) : (s.modSt c i f).free = s.free := rfl
@[simp] theorem State.modSt_clkF (c i : Nat) (f : StreamSt → StreamSt) : (s.modSt c i f).clkF = s.clkF := rfl
@[simp] theorem State.modSt_order (c i : Nat) (f : StreamSt → StreamSt) : (s.modSt c i f).order = s.order := rfl
@[simp] theorem State.modSt_out (c i : Nat) (f : StreamSt → StreamSt) : (s.modSt c i f).out = s.out := rfl
@[simp] theorem State.modSt_held (c i : Nat) (f : StreamSt → StreamSt) : (s.modSt c i f).held = s.held := rfl
@[simp] theorem State.modSt_obj (c i : Nat) (f : StreamSt → StreamSt) : (s.modSt c i f).obj = s.obj := rfl
@[simp] theorem State.modSt_challenge (c i : Nat) (f : StreamSt → StreamSt) : (s.modSt c i f).challenge = s.challenge := rfl
@[simp] theorem State.modSt_ring (c i : Nat) (f : StreamSt → StreamSt) : (s.modSt c i f).ring = s.ring := rfl
@[simp] theorem State.modSt_pwr (c i : Nat) (f : StreamSt → StreamSt) : (s.modSt c i f).pwr = s.pwr := rfl
@[simp] theorem State.modSt_port (c i : Nat) (f : StreamSt → StreamSt) : (s.modSt c i f).port = s.port := rfl
@[simp] theorem State.modSt_job (c i : Nat) (f : StreamSt → StreamSt) : (s.modSt c i f).job = s.job := rfl
@[simp] theorem State.modSt_nextJob (c i : Nat) (f : StreamSt → StreamSt) : (s.modSt c i f).nextJob = s.nextJob := rfl
@[simp] theorem State.modSt_due (c i : Nat) (f : StreamSt → StreamSt) : (s.modSt c i f).due = s.due := rfl
@[simp] theorem State.modSt_ctx (c i : Nat) (f : StreamSt → StreamSt) : (s.modSt c i f).ctx = s.ctx := rfl
@[simp] theorem State.modSt_ep (c i : Nat) (f : StreamSt → StreamSt) : (s.modSt c i f).ep = s.ep := rfl
@[simp] theorem State.modSt_thr (c i : Nat) (f : StreamSt → StreamSt) : (s.modSt c i f).thr = s.thr := rfl
@[simp] theorem State.modSt_expct (c i : Nat) (f : StreamSt → StreamSt) : (s.modSt c i f).expct = s.expct := rfl
@[simp] theorem State.modSt_orphan (c i : Nat) (f : StreamSt → StreamSt) : (s.modSt c i f).orphan = s.orphan := rfl
@[simp] theorem State.modSt_cursor (c i : Nat) (f : StreamSt → StreamSt) : (s.modSt c i f).cursor = s.cursor := rfl
@[simp] theorem State.modSt_hnd (c i : Nat) (f : StreamSt → StreamSt) : (s.modSt c i f).hnd = s.hnd := rfl
@[simp] theorem State.modSt_pin (c i : Nat) (f : StreamSt → StreamSt) : (s.modSt c i f).pin = s.pin := rfl
@[simp] theorem State.modSt_slot (c i : Nat) (f : StreamSt → StreamSt) : (s.modSt c i f).slot = s.slot := rfl
@[simp] theorem State.modSt_rs (c i : Nat) (f : StreamSt → StreamSt) : (s.modSt c i f).rs = s.rs := rfl
@[simp] theorem State.modSt_bob (c i : Nat) (f : StreamSt → StreamSt) : (s.modSt c i f).bob = s.bob := rfl
@[simp] theorem State.modSt_nc (c i : Nat) (f : StreamSt → StreamSt) : (s.modSt c i f).nc = s.nc := rfl
@[simp] theorem State.modSt_lc (c i : Nat) (f : StreamSt → StreamSt) : (s.modSt c i f).lc = s.lc := rfl
@[simp] theorem State.modSt_eng (c i : Nat) (f : StreamSt → StreamSt) : (s.modSt c i f).eng = s.eng := rfl
@[simp] theorem State.modSt_code (c i : Nat) (f : StreamSt → StreamSt) : (s.modSt c i f).code = s.code := rfl
@[simp] theorem State.modSt_const (c i : Nat) (f : StreamSt → StreamSt) : (s.modSt c i f).const = s.const := rfl
@[simp] theorem State.modSt_ectrlInit (c i : Nat) (f : StreamSt → StreamSt) : (s.modSt c i f).ectrlInit = s.ectrlInit := rfl
@[simp] theorem State.modSt_mig (c i : Nat) (f : StreamSt → StreamSt) : (s.modSt c i f).mig = s.mig := rfl
@[simp] theorem State.modSt_part (c i : Nat) (f : StreamSt → StreamSt) : (s.modSt c i f).part = s.part := rfl
@[simp] theorem State.modSt_tile (c i : Nat) (f : StreamSt → StreamSt) : (s.modSt c i f).tile = s.tile := rfl

/-! ### modHnd -/

@[simp] theorem State.modHnd_pending (h : Nat) (f : Handle → Handle) : (s.modHnd h f).pending = s.pending := rfl
@[simp] theorem State.modHnd_free (h : Nat) (f : Handle → Handle) : (s.modHnd h f).free = s.free := rfl
@[simp] theorem State.modHnd_clkF (h : Nat) (f : Handle → Handle) : (s.modHnd h f).clkF = s.clkF := rfl
@[simp] theorem State.modHnd_order (h : Nat) (f : Handle → Handle) : (s.modHnd h f).order = s.order := rfl
@[simp] theorem State.modHnd_out (h : Nat) (f : Handle → Handle) : (s.modHnd h f).out = s.out := rfl
@[simp] theorem State.modHnd_held (h : Nat) (f : Handle → Handle) : (s.modHnd h f).held = s.held := rfl
@[simp] theorem State.modHnd_obj (h : Nat) (f : Handle → Handle) : (s.modHnd h f).obj = s.obj := rfl
@[simp] theorem State.modHnd_challenge (h : Nat) (f : Handle → Handle) : (s.modHnd h f).challenge = s.challenge := rfl
@[simp] theorem State.modHnd_ring (h : Nat) (f : Handle → Handle) : (s.modHnd h f).ring = s.ring := rfl
@[simp] theorem State.modHnd_pwr (h : Nat) (f : Handle → Handle) : (s.modHnd h f).pwr = s.pwr := rfl
@[simp] theorem State.modHnd_port (h : Nat) (f : Handle → Handle) : (s.modHnd h f).port = s.port := rfl
@[simp] theorem State.modHnd_job (h : Nat) (f : Handle → Handle) : (s.modHnd h f).job = s.job := rfl
@[simp] theorem State.modHnd_nextJob (h : Nat) (f : Handle → Handle) : (s.modHnd h f).nextJob = s.nextJob := rfl
@[simp] theorem State.modHnd_due (h : Nat) (f : Handle → Handle) : (s.modHnd h f).due = s.due := rfl
@[simp] theorem State.modHnd_ctx (h : Nat) (f : Handle → Handle) : (s.modHnd h f).ctx = s.ctx := rfl
@[simp] theorem State.modHnd_strm (h : Nat) (f : Handle → Handle) : (s.modHnd h f).strm = s.strm := rfl
@[simp] theorem State.modHnd_ep (h : Nat) (f : Handle → Handle) : (s.modHnd h f).ep = s.ep := rfl
@[simp] theorem State.modHnd_thr (h : Nat) (f : Handle → Handle) : (s.modHnd h f).thr = s.thr := rfl
@[simp] theorem State.modHnd_expct (h : Nat) (f : Handle → Handle) : (s.modHnd h f).expct = s.expct := rfl
@[simp] theorem State.modHnd_orphan (h : Nat) (f : Handle → Handle) : (s.modHnd h f).orphan = s.orphan := rfl
@[simp] theorem State.modHnd_cursor (h : Nat) (f : Handle → Handle) : (s.modHnd h f).cursor = s.cursor := rfl
@[simp] theorem State.modHnd_pin (h : Nat) (f : Handle → Handle) : (s.modHnd h f).pin = s.pin := rfl
@[simp] theorem State.modHnd_slot (h : Nat) (f : Handle → Handle) : (s.modHnd h f).slot = s.slot := rfl
@[simp] theorem State.modHnd_rs (h : Nat) (f : Handle → Handle) : (s.modHnd h f).rs = s.rs := rfl
@[simp] theorem State.modHnd_bob (h : Nat) (f : Handle → Handle) : (s.modHnd h f).bob = s.bob := rfl
@[simp] theorem State.modHnd_nc (h : Nat) (f : Handle → Handle) : (s.modHnd h f).nc = s.nc := rfl
@[simp] theorem State.modHnd_lc (h : Nat) (f : Handle → Handle) : (s.modHnd h f).lc = s.lc := rfl
@[simp] theorem State.modHnd_eng (h : Nat) (f : Handle → Handle) : (s.modHnd h f).eng = s.eng := rfl
@[simp] theorem State.modHnd_code (h : Nat) (f : Handle → Handle) : (s.modHnd h f).code = s.code := rfl
@[simp] theorem State.modHnd_const (h : Nat) (f : Handle → Handle) : (s.modHnd h f).const = s.const := rfl
@[simp] theorem State.modHnd_ectrlInit (h : Nat) (f : Handle → Handle) : (s.modHnd h f).ectrlInit = s.ectrlInit := rfl
@[simp] theorem State.modHnd_mig (h : Nat) (f : Handle → Handle) : (s.modHnd h f).mig = s.mig := rfl
@[simp] theorem State.modHnd_part (h : Nat) (f : Handle → Handle) : (s.modHnd h f).part = s.part := rfl
@[simp] theorem State.modHnd_tile (h : Nat) (f : Handle → Handle) : (s.modHnd h f).tile = s.tile := rfl

/-! ### modQ -/

@[simp] theorem State.modQ_pending (k : Nat) (f : Query → Query) : (s.modQ k f).pending = s.pending := rfl
@[simp] theorem State.modQ_free (k : Nat) (f : Query → Query) : (s.modQ k f).free = s.free := rfl
@[simp] theorem State.modQ_clkF (k : Nat) (f : Query → Query) : (s.modQ k f).clkF = s.clkF := rfl
@[simp] theorem State.modQ_order (k : Nat) (f : Query → Query) : (s.modQ k f).order = s.order := rfl
@[simp] theorem State.modQ_out (k : Nat) (f : Query → Query) : (s.modQ k f).out = s.out := rfl
@[simp] theorem State.modQ_held (k : Nat) (f : Query → Query) : (s.modQ k f).held = s.held := rfl
@[simp] theorem State.modQ_obj (k : Nat) (f : Query → Query) : (s.modQ k f).obj = s.obj := rfl
@[simp] theorem State.modQ_challenge (k : Nat) (f : Query → Query) : (s.modQ k f).challenge = s.challenge := rfl
@[simp] theorem State.modQ_ring (k : Nat) (f : Query → Query) : (s.modQ k f).ring = s.ring := rfl
@[simp] theorem State.modQ_pwr (k : Nat) (f : Query → Query) : (s.modQ k f).pwr = s.pwr := rfl
@[simp] theorem State.modQ_port (k : Nat) (f : Query → Query) : (s.modQ k f).port = s.port := rfl
@[simp] theorem State.modQ_job (k : Nat) (f : Query → Query) : (s.modQ k f).job = s.job := rfl
@[simp] theorem State.modQ_nextJob (k : Nat) (f : Query → Query) : (s.modQ k f).nextJob = s.nextJob := rfl
@[simp] theorem State.modQ_due (k : Nat) (f : Query → Query) : (s.modQ k f).due = s.due := rfl
@[simp] theorem State.modQ_ctx (k : Nat) (f : Query → Query) : (s.modQ k f).ctx = s.ctx := rfl
@[simp] theorem State.modQ_strm (k : Nat) (f : Query → Query) : (s.modQ k f).strm = s.strm := rfl
@[simp] theorem State.modQ_ep (k : Nat) (f : Query → Query) : (s.modQ k f).ep = s.ep := rfl
@[simp] theorem State.modQ_thr (k : Nat) (f : Query → Query) : (s.modQ k f).thr = s.thr := rfl
@[simp] theorem State.modQ_expct (k : Nat) (f : Query → Query) : (s.modQ k f).expct = s.expct := rfl
@[simp] theorem State.modQ_orphan (k : Nat) (f : Query → Query) : (s.modQ k f).orphan = s.orphan := rfl
@[simp] theorem State.modQ_cursor (k : Nat) (f : Query → Query) : (s.modQ k f).cursor = s.cursor := rfl
@[simp] theorem State.modQ_hnd (k : Nat) (f : Query → Query) : (s.modQ k f).hnd = s.hnd := rfl
@[simp] theorem State.modQ_pin (k : Nat) (f : Query → Query) : (s.modQ k f).pin = s.pin := rfl
@[simp] theorem State.modQ_rs (k : Nat) (f : Query → Query) : (s.modQ k f).rs = s.rs := rfl
@[simp] theorem State.modQ_bob (k : Nat) (f : Query → Query) : (s.modQ k f).bob = s.bob := rfl
@[simp] theorem State.modQ_nc (k : Nat) (f : Query → Query) : (s.modQ k f).nc = s.nc := rfl
@[simp] theorem State.modQ_lc (k : Nat) (f : Query → Query) : (s.modQ k f).lc = s.lc := rfl
@[simp] theorem State.modQ_eng (k : Nat) (f : Query → Query) : (s.modQ k f).eng = s.eng := rfl
@[simp] theorem State.modQ_code (k : Nat) (f : Query → Query) : (s.modQ k f).code = s.code := rfl
@[simp] theorem State.modQ_const (k : Nat) (f : Query → Query) : (s.modQ k f).const = s.const := rfl
@[simp] theorem State.modQ_ectrlInit (k : Nat) (f : Query → Query) : (s.modQ k f).ectrlInit = s.ectrlInit := rfl
@[simp] theorem State.modQ_mig (k : Nat) (f : Query → Query) : (s.modQ k f).mig = s.mig := rfl
@[simp] theorem State.modQ_part (k : Nat) (f : Query → Query) : (s.modQ k f).part = s.part := rfl
@[simp] theorem State.modQ_tile (k : Nat) (f : Query → Query) : (s.modQ k f).tile = s.tile := rfl

/-! ### modEnt -/

@[simp] theorem State.modEnt_pending (b e : Nat) (f : Entry → Entry) : (s.modEnt b e f).pending = s.pending := rfl
@[simp] theorem State.modEnt_free (b e : Nat) (f : Entry → Entry) : (s.modEnt b e f).free = s.free := rfl
@[simp] theorem State.modEnt_clkF (b e : Nat) (f : Entry → Entry) : (s.modEnt b e f).clkF = s.clkF := rfl
@[simp] theorem State.modEnt_order (b e : Nat) (f : Entry → Entry) : (s.modEnt b e f).order = s.order := rfl
@[simp] theorem State.modEnt_out (b e : Nat) (f : Entry → Entry) : (s.modEnt b e f).out = s.out := rfl
@[simp] theorem State.modEnt_held (b e : Nat) (f : Entry → Entry) : (s.modEnt b e f).held = s.held := rfl
@[simp] theorem State.modEnt_obj (b e : Nat) (f : Entry → Entry) : (s.modEnt b e f).obj = s.obj := rfl
@[simp] theorem State.modEnt_challenge (b e : Nat) (f : Entry → Entry) : (s.modEnt b e f).challenge = s.challenge := rfl
@[simp] theorem State.modEnt_ring (b e : Nat) (f : Entry → Entry) : (s.modEnt b e f).ring = s.ring := rfl
@[simp] theorem State.modEnt_pwr (b e : Nat) (f : Entry → Entry) : (s.modEnt b e f).pwr = s.pwr := rfl
@[simp] theorem State.modEnt_port (b e : Nat) (f : Entry → Entry) : (s.modEnt b e f).port = s.port := rfl
@[simp] theorem State.modEnt_job (b e : Nat) (f : Entry → Entry) : (s.modEnt b e f).job = s.job := rfl
@[simp] theorem State.modEnt_nextJob (b e : Nat) (f : Entry → Entry) : (s.modEnt b e f).nextJob = s.nextJob := rfl
@[simp] theorem State.modEnt_due (b e : Nat) (f : Entry → Entry) : (s.modEnt b e f).due = s.due := rfl
@[simp] theorem State.modEnt_ctx (b e : Nat) (f : Entry → Entry) : (s.modEnt b e f).ctx = s.ctx := rfl
@[simp] theorem State.modEnt_strm (b e : Nat) (f : Entry → Entry) : (s.modEnt b e f).strm = s.strm := rfl
@[simp] theorem State.modEnt_ep (b e : Nat) (f : Entry → Entry) : (s.modEnt b e f).ep = s.ep := rfl
@[simp] theorem State.modEnt_thr (b e : Nat) (f : Entry → Entry) : (s.modEnt b e f).thr = s.thr := rfl
@[simp] theorem State.modEnt_expct (b e : Nat) (f : Entry → Entry) : (s.modEnt b e f).expct = s.expct := rfl
@[simp] theorem State.modEnt_orphan (b e : Nat) (f : Entry → Entry) : (s.modEnt b e f).orphan = s.orphan := rfl
@[simp] theorem State.modEnt_cursor (b e : Nat) (f : Entry → Entry) : (s.modEnt b e f).cursor = s.cursor := rfl
@[simp] theorem State.modEnt_hnd (b e : Nat) (f : Entry → Entry) : (s.modEnt b e f).hnd = s.hnd := rfl
@[simp] theorem State.modEnt_pin (b e : Nat) (f : Entry → Entry) : (s.modEnt b e f).pin = s.pin := rfl
@[simp] theorem State.modEnt_slot (b e : Nat) (f : Entry → Entry) : (s.modEnt b e f).slot = s.slot := rfl
@[simp] theorem State.modEnt_bob (b e : Nat) (f : Entry → Entry) : (s.modEnt b e f).bob = s.bob := rfl
@[simp] theorem State.modEnt_nc (b e : Nat) (f : Entry → Entry) : (s.modEnt b e f).nc = s.nc := rfl
@[simp] theorem State.modEnt_lc (b e : Nat) (f : Entry → Entry) : (s.modEnt b e f).lc = s.lc := rfl
@[simp] theorem State.modEnt_eng (b e : Nat) (f : Entry → Entry) : (s.modEnt b e f).eng = s.eng := rfl
@[simp] theorem State.modEnt_code (b e : Nat) (f : Entry → Entry) : (s.modEnt b e f).code = s.code := rfl
@[simp] theorem State.modEnt_const (b e : Nat) (f : Entry → Entry) : (s.modEnt b e f).const = s.const := rfl
@[simp] theorem State.modEnt_ectrlInit (b e : Nat) (f : Entry → Entry) : (s.modEnt b e f).ectrlInit = s.ectrlInit := rfl
@[simp] theorem State.modEnt_mig (b e : Nat) (f : Entry → Entry) : (s.modEnt b e f).mig = s.mig := rfl
@[simp] theorem State.modEnt_part (b e : Nat) (f : Entry → Entry) : (s.modEnt b e f).part = s.part := rfl
@[simp] theorem State.modEnt_tile (b e : Nat) (f : Entry → Entry) : (s.modEnt b e f).tile = s.tile := rfl

/-! ### modBob -/

@[simp] theorem State.modBob_pending (b : Nat) (f : BobSt → BobSt) : (s.modBob b f).pending = s.pending := rfl
@[simp] theorem State.modBob_free (b : Nat) (f : BobSt → BobSt) : (s.modBob b f).free = s.free := rfl
@[simp] theorem State.modBob_clkF (b : Nat) (f : BobSt → BobSt) : (s.modBob b f).clkF = s.clkF := rfl
@[simp] theorem State.modBob_order (b : Nat) (f : BobSt → BobSt) : (s.modBob b f).order = s.order := rfl
@[simp] theorem State.modBob_out (b : Nat) (f : BobSt → BobSt) : (s.modBob b f).out = s.out := rfl
@[simp] theorem State.modBob_held (b : Nat) (f : BobSt → BobSt) : (s.modBob b f).held = s.held := rfl
@[simp] theorem State.modBob_obj (b : Nat) (f : BobSt → BobSt) : (s.modBob b f).obj = s.obj := rfl
@[simp] theorem State.modBob_challenge (b : Nat) (f : BobSt → BobSt) : (s.modBob b f).challenge = s.challenge := rfl
@[simp] theorem State.modBob_ring (b : Nat) (f : BobSt → BobSt) : (s.modBob b f).ring = s.ring := rfl
@[simp] theorem State.modBob_pwr (b : Nat) (f : BobSt → BobSt) : (s.modBob b f).pwr = s.pwr := rfl
@[simp] theorem State.modBob_port (b : Nat) (f : BobSt → BobSt) : (s.modBob b f).port = s.port := rfl
@[simp] theorem State.modBob_job (b : Nat) (f : BobSt → BobSt) : (s.modBob b f).job = s.job := rfl
@[simp] theorem State.modBob_nextJob (b : Nat) (f : BobSt → BobSt) : (s.modBob b f).nextJob = s.nextJob := rfl
@[simp] theorem State.modBob_due (b : Nat) (f : BobSt → BobSt) : (s.modBob b f).due = s.due := rfl
@[simp] theorem State.modBob_ctx (b : Nat) (f : BobSt → BobSt) : (s.modBob b f).ctx = s.ctx := rfl
@[simp] theorem State.modBob_strm (b : Nat) (f : BobSt → BobSt) : (s.modBob b f).strm = s.strm := rfl
@[simp] theorem State.modBob_ep (b : Nat) (f : BobSt → BobSt) : (s.modBob b f).ep = s.ep := rfl
@[simp] theorem State.modBob_thr (b : Nat) (f : BobSt → BobSt) : (s.modBob b f).thr = s.thr := rfl
@[simp] theorem State.modBob_expct (b : Nat) (f : BobSt → BobSt) : (s.modBob b f).expct = s.expct := rfl
@[simp] theorem State.modBob_orphan (b : Nat) (f : BobSt → BobSt) : (s.modBob b f).orphan = s.orphan := rfl
@[simp] theorem State.modBob_cursor (b : Nat) (f : BobSt → BobSt) : (s.modBob b f).cursor = s.cursor := rfl
@[simp] theorem State.modBob_hnd (b : Nat) (f : BobSt → BobSt) : (s.modBob b f).hnd = s.hnd := rfl
@[simp] theorem State.modBob_pin (b : Nat) (f : BobSt → BobSt) : (s.modBob b f).pin = s.pin := rfl
@[simp] theorem State.modBob_slot (b : Nat) (f : BobSt → BobSt) : (s.modBob b f).slot = s.slot := rfl
@[simp] theorem State.modBob_rs (b : Nat) (f : BobSt → BobSt) : (s.modBob b f).rs = s.rs := rfl
@[simp] theorem State.modBob_nc (b : Nat) (f : BobSt → BobSt) : (s.modBob b f).nc = s.nc := rfl
@[simp] theorem State.modBob_lc (b : Nat) (f : BobSt → BobSt) : (s.modBob b f).lc = s.lc := rfl
@[simp] theorem State.modBob_eng (b : Nat) (f : BobSt → BobSt) : (s.modBob b f).eng = s.eng := rfl
@[simp] theorem State.modBob_code (b : Nat) (f : BobSt → BobSt) : (s.modBob b f).code = s.code := rfl
@[simp] theorem State.modBob_const (b : Nat) (f : BobSt → BobSt) : (s.modBob b f).const = s.const := rfl
@[simp] theorem State.modBob_ectrlInit (b : Nat) (f : BobSt → BobSt) : (s.modBob b f).ectrlInit = s.ectrlInit := rfl
@[simp] theorem State.modBob_mig (b : Nat) (f : BobSt → BobSt) : (s.modBob b f).mig = s.mig := rfl
@[simp] theorem State.modBob_part (b : Nat) (f : BobSt → BobSt) : (s.modBob b f).part = s.part := rfl
@[simp] theorem State.modBob_tile (b : Nat) (f : BobSt → BobSt) : (s.modBob b f).tile = s.tile := rfl

/-! ### modEng -/

@[simp] theorem State.modEng_pending (b g : Nat) (f : Engine → Engine) : (s.modEng b g f).pending = s.pending := rfl
@[simp] theorem State.modEng_free (b g : Nat) (f : Engine → Engine) : (s.modEng b g f).free = s.free := rfl
@[simp] theorem State.modEng_clkF (b g : Nat) (f : Engine → Engine) : (s.modEng b g f).clkF = s.clkF := rfl
@[simp] theorem State.modEng_order (b g : Nat) (f : Engine → Engine) : (s.modEng b g f).order = s.order := rfl
@[simp] theorem State.modEng_out (b g : Nat) (f : Engine → Engine) : (s.modEng b g f).out = s.out := rfl
@[simp] theorem State.modEng_held (b g : Nat) (f : Engine → Engine) : (s.modEng b g f).held = s.held := rfl
@[simp] theorem State.modEng_obj (b g : Nat) (f : Engine → Engine) : (s.modEng b g f).obj = s.obj := rfl
@[simp] theorem State.modEng_challenge (b g : Nat) (f : Engine → Engine) : (s.modEng b g f).challenge = s.challenge := rfl
@[simp] theorem State.modEng_ring (b g : Nat) (f : Engine → Engine) : (s.modEng b g f).ring = s.ring := rfl
@[simp] theorem State.modEng_pwr (b g : Nat) (f : Engine → Engine) : (s.modEng b g f).pwr = s.pwr := rfl
@[simp] theorem State.modEng_port (b g : Nat) (f : Engine → Engine) : (s.modEng b g f).port = s.port := rfl
@[simp] theorem State.modEng_job (b g : Nat) (f : Engine → Engine) : (s.modEng b g f).job = s.job := rfl
@[simp] theorem State.modEng_nextJob (b g : Nat) (f : Engine → Engine) : (s.modEng b g f).nextJob = s.nextJob := rfl
@[simp] theorem State.modEng_due (b g : Nat) (f : Engine → Engine) : (s.modEng b g f).due = s.due := rfl
@[simp] theorem State.modEng_ctx (b g : Nat) (f : Engine → Engine) : (s.modEng b g f).ctx = s.ctx := rfl
@[simp] theorem State.modEng_strm (b g : Nat) (f : Engine → Engine) : (s.modEng b g f).strm = s.strm := rfl
@[simp] theorem State.modEng_ep (b g : Nat) (f : Engine → Engine) : (s.modEng b g f).ep = s.ep := rfl
@[simp] theorem State.modEng_thr (b g : Nat) (f : Engine → Engine) : (s.modEng b g f).thr = s.thr := rfl
@[simp] theorem State.modEng_expct (b g : Nat) (f : Engine → Engine) : (s.modEng b g f).expct = s.expct := rfl
@[simp] theorem State.modEng_orphan (b g : Nat) (f : Engine → Engine) : (s.modEng b g f).orphan = s.orphan := rfl
@[simp] theorem State.modEng_cursor (b g : Nat) (f : Engine → Engine) : (s.modEng b g f).cursor = s.cursor := rfl
@[simp] theorem State.modEng_hnd (b g : Nat) (f : Engine → Engine) : (s.modEng b g f).hnd = s.hnd := rfl
@[simp] theorem State.modEng_pin (b g : Nat) (f : Engine → Engine) : (s.modEng b g f).pin = s.pin := rfl
@[simp] theorem State.modEng_slot (b g : Nat) (f : Engine → Engine) : (s.modEng b g f).slot = s.slot := rfl
@[simp] theorem State.modEng_rs (b g : Nat) (f : Engine → Engine) : (s.modEng b g f).rs = s.rs := rfl
@[simp] theorem State.modEng_bob (b g : Nat) (f : Engine → Engine) : (s.modEng b g f).bob = s.bob := rfl
@[simp] theorem State.modEng_nc (b g : Nat) (f : Engine → Engine) : (s.modEng b g f).nc = s.nc := rfl
@[simp] theorem State.modEng_lc (b g : Nat) (f : Engine → Engine) : (s.modEng b g f).lc = s.lc := rfl
@[simp] theorem State.modEng_code (b g : Nat) (f : Engine → Engine) : (s.modEng b g f).code = s.code := rfl
@[simp] theorem State.modEng_const (b g : Nat) (f : Engine → Engine) : (s.modEng b g f).const = s.const := rfl
@[simp] theorem State.modEng_ectrlInit (b g : Nat) (f : Engine → Engine) : (s.modEng b g f).ectrlInit = s.ectrlInit := rfl
@[simp] theorem State.modEng_mig (b g : Nat) (f : Engine → Engine) : (s.modEng b g f).mig = s.mig := rfl
@[simp] theorem State.modEng_part (b g : Nat) (f : Engine → Engine) : (s.modEng b g f).part = s.part := rfl
@[simp] theorem State.modEng_tile (b g : Nat) (f : Engine → Engine) : (s.modEng b g f).tile = s.tile := rfl

/-! ### modEp -/

@[simp] theorem State.modEp_pending (e : Nat) (f : Endpoint → Endpoint) : (s.modEp e f).pending = s.pending := rfl
@[simp] theorem State.modEp_free (e : Nat) (f : Endpoint → Endpoint) : (s.modEp e f).free = s.free := rfl
@[simp] theorem State.modEp_clkF (e : Nat) (f : Endpoint → Endpoint) : (s.modEp e f).clkF = s.clkF := rfl
@[simp] theorem State.modEp_order (e : Nat) (f : Endpoint → Endpoint) : (s.modEp e f).order = s.order := rfl
@[simp] theorem State.modEp_out (e : Nat) (f : Endpoint → Endpoint) : (s.modEp e f).out = s.out := rfl
@[simp] theorem State.modEp_held (e : Nat) (f : Endpoint → Endpoint) : (s.modEp e f).held = s.held := rfl
@[simp] theorem State.modEp_obj (e : Nat) (f : Endpoint → Endpoint) : (s.modEp e f).obj = s.obj := rfl
@[simp] theorem State.modEp_challenge (e : Nat) (f : Endpoint → Endpoint) : (s.modEp e f).challenge = s.challenge := rfl
@[simp] theorem State.modEp_ring (e : Nat) (f : Endpoint → Endpoint) : (s.modEp e f).ring = s.ring := rfl
@[simp] theorem State.modEp_pwr (e : Nat) (f : Endpoint → Endpoint) : (s.modEp e f).pwr = s.pwr := rfl
@[simp] theorem State.modEp_port (e : Nat) (f : Endpoint → Endpoint) : (s.modEp e f).port = s.port := rfl
@[simp] theorem State.modEp_job (e : Nat) (f : Endpoint → Endpoint) : (s.modEp e f).job = s.job := rfl
@[simp] theorem State.modEp_nextJob (e : Nat) (f : Endpoint → Endpoint) : (s.modEp e f).nextJob = s.nextJob := rfl
@[simp] theorem State.modEp_due (e : Nat) (f : Endpoint → Endpoint) : (s.modEp e f).due = s.due := rfl
@[simp] theorem State.modEp_ctx (e : Nat) (f : Endpoint → Endpoint) : (s.modEp e f).ctx = s.ctx := rfl
@[simp] theorem State.modEp_strm (e : Nat) (f : Endpoint → Endpoint) : (s.modEp e f).strm = s.strm := rfl
@[simp] theorem State.modEp_thr (e : Nat) (f : Endpoint → Endpoint) : (s.modEp e f).thr = s.thr := rfl
@[simp] theorem State.modEp_expct (e : Nat) (f : Endpoint → Endpoint) : (s.modEp e f).expct = s.expct := rfl
@[simp] theorem State.modEp_orphan (e : Nat) (f : Endpoint → Endpoint) : (s.modEp e f).orphan = s.orphan := rfl
@[simp] theorem State.modEp_cursor (e : Nat) (f : Endpoint → Endpoint) : (s.modEp e f).cursor = s.cursor := rfl
@[simp] theorem State.modEp_hnd (e : Nat) (f : Endpoint → Endpoint) : (s.modEp e f).hnd = s.hnd := rfl
@[simp] theorem State.modEp_pin (e : Nat) (f : Endpoint → Endpoint) : (s.modEp e f).pin = s.pin := rfl
@[simp] theorem State.modEp_slot (e : Nat) (f : Endpoint → Endpoint) : (s.modEp e f).slot = s.slot := rfl
@[simp] theorem State.modEp_rs (e : Nat) (f : Endpoint → Endpoint) : (s.modEp e f).rs = s.rs := rfl
@[simp] theorem State.modEp_bob (e : Nat) (f : Endpoint → Endpoint) : (s.modEp e f).bob = s.bob := rfl
@[simp] theorem State.modEp_nc (e : Nat) (f : Endpoint → Endpoint) : (s.modEp e f).nc = s.nc := rfl
@[simp] theorem State.modEp_lc (e : Nat) (f : Endpoint → Endpoint) : (s.modEp e f).lc = s.lc := rfl
@[simp] theorem State.modEp_eng (e : Nat) (f : Endpoint → Endpoint) : (s.modEp e f).eng = s.eng := rfl
@[simp] theorem State.modEp_code (e : Nat) (f : Endpoint → Endpoint) : (s.modEp e f).code = s.code := rfl
@[simp] theorem State.modEp_const (e : Nat) (f : Endpoint → Endpoint) : (s.modEp e f).const = s.const := rfl
@[simp] theorem State.modEp_ectrlInit (e : Nat) (f : Endpoint → Endpoint) : (s.modEp e f).ectrlInit = s.ectrlInit := rfl
@[simp] theorem State.modEp_mig (e : Nat) (f : Endpoint → Endpoint) : (s.modEp e f).mig = s.mig := rfl
@[simp] theorem State.modEp_part (e : Nat) (f : Endpoint → Endpoint) : (s.modEp e f).part = s.part := rfl
@[simp] theorem State.modEp_tile (e : Nat) (f : Endpoint → Endpoint) : (s.modEp e f).tile = s.tile := rfl

/-! ### modThr -/

@[simp] theorem State.modThr_pending (t : Nat) (f : Thread → Thread) : (s.modThr t f).pending = s.pending := rfl
@[simp] theorem State.modThr_free (t : Nat) (f : Thread → Thread) : (s.modThr t f).free = s.free := rfl
@[simp] theorem State.modThr_clkF (t : Nat) (f : Thread → Thread) : (s.modThr t f).clkF = s.clkF := rfl
@[simp] theorem State.modThr_order (t : Nat) (f : Thread → Thread) : (s.modThr t f).order = s.order := rfl
@[simp] theorem State.modThr_out (t : Nat) (f : Thread → Thread) : (s.modThr t f).out = s.out := rfl
@[simp] theorem State.modThr_held (t : Nat) (f : Thread → Thread) : (s.modThr t f).held = s.held := rfl
@[simp] theorem State.modThr_obj (t : Nat) (f : Thread → Thread) : (s.modThr t f).obj = s.obj := rfl
@[simp] theorem State.modThr_challenge (t : Nat) (f : Thread → Thread) : (s.modThr t f).challenge = s.challenge := rfl
@[simp] theorem State.modThr_ring (t : Nat) (f : Thread → Thread) : (s.modThr t f).ring = s.ring := rfl
@[simp] theorem State.modThr_pwr (t : Nat) (f : Thread → Thread) : (s.modThr t f).pwr = s.pwr := rfl
@[simp] theorem State.modThr_port (t : Nat) (f : Thread → Thread) : (s.modThr t f).port = s.port := rfl
@[simp] theorem State.modThr_job (t : Nat) (f : Thread → Thread) : (s.modThr t f).job = s.job := rfl
@[simp] theorem State.modThr_nextJob (t : Nat) (f : Thread → Thread) : (s.modThr t f).nextJob = s.nextJob := rfl
@[simp] theorem State.modThr_due (t : Nat) (f : Thread → Thread) : (s.modThr t f).due = s.due := rfl
@[simp] theorem State.modThr_ctx (t : Nat) (f : Thread → Thread) : (s.modThr t f).ctx = s.ctx := rfl
@[simp] theorem State.modThr_strm (t : Nat) (f : Thread → Thread) : (s.modThr t f).strm = s.strm := rfl
@[simp] theorem State.modThr_ep (t : Nat) (f : Thread → Thread) : (s.modThr t f).ep = s.ep := rfl
@[simp] theorem State.modThr_expct (t : Nat) (f : Thread → Thread) : (s.modThr t f).expct = s.expct := rfl
@[simp] theorem State.modThr_orphan (t : Nat) (f : Thread → Thread) : (s.modThr t f).orphan = s.orphan := rfl
@[simp] theorem State.modThr_cursor (t : Nat) (f : Thread → Thread) : (s.modThr t f).cursor = s.cursor := rfl
@[simp] theorem State.modThr_hnd (t : Nat) (f : Thread → Thread) : (s.modThr t f).hnd = s.hnd := rfl
@[simp] theorem State.modThr_pin (t : Nat) (f : Thread → Thread) : (s.modThr t f).pin = s.pin := rfl
@[simp] theorem State.modThr_slot (t : Nat) (f : Thread → Thread) : (s.modThr t f).slot = s.slot := rfl
@[simp] theorem State.modThr_rs (t : Nat) (f : Thread → Thread) : (s.modThr t f).rs = s.rs := rfl
@[simp] theorem State.modThr_bob (t : Nat) (f : Thread → Thread) : (s.modThr t f).bob = s.bob := rfl
@[simp] theorem State.modThr_nc (t : Nat) (f : Thread → Thread) : (s.modThr t f).nc = s.nc := rfl
@[simp] theorem State.modThr_lc (t : Nat) (f : Thread → Thread) : (s.modThr t f).lc = s.lc := rfl
@[simp] theorem State.modThr_eng (t : Nat) (f : Thread → Thread) : (s.modThr t f).eng = s.eng := rfl
@[simp] theorem State.modThr_code (t : Nat) (f : Thread → Thread) : (s.modThr t f).code = s.code := rfl
@[simp] theorem State.modThr_const (t : Nat) (f : Thread → Thread) : (s.modThr t f).const = s.const := rfl
@[simp] theorem State.modThr_ectrlInit (t : Nat) (f : Thread → Thread) : (s.modThr t f).ectrlInit = s.ectrlInit := rfl
@[simp] theorem State.modThr_mig (t : Nat) (f : Thread → Thread) : (s.modThr t f).mig = s.mig := rfl
@[simp] theorem State.modThr_part (t : Nat) (f : Thread → Thread) : (s.modThr t f).part = s.part := rfl
@[simp] theorem State.modThr_tile (t : Nat) (f : Thread → Thread) : (s.modThr t f).tile = s.tile := rfl

/-! ### modMig -/

@[simp] theorem State.modMig_pending (e : Nat) (f : MigEntry → MigEntry) : (s.modMig e f).pending = s.pending := rfl
@[simp] theorem State.modMig_free (e : Nat) (f : MigEntry → MigEntry) : (s.modMig e f).free = s.free := rfl
@[simp] theorem State.modMig_clkF (e : Nat) (f : MigEntry → MigEntry) : (s.modMig e f).clkF = s.clkF := rfl
@[simp] theorem State.modMig_order (e : Nat) (f : MigEntry → MigEntry) : (s.modMig e f).order = s.order := rfl
@[simp] theorem State.modMig_out (e : Nat) (f : MigEntry → MigEntry) : (s.modMig e f).out = s.out := rfl
@[simp] theorem State.modMig_held (e : Nat) (f : MigEntry → MigEntry) : (s.modMig e f).held = s.held := rfl
@[simp] theorem State.modMig_obj (e : Nat) (f : MigEntry → MigEntry) : (s.modMig e f).obj = s.obj := rfl
@[simp] theorem State.modMig_challenge (e : Nat) (f : MigEntry → MigEntry) : (s.modMig e f).challenge = s.challenge := rfl
@[simp] theorem State.modMig_ring (e : Nat) (f : MigEntry → MigEntry) : (s.modMig e f).ring = s.ring := rfl
@[simp] theorem State.modMig_pwr (e : Nat) (f : MigEntry → MigEntry) : (s.modMig e f).pwr = s.pwr := rfl
@[simp] theorem State.modMig_port (e : Nat) (f : MigEntry → MigEntry) : (s.modMig e f).port = s.port := rfl
@[simp] theorem State.modMig_job (e : Nat) (f : MigEntry → MigEntry) : (s.modMig e f).job = s.job := rfl
@[simp] theorem State.modMig_nextJob (e : Nat) (f : MigEntry → MigEntry) : (s.modMig e f).nextJob = s.nextJob := rfl
@[simp] theorem State.modMig_due (e : Nat) (f : MigEntry → MigEntry) : (s.modMig e f).due = s.due := rfl
@[simp] theorem State.modMig_ctx (e : Nat) (f : MigEntry → MigEntry) : (s.modMig e f).ctx = s.ctx := rfl
@[simp] theorem State.modMig_strm (e : Nat) (f : MigEntry → MigEntry) : (s.modMig e f).strm = s.strm := rfl
@[simp] theorem State.modMig_ep (e : Nat) (f : MigEntry → MigEntry) : (s.modMig e f).ep = s.ep := rfl
@[simp] theorem State.modMig_thr (e : Nat) (f : MigEntry → MigEntry) : (s.modMig e f).thr = s.thr := rfl
@[simp] theorem State.modMig_expct (e : Nat) (f : MigEntry → MigEntry) : (s.modMig e f).expct = s.expct := rfl
@[simp] theorem State.modMig_orphan (e : Nat) (f : MigEntry → MigEntry) : (s.modMig e f).orphan = s.orphan := rfl
@[simp] theorem State.modMig_cursor (e : Nat) (f : MigEntry → MigEntry) : (s.modMig e f).cursor = s.cursor := rfl
@[simp] theorem State.modMig_hnd (e : Nat) (f : MigEntry → MigEntry) : (s.modMig e f).hnd = s.hnd := rfl
@[simp] theorem State.modMig_pin (e : Nat) (f : MigEntry → MigEntry) : (s.modMig e f).pin = s.pin := rfl
@[simp] theorem State.modMig_slot (e : Nat) (f : MigEntry → MigEntry) : (s.modMig e f).slot = s.slot := rfl
@[simp] theorem State.modMig_rs (e : Nat) (f : MigEntry → MigEntry) : (s.modMig e f).rs = s.rs := rfl
@[simp] theorem State.modMig_bob (e : Nat) (f : MigEntry → MigEntry) : (s.modMig e f).bob = s.bob := rfl
@[simp] theorem State.modMig_nc (e : Nat) (f : MigEntry → MigEntry) : (s.modMig e f).nc = s.nc := rfl
@[simp] theorem State.modMig_lc (e : Nat) (f : MigEntry → MigEntry) : (s.modMig e f).lc = s.lc := rfl
@[simp] theorem State.modMig_eng (e : Nat) (f : MigEntry → MigEntry) : (s.modMig e f).eng = s.eng := rfl
@[simp] theorem State.modMig_code (e : Nat) (f : MigEntry → MigEntry) : (s.modMig e f).code = s.code := rfl
@[simp] theorem State.modMig_const (e : Nat) (f : MigEntry → MigEntry) : (s.modMig e f).const = s.const := rfl
@[simp] theorem State.modMig_ectrlInit (e : Nat) (f : MigEntry → MigEntry) : (s.modMig e f).ectrlInit = s.ectrlInit := rfl
@[simp] theorem State.modMig_part (e : Nat) (f : MigEntry → MigEntry) : (s.modMig e f).part = s.part := rfl
@[simp] theorem State.modMig_tile (e : Nat) (f : MigEntry → MigEntry) : (s.modMig e f).tile = s.tile := rfl

/-! ### modTile -/

@[simp] theorem State.modTile_pending (f : TileSt → TileSt) : (s.modTile f).pending = s.pending := rfl
@[simp] theorem State.modTile_free (f : TileSt → TileSt) : (s.modTile f).free = s.free := rfl
@[simp] theorem State.modTile_clkF (f : TileSt → TileSt) : (s.modTile f).clkF = s.clkF := rfl
@[simp] theorem State.modTile_order (f : TileSt → TileSt) : (s.modTile f).order = s.order := rfl
@[simp] theorem State.modTile_out (f : TileSt → TileSt) : (s.modTile f).out = s.out := rfl
@[simp] theorem State.modTile_held (f : TileSt → TileSt) : (s.modTile f).held = s.held := rfl
@[simp] theorem State.modTile_obj (f : TileSt → TileSt) : (s.modTile f).obj = s.obj := rfl
@[simp] theorem State.modTile_challenge (f : TileSt → TileSt) : (s.modTile f).challenge = s.challenge := rfl
@[simp] theorem State.modTile_ring (f : TileSt → TileSt) : (s.modTile f).ring = s.ring := rfl
@[simp] theorem State.modTile_pwr (f : TileSt → TileSt) : (s.modTile f).pwr = s.pwr := rfl
@[simp] theorem State.modTile_port (f : TileSt → TileSt) : (s.modTile f).port = s.port := rfl
@[simp] theorem State.modTile_job (f : TileSt → TileSt) : (s.modTile f).job = s.job := rfl
@[simp] theorem State.modTile_nextJob (f : TileSt → TileSt) : (s.modTile f).nextJob = s.nextJob := rfl
@[simp] theorem State.modTile_due (f : TileSt → TileSt) : (s.modTile f).due = s.due := rfl
@[simp] theorem State.modTile_ctx (f : TileSt → TileSt) : (s.modTile f).ctx = s.ctx := rfl
@[simp] theorem State.modTile_strm (f : TileSt → TileSt) : (s.modTile f).strm = s.strm := rfl
@[simp] theorem State.modTile_ep (f : TileSt → TileSt) : (s.modTile f).ep = s.ep := rfl
@[simp] theorem State.modTile_thr (f : TileSt → TileSt) : (s.modTile f).thr = s.thr := rfl
@[simp] theorem State.modTile_expct (f : TileSt → TileSt) : (s.modTile f).expct = s.expct := rfl
@[simp] theorem State.modTile_orphan (f : TileSt → TileSt) : (s.modTile f).orphan = s.orphan := rfl
@[simp] theorem State.modTile_cursor (f : TileSt → TileSt) : (s.modTile f).cursor = s.cursor := rfl
@[simp] theorem State.modTile_hnd (f : TileSt → TileSt) : (s.modTile f).hnd = s.hnd := rfl
@[simp] theorem State.modTile_pin (f : TileSt → TileSt) : (s.modTile f).pin = s.pin := rfl
@[simp] theorem State.modTile_slot (f : TileSt → TileSt) : (s.modTile f).slot = s.slot := rfl
@[simp] theorem State.modTile_rs (f : TileSt → TileSt) : (s.modTile f).rs = s.rs := rfl
@[simp] theorem State.modTile_bob (f : TileSt → TileSt) : (s.modTile f).bob = s.bob := rfl
@[simp] theorem State.modTile_nc (f : TileSt → TileSt) : (s.modTile f).nc = s.nc := rfl
@[simp] theorem State.modTile_lc (f : TileSt → TileSt) : (s.modTile f).lc = s.lc := rfl
@[simp] theorem State.modTile_eng (f : TileSt → TileSt) : (s.modTile f).eng = s.eng := rfl
@[simp] theorem State.modTile_code (f : TileSt → TileSt) : (s.modTile f).code = s.code := rfl
@[simp] theorem State.modTile_const (f : TileSt → TileSt) : (s.modTile f).const = s.const := rfl
@[simp] theorem State.modTile_ectrlInit (f : TileSt → TileSt) : (s.modTile f).ectrlInit = s.ectrlInit := rfl
@[simp] theorem State.modTile_mig (f : TileSt → TileSt) : (s.modTile f).mig = s.mig := rfl
@[simp] theorem State.modTile_part (f : TileSt → TileSt) : (s.modTile f).part = s.part := rfl

/-! ### modRing -/

@[simp] theorem State.modRing_pending (f : RingSt → RingSt) : (s.modRing f).pending = s.pending := rfl
@[simp] theorem State.modRing_free (f : RingSt → RingSt) : (s.modRing f).free = s.free := rfl
@[simp] theorem State.modRing_clkF (f : RingSt → RingSt) : (s.modRing f).clkF = s.clkF := rfl
@[simp] theorem State.modRing_order (f : RingSt → RingSt) : (s.modRing f).order = s.order := rfl
@[simp] theorem State.modRing_out (f : RingSt → RingSt) : (s.modRing f).out = s.out := rfl
@[simp] theorem State.modRing_held (f : RingSt → RingSt) : (s.modRing f).held = s.held := rfl
@[simp] theorem State.modRing_obj (f : RingSt → RingSt) : (s.modRing f).obj = s.obj := rfl
@[simp] theorem State.modRing_challenge (f : RingSt → RingSt) : (s.modRing f).challenge = s.challenge := rfl
@[simp] theorem State.modRing_pwr (f : RingSt → RingSt) : (s.modRing f).pwr = s.pwr := rfl
@[simp] theorem State.modRing_port (f : RingSt → RingSt) : (s.modRing f).port = s.port := rfl
@[simp] theorem State.modRing_job (f : RingSt → RingSt) : (s.modRing f).job = s.job := rfl
@[simp] theorem State.modRing_nextJob (f : RingSt → RingSt) : (s.modRing f).nextJob = s.nextJob := rfl
@[simp] theorem State.modRing_due (f : RingSt → RingSt) : (s.modRing f).due = s.due := rfl
@[simp] theorem State.modRing_ctx (f : RingSt → RingSt) : (s.modRing f).ctx = s.ctx := rfl
@[simp] theorem State.modRing_strm (f : RingSt → RingSt) : (s.modRing f).strm = s.strm := rfl
@[simp] theorem State.modRing_ep (f : RingSt → RingSt) : (s.modRing f).ep = s.ep := rfl
@[simp] theorem State.modRing_thr (f : RingSt → RingSt) : (s.modRing f).thr = s.thr := rfl
@[simp] theorem State.modRing_expct (f : RingSt → RingSt) : (s.modRing f).expct = s.expct := rfl
@[simp] theorem State.modRing_orphan (f : RingSt → RingSt) : (s.modRing f).orphan = s.orphan := rfl
@[simp] theorem State.modRing_cursor (f : RingSt → RingSt) : (s.modRing f).cursor = s.cursor := rfl
@[simp] theorem State.modRing_hnd (f : RingSt → RingSt) : (s.modRing f).hnd = s.hnd := rfl
@[simp] theorem State.modRing_pin (f : RingSt → RingSt) : (s.modRing f).pin = s.pin := rfl
@[simp] theorem State.modRing_slot (f : RingSt → RingSt) : (s.modRing f).slot = s.slot := rfl
@[simp] theorem State.modRing_rs (f : RingSt → RingSt) : (s.modRing f).rs = s.rs := rfl
@[simp] theorem State.modRing_bob (f : RingSt → RingSt) : (s.modRing f).bob = s.bob := rfl
@[simp] theorem State.modRing_nc (f : RingSt → RingSt) : (s.modRing f).nc = s.nc := rfl
@[simp] theorem State.modRing_lc (f : RingSt → RingSt) : (s.modRing f).lc = s.lc := rfl
@[simp] theorem State.modRing_eng (f : RingSt → RingSt) : (s.modRing f).eng = s.eng := rfl
@[simp] theorem State.modRing_code (f : RingSt → RingSt) : (s.modRing f).code = s.code := rfl
@[simp] theorem State.modRing_const (f : RingSt → RingSt) : (s.modRing f).const = s.const := rfl
@[simp] theorem State.modRing_ectrlInit (f : RingSt → RingSt) : (s.modRing f).ectrlInit = s.ectrlInit := rfl
@[simp] theorem State.modRing_mig (f : RingSt → RingSt) : (s.modRing f).mig = s.mig := rfl
@[simp] theorem State.modRing_part (f : RingSt → RingSt) : (s.modRing f).part = s.part := rfl
@[simp] theorem State.modRing_tile (f : RingSt → RingSt) : (s.modRing f).tile = s.tile := rfl

/-! ### modPwr -/

@[simp] theorem State.modPwr_pending (f : PowerSt → PowerSt) : (s.modPwr f).pending = s.pending := rfl
@[simp] theorem State.modPwr_free (f : PowerSt → PowerSt) : (s.modPwr f).free = s.free := rfl
@[simp] theorem State.modPwr_clkF (f : PowerSt → PowerSt) : (s.modPwr f).clkF = s.clkF := rfl
@[simp] theorem State.modPwr_order (f : PowerSt → PowerSt) : (s.modPwr f).order = s.order := rfl
@[simp] theorem State.modPwr_out (f : PowerSt → PowerSt) : (s.modPwr f).out = s.out := rfl
@[simp] theorem State.modPwr_held (f : PowerSt → PowerSt) : (s.modPwr f).held = s.held := rfl
@[simp] theorem State.modPwr_obj (f : PowerSt → PowerSt) : (s.modPwr f).obj = s.obj := rfl
@[simp] theorem State.modPwr_challenge (f : PowerSt → PowerSt) : (s.modPwr f).challenge = s.challenge := rfl
@[simp] theorem State.modPwr_ring (f : PowerSt → PowerSt) : (s.modPwr f).ring = s.ring := rfl
@[simp] theorem State.modPwr_port (f : PowerSt → PowerSt) : (s.modPwr f).port = s.port := rfl
@[simp] theorem State.modPwr_job (f : PowerSt → PowerSt) : (s.modPwr f).job = s.job := rfl
@[simp] theorem State.modPwr_nextJob (f : PowerSt → PowerSt) : (s.modPwr f).nextJob = s.nextJob := rfl
@[simp] theorem State.modPwr_due (f : PowerSt → PowerSt) : (s.modPwr f).due = s.due := rfl
@[simp] theorem State.modPwr_ctx (f : PowerSt → PowerSt) : (s.modPwr f).ctx = s.ctx := rfl
@[simp] theorem State.modPwr_strm (f : PowerSt → PowerSt) : (s.modPwr f).strm = s.strm := rfl
@[simp] theorem State.modPwr_ep (f : PowerSt → PowerSt) : (s.modPwr f).ep = s.ep := rfl
@[simp] theorem State.modPwr_thr (f : PowerSt → PowerSt) : (s.modPwr f).thr = s.thr := rfl
@[simp] theorem State.modPwr_expct (f : PowerSt → PowerSt) : (s.modPwr f).expct = s.expct := rfl
@[simp] theorem State.modPwr_orphan (f : PowerSt → PowerSt) : (s.modPwr f).orphan = s.orphan := rfl
@[simp] theorem State.modPwr_cursor (f : PowerSt → PowerSt) : (s.modPwr f).cursor = s.cursor := rfl
@[simp] theorem State.modPwr_hnd (f : PowerSt → PowerSt) : (s.modPwr f).hnd = s.hnd := rfl
@[simp] theorem State.modPwr_pin (f : PowerSt → PowerSt) : (s.modPwr f).pin = s.pin := rfl
@[simp] theorem State.modPwr_slot (f : PowerSt → PowerSt) : (s.modPwr f).slot = s.slot := rfl
@[simp] theorem State.modPwr_rs (f : PowerSt → PowerSt) : (s.modPwr f).rs = s.rs := rfl
@[simp] theorem State.modPwr_bob (f : PowerSt → PowerSt) : (s.modPwr f).bob = s.bob := rfl
@[simp] theorem State.modPwr_nc (f : PowerSt → PowerSt) : (s.modPwr f).nc = s.nc := rfl
@[simp] theorem State.modPwr_lc (f : PowerSt → PowerSt) : (s.modPwr f).lc = s.lc := rfl
@[simp] theorem State.modPwr_eng (f : PowerSt → PowerSt) : (s.modPwr f).eng = s.eng := rfl
@[simp] theorem State.modPwr_code (f : PowerSt → PowerSt) : (s.modPwr f).code = s.code := rfl
@[simp] theorem State.modPwr_const (f : PowerSt → PowerSt) : (s.modPwr f).const = s.const := rfl
@[simp] theorem State.modPwr_ectrlInit (f : PowerSt → PowerSt) : (s.modPwr f).ectrlInit = s.ectrlInit := rfl
@[simp] theorem State.modPwr_mig (f : PowerSt → PowerSt) : (s.modPwr f).mig = s.mig := rfl
@[simp] theorem State.modPwr_part (f : PowerSt → PowerSt) : (s.modPwr f).part = s.part := rfl
@[simp] theorem State.modPwr_tile (f : PowerSt → PowerSt) : (s.modPwr f).tile = s.tile := rfl

/-! ### Counters -/

@[simp] theorem State.oAdd_pending (i j n : Nat) : (s.oAdd i j n).pending = s.pending := rfl
@[simp] theorem State.oAdd_free (i j n : Nat) : (s.oAdd i j n).free = s.free := rfl
@[simp] theorem State.oAdd_clkF (i j n : Nat) : (s.oAdd i j n).clkF = s.clkF := rfl
@[simp] theorem State.oAdd_order (i j n : Nat) : (s.oAdd i j n).order = s.order := rfl
@[simp] theorem State.oAdd_out (i j n : Nat) : (s.oAdd i j n).out = s.out := rfl
@[simp] theorem State.oAdd_held (i j n : Nat) : (s.oAdd i j n).held = s.held := rfl
@[simp] theorem State.oAdd_challenge (i j n : Nat) : (s.oAdd i j n).challenge = s.challenge := rfl
@[simp] theorem State.oAdd_ring (i j n : Nat) : (s.oAdd i j n).ring = s.ring := rfl
@[simp] theorem State.oAdd_pwr (i j n : Nat) : (s.oAdd i j n).pwr = s.pwr := rfl
@[simp] theorem State.oAdd_port (i j n : Nat) : (s.oAdd i j n).port = s.port := rfl
@[simp] theorem State.oAdd_job (i j n : Nat) : (s.oAdd i j n).job = s.job := rfl
@[simp] theorem State.oAdd_nextJob (i j n : Nat) : (s.oAdd i j n).nextJob = s.nextJob := rfl
@[simp] theorem State.oAdd_due (i j n : Nat) : (s.oAdd i j n).due = s.due := rfl
@[simp] theorem State.oAdd_ctx (i j n : Nat) : (s.oAdd i j n).ctx = s.ctx := rfl
@[simp] theorem State.oAdd_strm (i j n : Nat) : (s.oAdd i j n).strm = s.strm := rfl
@[simp] theorem State.oAdd_ep (i j n : Nat) : (s.oAdd i j n).ep = s.ep := rfl
@[simp] theorem State.oAdd_thr (i j n : Nat) : (s.oAdd i j n).thr = s.thr := rfl
@[simp] theorem State.oAdd_expct (i j n : Nat) : (s.oAdd i j n).expct = s.expct := rfl
@[simp] theorem State.oAdd_orphan (i j n : Nat) : (s.oAdd i j n).orphan = s.orphan := rfl
@[simp] theorem State.oAdd_cursor (i j n : Nat) : (s.oAdd i j n).cursor = s.cursor := rfl
@[simp] theorem State.oAdd_hnd (i j n : Nat) : (s.oAdd i j n).hnd = s.hnd := rfl
@[simp] theorem State.oAdd_pin (i j n : Nat) : (s.oAdd i j n).pin = s.pin := rfl
@[simp] theorem State.oAdd_slot (i j n : Nat) : (s.oAdd i j n).slot = s.slot := rfl
@[simp] theorem State.oAdd_rs (i j n : Nat) : (s.oAdd i j n).rs = s.rs := rfl
@[simp] theorem State.oAdd_bob (i j n : Nat) : (s.oAdd i j n).bob = s.bob := rfl
@[simp] theorem State.oAdd_nc (i j n : Nat) : (s.oAdd i j n).nc = s.nc := rfl
@[simp] theorem State.oAdd_lc (i j n : Nat) : (s.oAdd i j n).lc = s.lc := rfl
@[simp] theorem State.oAdd_eng (i j n : Nat) : (s.oAdd i j n).eng = s.eng := rfl
@[simp] theorem State.oAdd_code (i j n : Nat) : (s.oAdd i j n).code = s.code := rfl
@[simp] theorem State.oAdd_const (i j n : Nat) : (s.oAdd i j n).const = s.const := rfl
@[simp] theorem State.oAdd_ectrlInit (i j n : Nat) : (s.oAdd i j n).ectrlInit = s.ectrlInit := rfl
@[simp] theorem State.oAdd_mig (i j n : Nat) : (s.oAdd i j n).mig = s.mig := rfl
@[simp] theorem State.oAdd_part (i j n : Nat) : (s.oAdd i j n).part = s.part := rfl
@[simp] theorem State.oAdd_tile (i j n : Nat) : (s.oAdd i j n).tile = s.tile := rfl
@[simp] theorem State.oInc_pending (i j : Nat) : (s.oInc i j).pending = s.pending := rfl
@[simp] theorem State.oInc_free (i j : Nat) : (s.oInc i j).free = s.free := rfl
@[simp] theorem State.oInc_clkF (i j : Nat) : (s.oInc i j).clkF = s.clkF := rfl
@[simp] theorem State.oInc_order (i j : Nat) : (s.oInc i j).order = s.order := rfl
@[simp] theorem State.oInc_out (i j : Nat) : (s.oInc i j).out = s.out := rfl
@[simp] theorem State.oInc_held (i j : Nat) : (s.oInc i j).held = s.held := rfl
@[simp] theorem State.oInc_challenge (i j : Nat) : (s.oInc i j).challenge = s.challenge := rfl
@[simp] theorem State.oInc_ring (i j : Nat) : (s.oInc i j).ring = s.ring := rfl
@[simp] theorem State.oInc_pwr (i j : Nat) : (s.oInc i j).pwr = s.pwr := rfl
@[simp] theorem State.oInc_port (i j : Nat) : (s.oInc i j).port = s.port := rfl
@[simp] theorem State.oInc_job (i j : Nat) : (s.oInc i j).job = s.job := rfl
@[simp] theorem State.oInc_nextJob (i j : Nat) : (s.oInc i j).nextJob = s.nextJob := rfl
@[simp] theorem State.oInc_due (i j : Nat) : (s.oInc i j).due = s.due := rfl
@[simp] theorem State.oInc_ctx (i j : Nat) : (s.oInc i j).ctx = s.ctx := rfl
@[simp] theorem State.oInc_strm (i j : Nat) : (s.oInc i j).strm = s.strm := rfl
@[simp] theorem State.oInc_ep (i j : Nat) : (s.oInc i j).ep = s.ep := rfl
@[simp] theorem State.oInc_thr (i j : Nat) : (s.oInc i j).thr = s.thr := rfl
@[simp] theorem State.oInc_expct (i j : Nat) : (s.oInc i j).expct = s.expct := rfl
@[simp] theorem State.oInc_orphan (i j : Nat) : (s.oInc i j).orphan = s.orphan := rfl
@[simp] theorem State.oInc_cursor (i j : Nat) : (s.oInc i j).cursor = s.cursor := rfl
@[simp] theorem State.oInc_hnd (i j : Nat) : (s.oInc i j).hnd = s.hnd := rfl
@[simp] theorem State.oInc_pin (i j : Nat) : (s.oInc i j).pin = s.pin := rfl
@[simp] theorem State.oInc_slot (i j : Nat) : (s.oInc i j).slot = s.slot := rfl
@[simp] theorem State.oInc_rs (i j : Nat) : (s.oInc i j).rs = s.rs := rfl
@[simp] theorem State.oInc_bob (i j : Nat) : (s.oInc i j).bob = s.bob := rfl
@[simp] theorem State.oInc_nc (i j : Nat) : (s.oInc i j).nc = s.nc := rfl
@[simp] theorem State.oInc_lc (i j : Nat) : (s.oInc i j).lc = s.lc := rfl
@[simp] theorem State.oInc_eng (i j : Nat) : (s.oInc i j).eng = s.eng := rfl
@[simp] theorem State.oInc_code (i j : Nat) : (s.oInc i j).code = s.code := rfl
@[simp] theorem State.oInc_const (i j : Nat) : (s.oInc i j).const = s.const := rfl
@[simp] theorem State.oInc_ectrlInit (i j : Nat) : (s.oInc i j).ectrlInit = s.ectrlInit := rfl
@[simp] theorem State.oInc_mig (i j : Nat) : (s.oInc i j).mig = s.mig := rfl
@[simp] theorem State.oInc_part (i j : Nat) : (s.oInc i j).part = s.part := rfl
@[simp] theorem State.oInc_tile (i j : Nat) : (s.oInc i j).tile = s.tile := rfl

/-! ### What is read after a write -/

theorem State.o_oSet_same (i j v : Nat) : (s.oSet i j v).o i j = v := tget_tset_same _ _ _ _

theorem State.o_oSet_ne (i j v i' j' : Nat) (h : okey i' j' ≠ okey i j) : (s.oSet i j v).o i' j' = s.o i' j' := by
  unfold State.o State.oSet
  exact tget_tset_ne _ _ _ _ _ _ h

theorem State.o_oInc_same (i j : Nat) : (s.oInc i j).o i j = (s.o i j + 1) % 2 ^ 64 := State.o_oSet_same s i j _

/-- Writing a dictionary register keeps the store canonical. -/
theorem State.obj_canon_oSet (i j v : Nat) (h : (tsorted s.obj && s.obj.all (fun e => e.2 != objReset e.1)) = true) :
    (tsorted (s.oSet i j v).obj && (s.oSet i j v).obj.all (fun e => e.2 != objReset e.1)) = true := by
  rw [Bool.and_eq_true] at *
  show tsorted (tset _ _ _ _) = true ∧ List.all (tset _ _ _ _) _ = true
  unfold tset
  split
  · refine ⟨tsorted_tdel _ _ h.1, ?_⟩
    rw [List.all_eq_true] at *
    exact fun e he => h.2 e (List.mem_filter.mp he).1
  · rename_i hv
    refine ⟨tsorted_tins _ _ _ (tsorted_tdel _ _ h.1) (tdel_key _ _), ?_⟩
    rw [List.all_eq_true] at *
    intro e he
    rcases (mem_tins _ _ _ e).mp he with rfl | he
    · simpa using hv
    · exact h.2 e (List.mem_filter.mp he).1

/-- Keys of dictionary registers are injective in the index and a subindex below 256. -/
theorem okey_inj (i j i' j' : Nat) (hj : j < 256) (hj' : j' < 256) (h : okey i j = okey i' j') : i = i' ∧ j = j' := by
  unfold okey at h; omega

@[simp] theorem State.portOf_modPort (p : Nat) (f : PortSt → PortSt) : (s.modPort p f).portOf p = f (s.portOf p) := tget_tset_same _ _ _ _
theorem State.portOf_modPort_ne (p p' : Nat) (f : PortSt → PortSt) (ne : p' ≠ p) : (s.modPort p f).portOf p' = s.portOf p' := tget_tset_ne _ _ _ _ _ _ ne
@[simp] theorem State.ctxOf_modCtx (c : Nat) (f : CtxSt → CtxSt) : (s.modCtx c f).ctxOf c = f (s.ctxOf c) := tget_tset_same _ _ _ _
theorem State.ctxOf_modCtx_ne (c c' : Nat) (f : CtxSt → CtxSt) (ne : c' ≠ c) : (s.modCtx c f).ctxOf c' = s.ctxOf c' := tget_tset_ne _ _ _ _ _ _ ne
@[simp] theorem State.hndOf_modHnd (h : Nat) (f : Handle → Handle) : (s.modHnd h f).hndOf h = f (s.hndOf h) := tget_tset_same _ _ _ _
theorem State.hndOf_modHnd_ne (h h' : Nat) (f : Handle → Handle) (ne : h' ≠ h) : (s.modHnd h f).hndOf h' = s.hndOf h' := tget_tset_ne _ _ _ _ _ _ ne
@[simp] theorem State.q_modQ (k : Nat) (f : Query → Query) : (s.modQ k f).q k = f (s.q k) := tget_tset_same _ _ _ _
theorem State.q_modQ_ne (k k' : Nat) (f : Query → Query) (ne : k' ≠ k) : (s.modQ k f).q k' = s.q k' := tget_tset_ne _ _ _ _ _ _ ne
@[simp] theorem State.bobOf_modBob (b : Nat) (f : BobSt → BobSt) : (s.modBob b f).bobOf b = f (s.bobOf b) := tget_tset_same _ _ _ _
theorem State.bobOf_modBob_ne (b b' : Nat) (f : BobSt → BobSt) (ne : b' ≠ b) : (s.modBob b f).bobOf b' = s.bobOf b' := tget_tset_ne _ _ _ _ _ _ ne
@[simp] theorem State.epOf_modEp (e : Nat) (f : Endpoint → Endpoint) : (s.modEp e f).epOf e = f (s.epOf e) := tget_tset_same _ _ _ _
theorem State.epOf_modEp_ne (e e' : Nat) (f : Endpoint → Endpoint) (ne : e' ≠ e) : (s.modEp e f).epOf e' = s.epOf e' := tget_tset_ne _ _ _ _ _ _ ne
@[simp] theorem State.thrOf_modThr (t : Nat) (f : Thread → Thread) : (s.modThr t f).thrOf t = f (s.thrOf t) := tget_tset_same _ _ _ _
theorem State.thrOf_modThr_ne (t t' : Nat) (f : Thread → Thread) (ne : t' ≠ t) : (s.modThr t f).thrOf t' = s.thrOf t' := tget_tset_ne _ _ _ _ _ _ ne
@[simp] theorem State.migOf_modMig (e : Nat) (f : MigEntry → MigEntry) : (s.modMig e f).migOf e = f (s.migOf e) := tget_tset_same _ _ _ _
theorem State.migOf_modMig_ne (e e' : Nat) (f : MigEntry → MigEntry) (ne : e' ≠ e) : (s.modMig e f).migOf e' = s.migOf e' := tget_tset_ne _ _ _ _ _ _ ne
@[simp] theorem State.st_modSt (b e : Nat) (f : StreamSt → StreamSt) : (s.modSt b e f).st b e = f (s.st b e) := tget_tset_same _ _ _ _
theorem State.st_modSt_ne (b e b' e' : Nat) (f : StreamSt → StreamSt) (ne : b' * 8 + e' ≠ b * 8 + e) : (s.modSt b e f).st b' e' = s.st b' e' :=
  tget_tset_ne _ _ _ _ _ _ ne
@[simp] theorem State.ent_modEnt (b e : Nat) (f : Entry → Entry) : (s.modEnt b e f).ent b e = f (s.ent b e) := tget_tset_same _ _ _ _
theorem State.ent_modEnt_ne (b e b' e' : Nat) (f : Entry → Entry) (ne : b' * 8192 + e' ≠ b * 8192 + e) : (s.modEnt b e f).ent b' e' = s.ent b' e' :=
  tget_tset_ne _ _ _ _ _ _ ne
@[simp] theorem State.engOf_modEng (b e : Nat) (f : Engine → Engine) : (s.modEng b e f).engOf b e = f (s.engOf b e) := tget_tset_same _ _ _ _
theorem State.engOf_modEng_ne (b e b' e' : Nat) (f : Engine → Engine) (ne : b' * 4 + e' ≠ b * 4 + e) : (s.modEng b e f).engOf b' e' = s.engOf b' e' :=
  tget_tset_ne _ _ _ _ _ _ ne

end Sys2Proof.Machine
end

