-- ==== Sys2Proof/Laws/Baste.lean ====
section
/-! SUPPORT. What an operand fetch and an executed Baste instruction can do, said once. -/

namespace Sys2Proof.Machine

/-- An operand fetch changes no register but the post-incremented one (R228). -/
theorem Engine.fetch_frame (cst : Nat → Nat) (en en1 : Engine) (fm : Form) (w : Nat) (v : Word) (h : en.fetch cst fm w = .ok v en1) :
    en1 = { en with x := en1.x, y := en1.y } := by
  unfold Engine.fetch at h
  split at h
  · cases h
  · split at h
    · cases h; rfl
    · simp only at h
      split at h
      · cases h
      · cases h
        unfold Engine.postInc
        split <;> rfl

/-- Without an error in the engine's stores or in its entry, one step of it is its instruction. -/
theorem State.bstOne_ok (s : State) (b g opc : Nat) (op : Op) : s.bstOne b g .ok opc op = s.bstInstr b g .ok opc op := by
  unfold State.bstOne
  split <;> first | rfl | contradiction

/-- An instruction that acts and goes on: the engine holds its result at the next address, and one instruction is counted. -/
theorem State.bstStep_seq (s : State) (b g w opc : Nat) (op : Op) (en1 : Engine) (dz : Bool)
    (hx : s.executes b g w opc) (hrep : ¬(0 < (s.engOf b g).rep ∧ 0x60 ≤ opc ∧ opc ≤ 0x69))
    (hop : op s.cstAt (s.engOf b g) w = .seq en1 dz) (hent : en1.ent = (s.engOf b g).ent) (hdz : (dz && en1.trapDz) = false) :
    s.bstStep b g .ok opc op = s.actedSeq b g w en1 := by
  obtain ⟨hw, ho, hpc⟩ := hx
  have hi : s.bstInstr b g .ok opc op = s.actedSeq b g w en1 := by
    unfold State.bstInstr
    simp only [hw, ho, ne_eq, not_true_eq_false, if_false, State.checked, hrep]
    have hp : ¬ 0x1000 ≤ (s.engOf b g).nextPc := by omega
    unfold Engine.nextPc at hp
    simp only [State.bstApply, hop, State.bstGo, hdz, Bool.false_eq_true, if_false, hp]
    rfl
  unfold State.bstStep
  rw [State.bstOne_ok, hi]
  have : ((s.actedSeq b g w en1).engOf b g).ent = (s.engOf b g).ent := by
    simp [State.actedSeq, State.acted, hent]
  simp only [this, if_true]

/-- An instruction that acts and goes to an address. -/
theorem State.bstStep_jump (s : State) (b g w opc pc : Nat) (op : Op) (en1 : Engine)
    (hw : s.bstWord b g = some w) (ho : iOp w = opc) (hrep : ¬(0 < (s.engOf b g).rep ∧ 0x60 ≤ opc ∧ opc ≤ 0x69))
    (hop : op s.cstAt (s.engOf b g) w = .jump en1 pc) (hent : en1.ent = (s.engOf b g).ent) (hpc : pc < 0x1000) :
    s.bstStep b g .ok opc op = s.acted b g w pc 0 en1 := by
  have hi : s.bstInstr b g .ok opc op = s.acted b g w pc 0 en1 := by
    unfold State.bstInstr
    simp only [hw, ho, ne_eq, not_true_eq_false, if_false, State.checked, hrep]
    have hp : ¬ 0x1000 ≤ pc := by omega
    simp only [State.bstApply, hop, State.bstGo, Bool.false_and, Bool.false_eq_true, if_false, hp]
    rfl
  unfold State.bstStep
  rw [State.bstOne_ok, hi]
  have : ((s.acted b g w pc 0 en1).engOf b g).ent = (s.engOf b g).ent := by
    simp [State.acted, hent]
  simp only [this, if_true]

/-- An instruction that traps before it acts. -/
theorem State.bstInstr_trap (s : State) (b g w opc cause : Nat) (op : Op)
    (hw : s.bstWord b g = some w) (ho : iOp w = opc) (hrep : (s.engOf b g).rep = 0)
    (hop : op s.cstAt (s.engOf b g) w = .trap cause) :
    s.bstInstr b g .ok opc op = s.bstTrap b g cause (s.engOf b g).pc 0 (BitVec.ofNat 32 w) := by
  unfold State.bstInstr
  simp only [hw, ho, ne_eq, not_true_eq_false, if_false, State.checked, hrep, Nat.lt_irrefl, false_and, State.bstApply, hop]

end Sys2Proof.Machine
end

