-- ==== Sys2Proof/Laws/Ops.lean ====
section
/-! SUPPORT. What telling the outside can do (R419, R420, R431): a raised cause, an event and a frame change registers of the
dictionary, the held events, what has been sent and the count of free values, and nothing else. -/

namespace Sys2Proof.Machine

/-- The state without what an event or a cause can change. -/
def State.core (s : State) : State := { s with obj := [], out := [], free := 0, ring := { s.ring with events := [] } }

variable (s : State)

@[simp] theorem State.oSet_core (i j v : Nat) : (s.oSet i j v).core = s.core := rfl
@[simp] theorem State.oAdd_core (i j n : Nat) : (s.oAdd i j n).core = s.core := rfl
@[simp] theorem State.oInc_core (i j : Nat) : (s.oInc i j).core = s.core := rfl

@[simp] theorem State.sendRing_core (f : RingFrame) : (s.sendRing f).core = s.core := by
  unfold State.sendRing; split <;> rfl
@[simp] theorem State.setCause_core (leaf n what : Nat) : (s.setCause leaf n what).1.core = s.core := by
  unfold State.setCause
  by_cases h : bit (s.o leaf 1) n = true
  · simp only [h, if_true]; exact State.oSet_core _ _ _ _
  · simp only [h]; exact (State.oSet_core _ _ _ _).trans (State.oSet_core _ _ _ _)
theorem State.sendEvent_core (ev : BitVec 16 × List Byte) : (s.sendEvent ev).core = s.core := by
  unfold State.sendEvent; split
  · rfl
  · exact (show ({ s.sendRing (eventFrame s ev) with free := s.free + 1 } : State).core = (s.sendRing (eventFrame s ev)).core from rfl).trans
      (s.sendRing_core _)
theorem State.pushEvent_core (d : List Byte) : (s.pushEvent d).1.core = s.core := by
  unfold State.pushEvent; split
  · rfl
  · simp only; rw [State.sendEvent_core]; split
    · rw [State.oSet_core]; rfl
    · rfl
theorem State.raiseLost_core (q : Nat) : (s.raiseLost q).core = s.core := by
  unfold State.raiseLost
  have h := s.setCause_core 0x5800 3 q
  split
  · next h1 => rw [h1] at h; exact h
  · next s1 h1 =>
    rw [h1] at h
    split
    · have h2 := s1.pushEvent_core (causeData 0x5800 3 (s1.o 0x5800 0x13))
      split
      · next h3 => rw [h3] at h2; rw [State.setCause_core]; exact h2.trans h
      · next h3 => rw [h3] at h2; exact h2.trans h
    · exact h
@[simp] theorem State.event_core (d : List Byte) : (s.event d).core = s.core := by
  unfold State.event
  have h := s.pushEvent_core d
  split
  · next h1 => rw [h1] at h; rw [State.raiseLost_core]; exact h
  · next h1 => rw [h1] at h; exact h
@[simp] theorem State.stateEvent_core : s.stateEvent.core = s.core := s.event_core _
/-- A raised cause leaves everything but the dictionary, the held events, what has been sent and the count of free values (R431). -/
@[simp] theorem State.raise_core (leaf n what : Nat) : (s.raise leaf n what).core = s.core := by
  unfold State.raise
  have h := s.setCause_core leaf n what
  split
  · next h1 =>
    rw [h1] at h
    split
    · rw [State.event_core]; exact h
    · exact h
  · next h1 => rw [h1] at h; exact h

/-! ## Registers that an event leaves alone -/

theorem okey_ne {i j k l : Nat} (h : i ≠ k) (hj : j < 256) (hl : l < 256) : okey i j ≠ okey k l := by
  unfold okey; omega
theorem State.oSet_o_ne (i j k l v : Nat) (h : i ≠ k) (hj : j < 256) (hl : l < 256) : (s.oSet k l v).o i j = s.o i j := by
  unfold State.o State.oSet; exact tget_tset_ne _ _ _ _ _ _ (okey_ne h hj hl)
theorem State.oSet_o_same (i j v : Nat) : (s.oSet i j v).o i j = v := by
  unfold State.o State.oSet; exact tget_tset_same _ _ _ _

variable {i j : Nat}

theorem State.setCause_o (leaf n what : Nat) (hn : n < 24) (hj : j < 256) (h : i ≠ leaf) : (s.setCause leaf n what).1.o i j = s.o i j := by
  unfold State.setCause; simp only; split
  · exact s.oSet_o_ne _ _ _ _ _ h hj (by omega)
  · simp only; rw [State.oSet_o_ne _ _ _ _ _ _ h hj (by omega), State.oSet_o_ne _ _ _ _ _ _ h hj (by omega)]
theorem State.sendRing_o (f : RingFrame) (hj : j < 256) (h : i ≠ 0x1100) : (s.sendRing f).o i j = s.o i j := by
  unfold State.sendRing; split
  · exact s.oSet_o_ne _ _ _ _ _ h hj (by omega)
  · rfl
theorem State.sendEvent_o (ev : BitVec 16 × List Byte) (hj : j < 256) (h : i ≠ 0x1100) : (s.sendEvent ev).o i j = s.o i j := by
  unfold State.sendEvent; split
  · rfl
  · exact s.sendRing_o _ hj h
theorem State.pushEvent_o (d : List Byte) (hj : j < 256) (h : i ≠ 0x1100) (h1 : i ≠ 0x1120) : (s.pushEvent d).1.o i j = s.o i j := by
  unfold State.pushEvent; split
  · rfl
  · simp only; rw [State.sendEvent_o _ _ hj h]; split
    · rw [State.oSet_o_ne _ _ _ _ _ _ h1 hj (by omega)]; exact s.oSet_o_ne _ _ _ _ _ h1 hj (by omega)
    · exact s.oSet_o_ne _ _ _ _ _ h1 hj (by omega)
theorem State.raiseLost_o (q : Nat) (hj : j < 256) (h : i ≠ 0x1100) (h1 : i ≠ 0x1120) (h2 : i ≠ 0x5800) : (s.raiseLost q).o i j = s.o i j := by
  unfold State.raiseLost
  have g := s.setCause_o 0x5800 3 q (by omega) hj h2
  split
  · next e => rw [e] at g; exact g
  · next s1 e =>
    rw [e] at g
    split
    · have g2 := s1.pushEvent_o (causeData 0x5800 3 (s1.o 0x5800 0x13)) hj h h1
      split
      · next e2 => rw [e2] at g2; rw [State.setCause_o _ _ _ _ (by omega) hj h2]; exact g2.trans g
      · next e2 => rw [e2] at g2; exact g2.trans g
    · exact g
/-- An event changes no register but those of EVENTS, RING_STAT and the leaf RNG (R419, R420). -/
theorem State.event_o (d : List Byte) (hj : j < 256) (h : i ≠ 0x1100) (h1 : i ≠ 0x1120) (h2 : i ≠ 0x5800) : (s.event d).o i j = s.o i j := by
  unfold State.event
  have g := s.pushEvent_o d hj h h1
  split
  · next e => rw [e] at g; rw [State.raiseLost_o _ _ hj h h1 h2]; exact g
  · next e => rw [e] at g; exact g
/-- A raised cause changes no register but those of its leaf and those that an event changes (R431). -/
theorem State.raise_o (leaf n what : Nat) (hn : n < 24) (hj : j < 256) (hl : i ≠ leaf) (h : i ≠ 0x1100) (h1 : i ≠ 0x1120) (h2 : i ≠ 0x5800) :
    (s.raise leaf n what).o i j = s.o i j := by
  unfold State.raise
  have g := s.setCause_o leaf n what hn hj hl
  split
  · next e =>
    rw [e] at g
    split
    · rw [State.event_o _ _ hj h h1 h2]; exact g
    · exact g
  · next e => rw [e] at g; exact g

/-! ## Fields that they leave alone -/

@[simp] theorem State.event_pwr (d : List Byte) : (s.event d).pwr = s.pwr := (congrArg State.pwr (s.event_core d) :)
@[simp] theorem State.raise_pwr (l n w : Nat) : (s.raise l n w).pwr = s.pwr := (congrArg State.pwr (s.raise_core l n w) :)
@[simp] theorem State.raise_pending (l n w : Nat) : (s.raise l n w).pending = s.pending := (congrArg State.pending (s.raise_core l n w) :)
@[simp] theorem State.raise_port (l n w : Nat) : (s.raise l n w).port = s.port := (congrArg State.port (s.raise_core l n w) :)
@[simp] theorem State.raise_slot (l n w : Nat) : (s.raise l n w).slot = s.slot := (congrArg State.slot (s.raise_core l n w) :)
@[simp] theorem State.raise_strm (l n w : Nat) : (s.raise l n w).strm = s.strm := (congrArg State.strm (s.raise_core l n w) :)
@[simp] theorem State.raise_ctx (l n w : Nat) : (s.raise l n w).ctx = s.ctx := (congrArg State.ctx (s.raise_core l n w) :)
@[simp] theorem State.raise_hnd (l n w : Nat) : (s.raise l n w).hnd = s.hnd := (congrArg State.hnd (s.raise_core l n w) :)
@[simp] theorem State.raise_bob (l n w : Nat) : (s.raise l n w).bob = s.bob := (congrArg State.bob (s.raise_core l n w) :)
@[simp] theorem State.raise_rs (l n w : Nat) : (s.raise l n w).rs = s.rs := (congrArg State.rs (s.raise_core l n w) :)
@[simp] theorem State.raise_eng (l n w : Nat) : (s.raise l n w).eng = s.eng := (congrArg State.eng (s.raise_core l n w) :)
@[simp] theorem State.raise_mig (l n w : Nat) : (s.raise l n w).mig = s.mig := (congrArg State.mig (s.raise_core l n w) :)
@[simp] theorem State.raise_tile (l n w : Nat) : (s.raise l n w).tile = s.tile := (congrArg State.tile (s.raise_core l n w) :)

end Sys2Proof.Machine
end

