-- ==== Sys2Proof/WellFormed.lean ====
section
/-! DEFINITION. Which operands the spec gives each command: the numbers of the tile's units, and frames and words of the row's kind.
The meanings are total: a command outside these ranges names nothing that exists. -/

namespace Sys2Proof

/-- Contexts (R13). -/
def ctxOk (c : Nat) : Bool := decide (c < 64)
/-- Streams of a context (R13). -/
def strmOk (c st : Nat) : Bool := ctxOk c && decide (st < 8)
/-- Host ports (R337). -/
def hostOk (hp : Nat) : Bool := decide (hp < 8)
/-- Memory and host ports, as ports 0 to 23 (R337). -/
def portOk (p : Nat) : Bool := decide (p < 24)
/-- Ports with modules: memory, host and seam (R337, R338): a memory port has four modules, a host port two, a seam port one. -/
def moduleOk (p m : Nat) : Bool := decide (p < 48) && decide (m < (if p < 16 then 4 else if p < 24 then 2 else 1))
/-- Bobbins (R12). -/
def bobOk (b : Nat) : Bool := decide (b < 48)
/-- Needles of a Bobbin (R12). -/
def needleOk (b n : Nat) : Bool := bobOk b && decide (n < 16)
/-- Ray-store entries of a Bobbin (R12). -/
def entryOk (b e : Nat) : Bool := bobOk b && decide (e < 8192)
/-- Baste engines of a Bobbin (R12). -/
def engineOk (b e : Nat) : Bool := bobOk b && decide (e < 4)
/-- Parking slots: at most the units of the largest parking region (R28, R299). -/
def slotOk (k : Nat) : Bool := decide (k < 3072 * 16384)
/-- Migration-table entries (R358). -/
def migOk (e : Nat) : Bool := decide (e < 65536)
/-- Thread descriptors (R268). -/
def threadOk (t : Nat) : Bool := decide (t < 65536)
/-- A seam frame of a type on a seam port (R355, R356). -/
def seamOk (sp t : Nat) (f : SeamFrame) : Bool :=
  decide (sp < 24) && decide (f.hdr.toNat % 256 = t) && decide (f.payload < 256 ^ (f.hdr.toNat / 2 ^ 32 % 65536))
/-- A ring frame of a type, with the data its LEN names (R405, R407). -/
def ringOk (t : Nat) (f : RingFrame) : Bool :=
  decide (f.ftype.toNat = t) && decide (f.data.length = (if t = 2 then 0 else f.len.toNat)) && decide (f.len.toNat ≤ 256)
/-- A Bodkin command whose CODE is one of the row's (R270). -/
def bdkOk (hp c : Nat) (w : Option BdkWords) (is : Nat → Bool) : Bool :=
  hostOk hp && ctxOk c && (match w with | some x => is (x.w0.toNat % 256) | none => true)

/-- The operands of a command are in range. -/
def Instr.wf : Instr → Bool
  | .doorbell hp c st _ | .rcons hp c st _ | .scred hp c st _ => hostOk hp && strmOk c st
  | .bcred hp c _ => hostOk hp && ctxOk c
  | .dcred hp e _ => hostOk hp && decide (e < 1024)
  | .spawn hp c w => bdkOk hp c w (fun k => k == 1)
  | .expect hp c w => bdkOk hp c w (fun k => k == 2)
  | .ack hp c w => bdkOk hp c w (fun k => k == 3)
  | .bdkCancel hp c w => bdkOk hp c w (fun k => k == 4)
  | .post hp c w => bdkOk hp c w (fun k => k == 5)
  | .discard hp c w => bdkOk hp c w (fun k => k == 6)
  | .bdkReservedCode hp c w => bdkOk hp c w (fun k => k == 0 || decide (6 < k))
  | .mbRead hp _ _ | .mbWrite hp _ _ | .mbReservedOp hp _ _ _ => hostOk hp
  | .objectWrite (.dict _ _ len v) => decide (v < 256 ^ len)
  | .objectWrite (.window hp off _ _) => hostOk hp && decide (off % 64 = 0) && decide (off < 2 ^ 24)
  | .cpld p _ _ | .cpl p _ | .cplTimeout p _ _ => portOk p
  | .laneFault p m | .retrainTimeout p m => moduleOk p m
  | .retrainDone p => decide (p < 48)
  | .migrate sp f => seamOk sp 1 f
  | .migvec sp f => seamOk sp 7 f
  | .result sp f => seamOk sp 2 f
  | .recs sp f => seamOk sp 3 f
  | .maint sp f => seamOk sp 4 f
  | .maintAck sp f => seamOk sp 5 f
  | .credit sp f => seamOk sp 6 f
  | .migrateSend k | .contBuild k | .reissue k => slotOk k
  | .migTimeout e | .migBackoff e => migOk e
  | .ringEnum f => ringOk 1 f
  | .ringRead f => ringOk 2 f
  | .ringWrite f | .ringMembers f => ringOk 3 f
  | .ringResp f => ringOk 4 f
  | .relay f => ringOk f.ftype.toNat f
  | .frameDiscard _ | .announce | .evtResend | .evtAck _ | .unlock _ | .ringRst _ | .ringReset _ | .bypassOpen | .domainWriteTimeout _ _
  | .peerTimeout _ | .sleep | .wake | .hold | .autoSleep | .quiesceDone | .sleepEntry | .wakeDone | .consolidation => true
  | .needleClockStop b n => needleOk b n
  | .bobbinClockStop b | .idleGating b | .bobbinGate b | .bobbinWake b | .clockStoppedWake b => bobOk b
  | .thermalReading tj => decide (-2 ^ 23 ≤ tj) && decide (tj < 2 ^ 23)
  | .probeReading su => decide (su.length = 96)
  | .vsettle | .clkAStep | .logUpdate | .partAuto | .interval | .schemeDecision | .vddWOn | .vddWOff | .pwrokRise _ | .pwrokFall | .rstNAssert
  | .rstNDeassert _ | .coldStart _ | .warmStart _ | .resetCmd _ | .abortContext | .abortAll | .abortComplete _ => true
  | .releaseDone c => ctxOk c
  | .tapBypass | .tapIdcode | .tapSamplePreload _ | .tapExtest | .tapClamp | .tapHighz => true
  | .causeClear _ _ => true
  | .cancel c _ | .idxLoad c | .drop c | .refitBegin c | .refitEnd c => ctxOk c
  | .refitHeld h => decide (h < 4096)
  | .pinExtend | .imgLoad | .imgWrite | .apply | .partDone | .shift | .clean | .invalidate | .cleanInvalidate | .lock | .lockIndex | .mtUnlock
  | .maintDone | .readmit _ | .stage => true
  | .streamEnable c st _ => strmOk c st
  | .contextEnable c _ | .bdkEnable c _ | .quotaWrite c _ _ => ctxOk c
  | .endpointEnable e _ => decide (e < 1024)
  | .cacheEnable _ => true
  | .redir c st | .rfault c st | .admission c st | .genBegin c st => strmOk c st
  | .fetch | .generate | .release | .cl0Release => true
  | .binRipe i => decide (i < 131076)
  | .boxVisit b n _ | .instanceVisit b n _ | .leafHandoff b n _ | .metricVisit b n _ => needleOk b n
  | .intersectorResult b _ | .leafArrayResult b _ | .weightFill b | .bankPending b | .withdrawDone b | .cutoff b | .basteHandoff b => bobOk b
  | .roleChange b bank => bobOk b && decide (bank < 2)
  | .finishingWalk b e | .completion b e | .revert b e => entryOk b e
  | .queryPark b e => entryOk b (e - 8192)
  | .ringEntryWrite c st | .slotFillOpen c st | .flush c st | .headWb c st | .resWb c st => strmOk c st
  | .operand | .dispatch | .spill | .reload | .mendRetry _ | .mismatchInterval => true
  | .affWait t | .ageLimit t | .ackLate t => threadOk t
  | .scrub k _ => decide (k < 48)
  | .budget b e | .illegal b e => engineOk b e
  | .bstNop b e _ | .bstLoad b e _ | .bstStore b e _ | .bstLoadhi b e _ | .bstLoadx b e _ | .bstStorex b e _ | .bstLoady b e _
  | .bstStorey b e _ | .bstLoadct b e _ | .bstStorect b e _ | .bstMovax b e _ | .bstMovxa b e _ | .bstMovay b e _ | .bstMovya b e _
  | .bstMovact b e _ | .bstMovcta b e _ | .bstAddx b e _ | .bstAddy b e _ | .bstAddct b e _ | .bstAdd b e _ | .bstAddcy b e _ | .bstSub b e _
  | .bstSubcy b e _ | .bstCmp b e _ | .bstAnd b e _ | .bstOr b e _ | .bstXor b e _ | .bstMul b e _ | .bstMulh b e _ | .bstMulhu b e _
  | .bstDiv b e _ | .bstDivu b e _ | .bstRem b e _ | .bstRemu b e _ | .bstNeg b e _ | .bstShl b e _ | .bstShr b e _ | .bstSar b e _
  | .bstRol b e _ | .bstRor b e _ | .bstMin b e _ | .bstMax b e _ | .bstAbs b e _ | .bstNot b e _ | .bstFadd b e _ | .bstFsub b e _
  | .bstFmul b e _ | .bstFdiv b e _ | .bstFsqrt b e _ | .bstFcmp b e _ | .bstFmin b e _ | .bstFmax b e _ | .bstFneg b e _ | .bstFabs b e _
  | .bstFtoi b e _ | .bstItof b e _ | .bstBr b e _ | .bstCall b e _ | .bstRet b e _ | .bstDbnz b e _ | .bstRep b e _ | .bstEnd b e _
  | .bstFault b e _ | .bstRtt b e _ | .bstTrap b e _ | .bstClf b e _ => engineOk b e

end Sys2Proof
end

