-- ==== Sys2Proof/Laws/PerInstr.lean ====
section
/-! SUPPORT. The family Ranges: a command of the register window that is in range names one of the eight host ports (R337, R347). -/

namespace Sys2Proof.Laws.Ranges

/-- A well-formed write to a register window goes through one of the ports HP.0 to HP.7. -/
def Statement (i : Instr) : Prop := ∀ hp, Machine.hwrPort i = some hp → i.wf = true → hp < 8

/-- A command whose range check begins with that of its host port. -/
theorem onPort {i : Instr} {hp : Nat} (r : Bool) (h : Machine.hwrPort i = some hp) (w : i.wf = (hostOk hp && r)) : Statement i := fun p e o => by
  cases h.symm.trans e
  rw [w, Bool.and_eq_true] at o
  exact of_decide_eq_true o.1

/-- As onPort, for the rows of BDK_CMD. -/
theorem onBdk {i : Instr} {hp : Nat} (c : Nat) (x : Option BdkWords) (f : Nat → Bool) (h : Machine.hwrPort i = some hp) (w : i.wf = bdkOk hp c x f) :
    Statement i := by
  rw [bdkOk.eq_def, Bool.and_assoc] at w
  exact onPort _ h w

/-- A command that is no write of a register window names no host port. -/
theorem noPort {i : Instr} (h : Machine.hwrPort i = none) : Statement i := fun _ e => nomatch h.symm.trans e

theorem doorbell (hp c st : Nat) (v : Word) : Statement (.doorbell hp c st v) := onPort (strmOk c st) rfl rfl
theorem rcons (hp c st : Nat) (v : Word) : Statement (.rcons hp c st v) := onPort (strmOk c st) rfl rfl
theorem scred (hp c st : Nat) (v : Word) : Statement (.scred hp c st v) := onPort (strmOk c st) rfl rfl
theorem bcred (hp c : Nat) (v : Word) : Statement (.bcred hp c v) := onPort (ctxOk c) rfl rfl
theorem dcred (hp e : Nat) (v : Word) : Statement (.dcred hp e v) := onPort (decide (e < 1024)) rfl rfl
theorem spawn (hp c : Nat) (w : Option BdkWords) : Statement (.spawn hp c w) := onBdk c w (fun k => k == 1) rfl rfl
theorem expect (hp c : Nat) (w : Option BdkWords) : Statement (.expect hp c w) := onBdk c w (fun k => k == 2) rfl rfl
theorem ack (hp c : Nat) (w : Option BdkWords) : Statement (.ack hp c w) := onBdk c w (fun k => k == 3) rfl rfl
theorem bdkCancel (hp c : Nat) (w : Option BdkWords) : Statement (.bdkCancel hp c w) := onBdk c w (fun k => k == 4) rfl rfl
theorem post (hp c : Nat) (w : Option BdkWords) : Statement (.post hp c w) := onBdk c w (fun k => k == 5) rfl rfl
theorem discard (hp c : Nat) (w : Option BdkWords) : Statement (.discard hp c w) := onBdk c w (fun k => k == 6) rfl rfl
theorem bdkReservedCode (hp c : Nat) (w : Option BdkWords) : Statement (.bdkReservedCode hp c w) := onBdk c w (fun k => k == 0 || decide (6 < k)) rfl rfl
theorem mbRead (hp : Nat) (index : BitVec 16) (sub : BitVec 8) : Statement (.mbRead hp index sub) := onPort true rfl (Bool.and_true _).symm
theorem mbWrite (hp : Nat) (index : BitVec 16) (sub : BitVec 8) : Statement (.mbWrite hp index sub) := onPort true rfl (Bool.and_true _).symm
theorem mbReservedOp (hp : Nat) (index : BitVec 16) (sub : BitVec 8) (op3 : Bool) : Statement (.mbReservedOp hp index sub op3) := onPort true rfl (Bool.and_true _).symm
theorem objectWrite (x : ObjWrite) : Statement (.objectWrite x) := by
  cases x with
  | window hp off d m => exact onPort (decide (off % 64 = 0) && decide (off < 2 ^ 24)) rfl (Bool.and_assoc ..)
  | _ => exact noPort rfl
theorem cpld (p : Nat) (hdr : BitVec 256) (data : BitVec 512) : Statement (.cpld p hdr data) := noPort rfl
theorem cpl (p : Nat) (hdr : BitVec 256) : Statement (.cpl p hdr) := noPort rfl
theorem cplTimeout (p : Nat) (wr : Bool) (tag : BitVec 12) : Statement (.cplTimeout p wr tag) := noPort rfl
theorem laneFault (p m : Nat) : Statement (.laneFault p m) := noPort rfl
theorem retrainDone (p : Nat) : Statement (.retrainDone p) := noPort rfl
theorem retrainTimeout (p m : Nat) : Statement (.retrainTimeout p m) := noPort rfl
theorem migrate (sp : Nat) (f : SeamFrame) : Statement (.migrate sp f) := noPort rfl
theorem migvec (sp : Nat) (f : SeamFrame) : Statement (.migvec sp f) := noPort rfl
theorem result (sp : Nat) (f : SeamFrame) : Statement (.result sp f) := noPort rfl
theorem recs (sp : Nat) (f : SeamFrame) : Statement (.recs sp f) := noPort rfl
theorem maint (sp : Nat) (f : SeamFrame) : Statement (.maint sp f) := noPort rfl
theorem maintAck (sp : Nat) (f : SeamFrame) : Statement (.maintAck sp f) := noPort rfl
theorem credit (sp : Nat) (f : SeamFrame) : Statement (.credit sp f) := noPort rfl
theorem migrateSend (slot : Nat) : Statement (.migrateSend slot) := noPort rfl
theorem migTimeout (e : Nat) : Statement (.migTimeout e) := noPort rfl
theorem migBackoff (e : Nat) : Statement (.migBackoff e) := noPort rfl
theorem ringEnum (f : RingFrame) : Statement (.ringEnum f) := noPort rfl
theorem ringRead (f : RingFrame) : Statement (.ringRead f) := noPort rfl
theorem ringWrite (f : RingFrame) : Statement (.ringWrite f) := noPort rfl
theorem ringMembers (f : RingFrame) : Statement (.ringMembers f) := noPort rfl
theorem ringResp (f : RingFrame) : Statement (.ringResp f) := noPort rfl
theorem frameDiscard (why : RxFault) : Statement (.frameDiscard why) := noPort rfl
theorem announce : Statement (.announce) := noPort rfl
theorem evtResend : Statement (.evtResend) := noPort rfl
theorem evtAck (eseq : BitVec 16) : Statement (.evtAck eseq) := noPort rfl
theorem unlock (record : BitVec 832) : Statement (.unlock record) := noPort rfl
theorem ringRst (code : Byte) : Statement (.ringRst code) := noPort rfl
theorem ringReset (why : RingLoss) : Statement (.ringReset why) := noPort rfl
theorem bypassOpen : Statement (.bypassOpen) := noPort rfl
theorem domainWriteTimeout (index : BitVec 16) (sub : BitVec 8) : Statement (.domainWriteTimeout index sub) := noPort rfl
theorem peerTimeout (svc : Svc) : Statement (.peerTimeout svc) := noPort rfl
theorem relay (f : RingFrame) : Statement (.relay f) := noPort rfl
theorem sleep : Statement (.sleep) := noPort rfl
theorem wake : Statement (.wake) := noPort rfl
theorem hold : Statement (.hold) := noPort rfl
theorem autoSleep : Statement (.autoSleep) := noPort rfl
theorem quiesceDone : Statement (.quiesceDone) := noPort rfl
theorem sleepEntry : Statement (.sleepEntry) := noPort rfl
theorem wakeDone : Statement (.wakeDone) := noPort rfl
theorem needleClockStop (b n : Nat) : Statement (.needleClockStop b n) := noPort rfl
theorem bobbinClockStop (b : Nat) : Statement (.bobbinClockStop b) := noPort rfl
theorem idleGating (b : Nat) : Statement (.idleGating b) := noPort rfl
theorem consolidation : Statement (.consolidation) := noPort rfl
theorem bobbinGate (b : Nat) : Statement (.bobbinGate b) := noPort rfl
theorem bobbinWake (b : Nat) : Statement (.bobbinWake b) := noPort rfl
theorem clockStoppedWake (b : Nat) : Statement (.clockStoppedWake b) := noPort rfl
theorem thermalReading (tj : Int) : Statement (.thermalReading tj) := noPort rfl
theorem probeReading (su : List (Nat × Nat)) : Statement (.probeReading su) := noPort rfl
theorem vsettle : Statement (.vsettle) := noPort rfl
theorem clkAStep : Statement (.clkAStep) := noPort rfl
theorem logUpdate : Statement (.logUpdate) := noPort rfl
theorem partAuto : Statement (.partAuto) := noPort rfl
theorem interval : Statement (.interval) := noPort rfl
theorem schemeDecision : Statement (.schemeDecision) := noPort rfl
theorem vddWOn : Statement (.vddWOn) := noPort rfl
theorem vddWOff : Statement (.vddWOff) := noPort rfl
theorem pwrokRise (env : StartEnv) : Statement (.pwrokRise env) := noPort rfl
theorem pwrokFall : Statement (.pwrokFall) := noPort rfl
theorem rstNAssert : Statement (.rstNAssert) := noPort rfl
theorem rstNDeassert (env : StartEnv) : Statement (.rstNDeassert env) := noPort rfl
theorem coldStart (env : StartEnv) : Statement (.coldStart env) := noPort rfl
theorem warmStart (env : StartEnv) : Statement (.warmStart env) := noPort rfl
theorem resetCmd (code : Byte) : Statement (.resetCmd code) := noPort rfl
theorem abortContext : Statement (.abortContext) := noPort rfl
theorem abortAll : Statement (.abortAll) := noPort rfl
theorem abortComplete (us : Word) : Statement (.abortComplete us) := noPort rfl
theorem releaseDone (c : Nat) : Statement (.releaseDone c) := noPort rfl
theorem tapBypass : Statement (.tapBypass) := noPort rfl
theorem tapIdcode : Statement (.tapIdcode) := noPort rfl
theorem tapSamplePreload (boundary : Nat) : Statement (.tapSamplePreload boundary) := noPort rfl
theorem tapExtest : Statement (.tapExtest) := noPort rfl
theorem tapClamp : Statement (.tapClamp) := noPort rfl
theorem tapHighz : Statement (.tapHighz) := noPort rfl
theorem causeClear (leaf : BitVec 16) (mask : Word) : Statement (.causeClear leaf mask) := noPort rfl
theorem cancel (c : Nat) (mask : Byte) : Statement (.cancel c mask) := noPort rfl
theorem idxLoad (c : Nat) : Statement (.idxLoad c) := noPort rfl
theorem drop (c : Nat) : Statement (.drop c) := noPort rfl
theorem refitBegin (c : Nat) : Statement (.refitBegin c) := noPort rfl
theorem refitHeld (h : Nat) : Statement (.refitHeld h) := noPort rfl
theorem refitEnd (c : Nat) : Statement (.refitEnd c) := noPort rfl
theorem pinExtend : Statement (.pinExtend) := noPort rfl
theorem imgLoad : Statement (.imgLoad) := noPort rfl
theorem imgWrite : Statement (.imgWrite) := noPort rfl
theorem apply : Statement (.apply) := noPort rfl
theorem partDone : Statement (.partDone) := noPort rfl
theorem shift : Statement (.shift) := noPort rfl
theorem clean : Statement (.clean) := noPort rfl
theorem invalidate : Statement (.invalidate) := noPort rfl
theorem cleanInvalidate : Statement (.cleanInvalidate) := noPort rfl
theorem lock : Statement (.lock) := noPort rfl
theorem lockIndex : Statement (.lockIndex) := noPort rfl
theorem mtUnlock : Statement (.mtUnlock) := noPort rfl
theorem maintDone : Statement (.maintDone) := noPort rfl
theorem readmit (code : Byte) : Statement (.readmit code) := noPort rfl
theorem stage : Statement (.stage) := noPort rfl
theorem streamEnable (c st : Nat) (v : Word) : Statement (.streamEnable c st v) := noPort rfl
theorem contextEnable (c : Nat) (v : Word) : Statement (.contextEnable c v) := noPort rfl
theorem bdkEnable (c : Nat) (v : Word) : Statement (.bdkEnable c v) := noPort rfl
theorem endpointEnable (e : Nat) (v : Word) : Statement (.endpointEnable e v) := noPort rfl
theorem quotaWrite (c : Nat) (which : Quota) (v : Word) : Statement (.quotaWrite c which v) := noPort rfl
theorem cacheEnable (v : Word) : Statement (.cacheEnable v) := noPort rfl
theorem redir (c st : Nat) : Statement (.redir c st) := noPort rfl
theorem rfault (c st : Nat) : Statement (.rfault c st) := noPort rfl
theorem fetch : Statement (.fetch) := noPort rfl
theorem admission (c st : Nat) : Statement (.admission c st) := noPort rfl
theorem genBegin (c st : Nat) : Statement (.genBegin c st) := noPort rfl
theorem generate : Statement (.generate) := noPort rfl
theorem contBuild (slot : Nat) : Statement (.contBuild slot) := noPort rfl
theorem binRipe (bin : Nat) : Statement (.binRipe bin) := noPort rfl
theorem release : Statement (.release) := noPort rfl
theorem cl0Release : Statement (.cl0Release) := noPort rfl
theorem boxVisit (b n : Nat) (chk : Chk) : Statement (.boxVisit b n chk) := noPort rfl
theorem instanceVisit (b n : Nat) (chk : Chk) : Statement (.instanceVisit b n chk) := noPort rfl
theorem leafHandoff (b n : Nat) (chk : Chk) : Statement (.leafHandoff b n chk) := noPort rfl
theorem metricVisit (b n : Nat) (chk : Chk) : Statement (.metricVisit b n chk) := noPort rfl
theorem intersectorResult (b : Nat) (chk : Chk) : Statement (.intersectorResult b chk) := noPort rfl
theorem leafArrayResult (b : Nat) (chk : Chk) : Statement (.leafArrayResult b chk) := noPort rfl
theorem weightFill (b : Nat) : Statement (.weightFill b) := noPort rfl
theorem bankPending (b : Nat) : Statement (.bankPending b) := noPort rfl
theorem roleChange (b bank : Nat) : Statement (.roleChange b bank) := noPort rfl
theorem finishingWalk (b e : Nat) : Statement (.finishingWalk b e) := noPort rfl
theorem queryPark (b e : Nat) : Statement (.queryPark b e) := noPort rfl
theorem completion (b e : Nat) : Statement (.completion b e) := noPort rfl
theorem ringEntryWrite (c st : Nat) : Statement (.ringEntryWrite c st) := noPort rfl
theorem slotFillOpen (c st : Nat) : Statement (.slotFillOpen c st) := noPort rfl
theorem flush (c st : Nat) : Statement (.flush c st) := noPort rfl
theorem headWb (c st : Nat) : Statement (.headWb c st) := noPort rfl
theorem resWb (c st : Nat) : Statement (.resWb c st) := noPort rfl
theorem operand : Statement (.operand) := noPort rfl
theorem dispatch : Statement (.dispatch) := noPort rfl
theorem affWait (t : Nat) : Statement (.affWait t) := noPort rfl
theorem ageLimit (t : Nat) : Statement (.ageLimit t) := noPort rfl
theorem ackLate (t : Nat) : Statement (.ackLate t) := noPort rfl
theorem spill : Statement (.spill) := noPort rfl
theorem reload : Statement (.reload) := noPort rfl
theorem revert (b e : Nat) : Statement (.revert b e) := noPort rfl
theorem reissue (slot : Nat) : Statement (.reissue slot) := noPort rfl
theorem mendRetry (n : Nat) : Statement (.mendRetry n) := noPort rfl
theorem withdrawDone (b : Nat) : Statement (.withdrawDone b) := noPort rfl
theorem cutoff (b : Nat) : Statement (.cutoff b) := noPort rfl
theorem mismatchInterval : Statement (.mismatchInterval) := noPort rfl
theorem scrub (k : Nat) (o : ScrubOutcome) : Statement (.scrub k o) := noPort rfl
theorem basteHandoff (b : Nat) : Statement (.basteHandoff b) := noPort rfl
theorem budget (b e : Nat) : Statement (.budget b e) := noPort rfl
theorem illegal (b e : Nat) : Statement (.illegal b e) := noPort rfl
theorem bstNop (b e : Nat) (chk : Chk) : Statement (.bstNop b e chk) := noPort rfl
theorem bstLoad (b e : Nat) (chk : Chk) : Statement (.bstLoad b e chk) := noPort rfl
theorem bstStore (b e : Nat) (chk : Chk) : Statement (.bstStore b e chk) := noPort rfl
theorem bstLoadhi (b e : Nat) (chk : Chk) : Statement (.bstLoadhi b e chk) := noPort rfl
theorem bstLoadx (b e : Nat) (chk : Chk) : Statement (.bstLoadx b e chk) := noPort rfl
theorem bstStorex (b e : Nat) (chk : Chk) : Statement (.bstStorex b e chk) := noPort rfl
theorem bstLoady (b e : Nat) (chk : Chk) : Statement (.bstLoady b e chk) := noPort rfl
theorem bstStorey (b e : Nat) (chk : Chk) : Statement (.bstStorey b e chk) := noPort rfl
theorem bstLoadct (b e : Nat) (chk : Chk) : Statement (.bstLoadct b e chk) := noPort rfl
theorem bstStorect (b e : Nat) (chk : Chk) : Statement (.bstStorect b e chk) := noPort rfl
theorem bstMovax (b e : Nat) (chk : Chk) : Statement (.bstMovax b e chk) := noPort rfl
theorem bstMovxa (b e : Nat) (chk : Chk) : Statement (.bstMovxa b e chk) := noPort rfl
theorem bstMovay (b e : Nat) (chk : Chk) : Statement (.bstMovay b e chk) := noPort rfl
theorem bstMovya (b e : Nat) (chk : Chk) : Statement (.bstMovya b e chk) := noPort rfl
theorem bstMovact (b e : Nat) (chk : Chk) : Statement (.bstMovact b e chk) := noPort rfl
theorem bstMovcta (b e : Nat) (chk : Chk) : Statement (.bstMovcta b e chk) := noPort rfl
theorem bstAddx (b e : Nat) (chk : Chk) : Statement (.bstAddx b e chk) := noPort rfl
theorem bstAddy (b e : Nat) (chk : Chk) : Statement (.bstAddy b e chk) := noPort rfl
theorem bstAddct (b e : Nat) (chk : Chk) : Statement (.bstAddct b e chk) := noPort rfl
theorem bstAdd (b e : Nat) (chk : Chk) : Statement (.bstAdd b e chk) := noPort rfl
theorem bstAddcy (b e : Nat) (chk : Chk) : Statement (.bstAddcy b e chk) := noPort rfl
theorem bstSub (b e : Nat) (chk : Chk) : Statement (.bstSub b e chk) := noPort rfl
theorem bstSubcy (b e : Nat) (chk : Chk) : Statement (.bstSubcy b e chk) := noPort rfl
theorem bstCmp (b e : Nat) (chk : Chk) : Statement (.bstCmp b e chk) := noPort rfl
theorem bstAnd (b e : Nat) (chk : Chk) : Statement (.bstAnd b e chk) := noPort rfl
theorem bstOr (b e : Nat) (chk : Chk) : Statement (.bstOr b e chk) := noPort rfl
theorem bstXor (b e : Nat) (chk : Chk) : Statement (.bstXor b e chk) := noPort rfl
theorem bstMul (b e : Nat) (chk : Chk) : Statement (.bstMul b e chk) := noPort rfl
theorem bstMulh (b e : Nat) (chk : Chk) : Statement (.bstMulh b e chk) := noPort rfl
theorem bstMulhu (b e : Nat) (chk : Chk) : Statement (.bstMulhu b e chk) := noPort rfl
theorem bstDiv (b e : Nat) (chk : Chk) : Statement (.bstDiv b e chk) := noPort rfl
theorem bstDivu (b e : Nat) (chk : Chk) : Statement (.bstDivu b e chk) := noPort rfl
theorem bstRem (b e : Nat) (chk : Chk) : Statement (.bstRem b e chk) := noPort rfl
theorem bstRemu (b e : Nat) (chk : Chk) : Statement (.bstRemu b e chk) := noPort rfl
theorem bstNeg (b e : Nat) (chk : Chk) : Statement (.bstNeg b e chk) := noPort rfl
theorem bstShl (b e : Nat) (chk : Chk) : Statement (.bstShl b e chk) := noPort rfl
theorem bstShr (b e : Nat) (chk : Chk) : Statement (.bstShr b e chk) := noPort rfl
theorem bstSar (b e : Nat) (chk : Chk) : Statement (.bstSar b e chk) := noPort rfl
theorem bstRol (b e : Nat) (chk : Chk) : Statement (.bstRol b e chk) := noPort rfl
theorem bstRor (b e : Nat) (chk : Chk) : Statement (.bstRor b e chk) := noPort rfl
theorem bstMin (b e : Nat) (chk : Chk) : Statement (.bstMin b e chk) := noPort rfl
theorem bstMax (b e : Nat) (chk : Chk) : Statement (.bstMax b e chk) := noPort rfl
theorem bstAbs (b e : Nat) (chk : Chk) : Statement (.bstAbs b e chk) := noPort rfl
theorem bstNot (b e : Nat) (chk : Chk) : Statement (.bstNot b e chk) := noPort rfl
theorem bstFadd (b e : Nat) (chk : Chk) : Statement (.bstFadd b e chk) := noPort rfl
theorem bstFsub (b e : Nat) (chk : Chk) : Statement (.bstFsub b e chk) := noPort rfl
theorem bstFmul (b e : Nat) (chk : Chk) : Statement (.bstFmul b e chk) := noPort rfl
theorem bstFdiv (b e : Nat) (chk : Chk) : Statement (.bstFdiv b e chk) := noPort rfl
theorem bstFsqrt (b e : Nat) (chk : Chk) : Statement (.bstFsqrt b e chk) := noPort rfl
theorem bstFcmp (b e : Nat) (chk : Chk) : Statement (.bstFcmp b e chk) := noPort rfl
theorem bstFmin (b e : Nat) (chk : Chk) : Statement (.bstFmin b e chk) := noPort rfl
theorem bstFmax (b e : Nat) (chk : Chk) : Statement (.bstFmax b e chk) := noPort rfl
theorem bstFneg (b e : Nat) (chk : Chk) : Statement (.bstFneg b e chk) := noPort rfl
theorem bstFabs (b e : Nat) (chk : Chk) : Statement (.bstFabs b e chk) := noPort rfl
theorem bstFtoi (b e : Nat) (chk : Chk) : Statement (.bstFtoi b e chk) := noPort rfl
theorem bstItof (b e : Nat) (chk : Chk) : Statement (.bstItof b e chk) := noPort rfl
theorem bstBr (b e : Nat) (chk : Chk) : Statement (.bstBr b e chk) := noPort rfl
theorem bstCall (b e : Nat) (chk : Chk) : Statement (.bstCall b e chk) := noPort rfl
theorem bstRet (b e : Nat) (chk : Chk) : Statement (.bstRet b e chk) := noPort rfl
theorem bstDbnz (b e : Nat) (chk : Chk) : Statement (.bstDbnz b e chk) := noPort rfl
theorem bstRep (b e : Nat) (chk : Chk) : Statement (.bstRep b e chk) := noPort rfl
theorem bstEnd (b e : Nat) (chk : Chk) : Statement (.bstEnd b e chk) := noPort rfl
theorem bstFault (b e : Nat) (chk : Chk) : Statement (.bstFault b e chk) := noPort rfl
theorem bstRtt (b e : Nat) (chk : Chk) : Statement (.bstRtt b e chk) := noPort rfl
theorem bstTrap (b e : Nat) (chk : Chk) : Statement (.bstTrap b e chk) := noPort rfl
theorem bstClf (b e : Nat) (chk : Chk) : Statement (.bstClf b e chk) := noPort rfl

end Sys2Proof.Laws.Ranges
end

