-- ==== Sys2Proof/Tests/Slice0.lean ====
section
/-! SUPPORT. Small tests of single commands, and states that meet the premises of every statement. -/

namespace Sys2Proof.Tests

set_option Elab.async false

open Sys2Proof Sys2Proof.Machine


def wHold : State := { State.reset with ring := { State.reset.ring with bypassOpen := true }, pwr := { State.reset.pwr with pwrok := true, rstN := true } }.oSet 0x1100 1 5
def wRun : State := wHold.oSet 0x4000 1 3
def fr (dst src ty : Nat) (idx sub len : Nat) (data : List Byte) : RingFrame := sealFrame { dst := BitVec.ofNat 8 dst, src := BitVec.ofNat 8 src, ftype := BitVec.ofNat 8 ty, tid := 7, index := BitVec.ofNat 16 idx, sub := BitVec.ofNat 8 sub, stat := 0, offset := 0, len := BitVec.ofNat 16 len, fflags := if ty == 3 then 1 else 0, res := 0, data := data, crc := 0 }

def up (s : State) (p : Nat) : State := s.oSet (0x4400 + p) 1 1
def pk (ty tag stat sect : Nat) : BitVec 256 := BitVec.ofNat 256 (ty + tag * 2 ^ 16 + stat * 2 ^ 32 + sect * 2 ^ 40)
def rd1 : PReq := { wr := false, addr := 0x40, left := 1 }
def rd4 : PReq := { wr := false, addr := 0x100, left := 15, big := true }
def wr1 : PReq := { wr := true, addr := 0x40, data := 5, mask := 15 }
def withRd (r : PReq) : State := (up wRun 3).modPort 3 (fun p => { p with rds := [(9, r)] })
def withWr (r : PReq) : State := (up wRun 3).modPort 3 (fun p => { p with wrs := [(9, r)] })
def sf (ty src dst plen migid routew arg0 arg1 : Nat) (payload : Nat := 0) : SeamFrame := mkSeam src ty dst plen migid routew arg0 arg1 payload
def wSeam : State := up wRun 26
def wP0 : State := { wRun with part := { pin := 16, park := 16, bin := 16, rb := 16, lc := 16 } }

-- context 1: EN, quotas; window 0 over [0, 2^32) on port 0, RD WR XI
def wP : State := ((((((wP0.coSet 1 0 1).coSet 1 1 100).coSet 1 2 100).oSet 0x2310 0 1).oSet 0x2601 1 0).oSet 0x2601 3 (1 + 2 + 4 + 8 + 2 ^ 20 * 2 ^ 32)).modHnd 3 (fun h => { h with state := 1, owner := 1, entry := 0x3001 * 256 ^ 8, rlen := 0 })
-- stream 2: ring of 256 entries at 0x4000
def wS : State := (wP.coSet 1 (0x19 + 10) (1 + 8 * 256)).coSet 1 (0x18 + 10) 0x4000
def markD : Nat := 3 * 2 ^ 32
def ff (n : Nat) (d : Nat) (st : Option Nat := none) : Fetched := { count := BitVec.ofNat 32 n, data := d, status := st, bell := 5 }
def wE (e : Fetched) : State := wS.modSt 1 2 (fun x => { x with tail := 9, fetched := 8, next := 7, entries := [e] })
def rayQ (cls : Nat) : Query := { place := .binned, qr := { kind := 1, cls := cls, ctx := 1, stream := 2, handle := 3, seq := 7 }, uid := 4 }
def wB (bob : Nat) : State := wS.modBob bob (fun v => { v with clock := 0 })
def binOne (cls : Nat) (es : List Nat) (lb : Option Nat) : Bin := { cls := cls, key := 5, entries := es, lastBob := lb, ripe := true }

-- Bobbin 6 awake; entry 5 of Needle 0 holds slot 4 at an item of type ty at address 0x3000 of cached line data D
def wN (ty : Nat) (D : Nat) (q : Query := rayQ 1) : State :=
  ({ ((wB 6).modQ 4 (fun _ => { q with place := .rayStore 6 5 })).modEnt 6 5 (fun x => { x with slot := some 4, order := 2, qr := q.qr, item := some { ty := ty, addr := 0x3000, level := 0 } }) with
     nc := [(6 * 1024 + ncSetOf 0x30, { ways := [{ way := 0, port := 0, line := 0x30, valid := 15, data := D }] })] })
def netHd : Nat := (1 * 256 + 256 ^ 4 + 5 * 256 ^ 6 + 0x3F800000 * (256 ^ 0x1C + 256 ^ 0x20 + 256 ^ 0x24 + 256 ^ 0x28) + 256 ^ 0x40 + 2 * 256 ^ 0x48)
def wNet : State := let s := (wN 8 netHd).modBob 6 (fun v => { v with wslots := [{ bank := 0, port := 0, pa := 0x3000, ctx := 1, strm := 2, hnd := 3, addr := 0x3000 }] }); { s with nc := s.nc ++ [(6 * 1024 + ncSetOf 0x31, { ways := [{ way := 0, port := 0, line := 0x31, valid := 15, data := 0 }] })] }
def wNs (ty D : Nat) : State := ((wN ty D).pick 6 0).1
def wNv (ty D : Nat) : Nat := match ((wN ty D).pick 6 0).2 with | some x => x.2 | none => 0
def withOp (u : Nat) (s : State) : State := s.modEnt 6 5 (fun x => { x with op := some { unit := u, order := 7, loc := s.startLoc x } })

def vD (s : State) (c st : Nat) (i : HemItem) (r : Rec) (rest : List Rec) : State :=
  let x := s.st c st
  let left := { i with recs := rest, fallback := i.fallback || s.destSlot c st }
  let put := fun (s : State) => s.modSt c st (fun x =>
    let y := if s.destSlot c st && !i.fallback then x.without i else { x with hem := x.hem.filter (fun j => j != i) }
    { y with hem := if rest.isEmpty then y.hem else left :: y.hem })
  ((put s).modSt c st (fun x => { x with issued := x.issued + 1, ringOut := x.ringOut ++ [(x.issued, { i with recs := [r], terminal := rest.isEmpty && i.terminal })] })).oInc 0x4310 1
def vT (s0 : State) (t e : Nat) (x : Thread) (affine : Bool) : State :=
  let s := s0.bdkCycle 2 4
  let d := (s.epOf e).disp
  let s1 := (s.modEp e (fun x => { x with disp := x.disp + 1 })).modThr t (fun x =>
      { x with st := .dispatched, lastEp := some e, sent := some (e, d), aged := false, affOver := false, warned := false })
  let s2 := if affine then s1.oInc 0x4320 7 else { s1.oInc 0x4320 8 with cursor := tset 0 s1.cursor x.group (e + 1) }
  s2.oInc 0x4320 6
def vR (s : State) (k : Nat) : State :=
    let q := s.q k
    let c := q.qr.ctx
    let st := q.qr.stream
    let t := s.tick
    let s1 := t.2.modQ k (fun q => { q.fresh t.1 (q.delivered + (s.st c st).onWay k q.qr.seq) with delivered := q.delivered })
    (s1.oInc 0x7020 7).raise (0x5900 + c) 9 st
def hi (recs : List Rec) (term : Bool := true) : HemItem := { slot := 4, seq := 7, recs := recs, terminal := term, status := 0, paged := true }
-- ring results of stream 2, ring of 16 entries at 0x8000
def wD : State := ((wS.coSet 1 0x12 (4 * 256) 3).coSet 1 0x11 0x8000 3).modQ 4 (fun _ => { rayQ 1 with place := .hem })
def wDi (recs : List Rec) : State := wD.modSt 1 2 (fun x => { x with hem := [hi recs] })
def fl1 : Fill := { number := 1, addr := 0x8000, ready := true, placed := [hi [.trc 1]] }
def wEp : State := ((wS.oSet 0x2C05 1 (1 + 2 * 256 + 3 * 65536 + 4 * 2 ^ 24)).oSet 0x2C05 2 0x9000).modThr 7 (fun _ => { st := .ready, ctx := 1, group := 2 }) |> (fun s => { s with clkF := 9 })

def gat (s : State) : State := (s.oSet 0x2110 1 1).oSet 0x2110 2 0
def vW (s : State) : State :=
    let s1 := (s.modPwr (fun p => { p with waking := false })).oInc 0x4000 8
    let s2 := (s1.oSet 0x4000 5 s1.clkTarget).enter 3
    (if s2.o 0x2100 1 = 1 then s2.oSet 0x2100 1 0 else s2)
def vC (s : State) : State :=
    let cur := s.o 0x4000 5
    s.oSet 0x4000 5 (if cur < s.clkTarget then min s.clkTarget (cur + 25) else max s.clkTarget (cur - 25))
def env0 : StartEnv := {}
def ps (n : Nat) (s : State := wS) : State := s.oSet 0x4000 1 n
def wHs : State := ((wHold.oSet 0x1110 1 5).oSet 0x1110 3 6).modPwr (fun p => { p with pwrokFell := false, eqSaved := true })

def wQ1 : State := wS.modQ 7 (fun _ => { place := .binned, qr := { kind := 1, ctx := 1, stream := 2, seq := 9 } })
def wHp : State := wS.oSet (0x4400 + 20) 1 1
def wHpr : State := (wHp.modSt 1 2 (fun x => { x with tail := 5, head := 3, next := 5, fetched := 5, rcons := 3, prod := 9, scred := 3, fills := 9 })).modCtx 1 (fun x => { x with bcred := 3, replies := 9 }) |>.modEp 5 (fun x => { x with cons := 3, disp := 9 })
def bw (code : Nat) (a0 : Nat) (a1 : Nat := 0) (rep : Nat := 0) : BdkWords := { w0 := BitVec.ofNat 64 (code + rep * 256), arg0 := BitVec.ofNat 64 a0, arg1 := BitVec.ofNat 64 a1, arg2 := 0 }
-- Bodkin on for context 1, threads 0..9, matching 100, orphans 100, replies ring 16
def wK : State := (((((wHp.coSet 1 0x17 1 1).coSet 1 0x17 0 2).coSet 1 0x17 10 3).coSet 1 0x17 100 6).coSet 1 0x17 100 7).coSet 1 0x17 4 0xA |>.coSet 1 0x17 50 8
def wKq (w : BdkWords) (x : Thread := {}) : State := ((wK.modThr 3 (fun _ => x)).modCtx 1 (fun y => { y with cmds := [w] }))

def e0 : Engine := { ent := some 5, kind := 1, pc := 16, a := 7, ct := 3 }
-- engine 2 of Bobbin 3 has word w next
def bS (w : Nat) (e : Engine := e0) : State :=
  { obj := [(okey 0x4000 1, 3)], bob := [(3, { clock := 0 })], eng := [(14, e)], code := [(8, 1), (16, w)] }
def bT (w : Nat) (e : Engine := e0) : State :=
  (((bS w e).modQ 4 (fun _ => { place := .rayStore 3 5, qr := { kind := 1, ctx := 1 } })).modEnt 3 5 (fun y => { y with slot := some 4, op := some { unit := 3, order := 2, engine := some 2 } }))

/-! ## Operands out of range are refused -/

theorem test_wf_refuses :
    (Instr.doorbell 8 0 0 0).wf = false ∧ (Instr.doorbell 0 64 0 0).wf = false ∧ (Instr.doorbell 0 0 8 0).wf = false ∧ (Instr.dcred 0 1024 0).wf = false ∧
    (Instr.spawn 0 0 (some (bw 2 0))).wf = false ∧ (Instr.bdkReservedCode 0 0 (some (bw 6 0))).wf = false ∧
    (Instr.objectWrite (.dict 0 0 1 256)).wf = false ∧ (Instr.objectWrite (.window 0 63 0 0)).wf = false ∧
    (Instr.cpl 24 0).wf = false ∧ (Instr.laneFault 16 2).wf = false ∧ (Instr.retrainDone 48).wf = false ∧
    (Instr.migrate 24 (sf 1 0 0 0 0 0 0 0)).wf = false ∧ (Instr.migrate 0 (sf 2 0 0 0 0 0 0 0)).wf = false ∧ (Instr.contBuild (3072 * 16384)).wf = false ∧
    (Instr.migTimeout 65536).wf = false ∧ (Instr.ringRead (fr 5 2 3 0 0 0 [])).wf = false ∧ (Instr.ringWrite (fr 5 2 3 0 0 2 [1])).wf = false ∧
    (Instr.needleClockStop 0 16).wf = false ∧ (Instr.bobbinGate 48).wf = false ∧ (Instr.thermalReading (2 ^ 23)).wf = false ∧
    (Instr.probeReading []).wf = false ∧ (Instr.refitHeld 4096).wf = false ∧ (Instr.binRipe 131076).wf = false ∧ (Instr.roleChange 0 2).wf = false ∧
    (Instr.completion 0 8192).wf = false ∧ (Instr.ageLimit 65536).wf = false ∧ (Instr.scrub 48 .clean).wf = false ∧ (Instr.bstNop 0 4 .ok).wf = false := by
  decide +kernel

theorem test_wf_accepts :
    (Instr.doorbell 7 63 7 0).wf = true ∧ (Instr.spawn 7 63 (some (bw 1 0))).wf = true ∧ (Instr.cpl 23 0).wf = true ∧ (Instr.laneFault 15 3).wf = true ∧
    (Instr.migrate 23 (sf 1 0 0 0 0 0 0 0)).wf = true ∧ (Instr.ringWrite (fr 5 2 3 0 0 1 [1])).wf = true ∧ (Instr.completion 47 8191).wf = true ∧
    (Instr.bstNop 47 3 .ok).wf = true := by decide +kernel

/-! ## Single commands -/

/-- A property of the next state of a command. -/
def after (i : Instr) (s : State) (p : State → Bool) : Bool := match exec i s with | .next t => p t | _ => false

/-- No word spells a command: the table gives no bits. -/
theorem test_no_word : decodeTableWord 8 0 = none := rfl
/-- R40: the ring of 256 entries with 2 unread takes a doorbell of 254 more and no other. -/
theorem test_doorbell_full : after (.doorbell 4 1 2 259) wHpr (fun t => (t.st 1 2).tail == 259) = true := by decide +kernel
theorem test_doorbell_over : after (.doorbell 4 1 2 260) wHpr (fun t => (t.st 1 2).tail == 5 && bit (t.o 0x5901 1) 0) = true := by decide +kernel
/-- R409: ENUM gives the address of its first data byte, and the next tile gets one more. -/
theorem test_enum : after (.ringEnum (fr 0xFF 0 1 0 0 1 [9])) (wHold.oSet 0x1100 1 0xFE) (fun t => t.addr == 9) = true := by decide +kernel
/-- R465: PWROK falling gives HOLD without a ring address. -/
theorem test_pwrok_fall : after .pwrokFall wRun (fun t => t.pstate == 1 && t.addr == 0xFE) = true := by decide +kernel
/-- R232: 0xFFFFFFFF + 5 is 4 with a carry and no overflow. -/
theorem test_add_wraps : after (.bstAdd 3 2 .ok) (bS 0x20000005 { e0 with a := 0xFFFFFFFF })
    (fun t => (t.engOf 3 2).a == 4 && (t.engOf 3 2).fl.c && !(t.engOf 3 2).fl.v) = true := by decide +kernel
/-- R232: 3 − 5 borrows, so that C is clear. -/
theorem test_sub_borrows : after (.bstSub 3 2 .ok) (bS 0x22000005 { e0 with a := 3 })
    (fun t => (t.engOf 3 2).a == 0xFFFFFFFE && !(t.engOf 3 2).fl.c && (t.engOf 3 2).fl.n) = true := by decide +kernel
/-- R234: SAR by 33 of a negative number leaves its sign. -/
theorem test_sar_far : after (.bstSar 3 2 .ok) (bS 0x32000021 { e0 with a := 0x80000000 })
    (fun t => (t.engOf 3 2).a == 0xFFFFFFFF && (t.engOf 3 2).fl.c) = true := by decide +kernel
/-- R233: a division by zero writes 0 and sets DZ. -/
theorem test_div_zero : after (.bstDiv 3 2 .ok) (bS 0x2B000000) (fun t => (t.engOf 3 2).a == 0 && (t.engOf 3 2).fl.dz) = true := by decide +kernel
/-- R238: a reserved opcode traps with ILLEGAL at its own address. -/
theorem test_illegal : after (.illegal 3 2) (bS 0x99000000)
    (fun t => (t.engOf 3 2).trapped && (t.engOf 3 2).tcause == 1 && (t.engOf 3 2).tpc == 16 && (t.engOf 3 2).pc == 8) = true := by decide +kernel
/-- R273: SPAWN with NEXP 2 leaves thread 3 WAITING. -/
theorem test_spawn : after (.spawn 4 1 none) (wKq (bw 1 (3 + 2 * 65536)) {}) (fun t => (t.thrOf 3).st == .waiting && (t.thrOf 3).nexp == 2) = true := by decide +kernel
/-- R338: a lane fault of a full port takes it out of service until its retrain at half its lanes. -/
theorem test_lane_fault : after (.laneFault 3 1) (up wRun 3) (fun t => t.lstate 3 == 1 && (t.portOf 3).retrain) = true := by decide +kernel

/-! ## The general statements -/

/-- A command at the front of the queue. -/
theorem wit_StepRunsFrontCommand : ∃ (s : State) (i : Instr) (rest : List Instr), s.pending = i :: rest :=
  ⟨{ wRun with pending := [.sleep, .wake] }, .sleep, [.wake], rfl⟩
theorem wit_QueueIsFirstInFirstOut : (∃ s : State, s.pending = []) ∧ ∃ s t : State, s.pending ≠ [] ∧ step s = .next t :=
  ⟨⟨wRun, rfl⟩, ⟨{ wRun with pending := [.vddWOff, .wake] }, { wRun with pending := [.wake] }.vddOff, List.cons_ne_nil _ _, rfl⟩⟩
theorem wit_ResetValues : ∃ (index : BitVec 16) (sub : BitVec 8) (row : ObjRow), objRow? index.toNat sub.toNat = some row :=
  ⟨0x2400, 4, (objRow? 0x2400 4).get (by decide), by decide +kernel⟩
def wOff : State := { wRun.vddOff with pending := [.vddWOff] }
theorem wit_OffIsLeftByVddWOnAlone : ∃ s t : State, s.off ∧ s.pending.head? ≠ some .vddWOn ∧ step s = .next t :=
  ⟨wOff, { wOff with pending := [] }.vddOff, by unfold State.off; decide +kernel, by decide +kernel, rfl⟩
theorem wit_StoresStayCanonical : ∃ s t : State, s.canon = true ∧ s.pending ≠ [] ∧ step s = .next t :=
  ⟨{ wRun with pending := [.vddWOff, .wake] }, { wRun with pending := [.wake] }.vddOff, by decide +kernel, List.cons_ne_nil _ _, rfl⟩
theorem wit_StillStatesStay : ∃ s : State, s.still = true ∧ s ≠ State.reset := ⟨wRun, by decide +kernel, by decide +kernel⟩

/-! ## States that meet the premises of every statement -/

/-! ## A scrub that finds a corrected error -/

/-- A list without repetition is no longer than one that holds its members. -/
theorem nodup_length_le {l m : List Nat} (h : l.Nodup) (hs : l ⊆ m) : l.length ≤ m.length := by
  induction l generalizing m with
  | nil => exact Nat.zero_le _
  | cons a l ih =>
    have ha := hs (List.mem_cons_self ..)
    have hl : l ⊆ m.erase a := fun x hx =>
      (List.mem_erase_of_ne (by rintro rfl; exact (List.nodup_cons.mp h).1 hx)).mpr (hs (List.mem_cons_of_mem _ hx))
    have := ih (List.nodup_cons.mp h).2 hl
    rw [List.length_erase_of_mem ha] at this
    have := List.length_pos_of_mem ha
    simp only [List.length_cons]; omega
/-- Some line of controller 4 is not factory-retired, as the fuses hold at most 131,072. -/
theorem someLineGood : ∃ p, p ≠ 0 ∧ p < 262143 ∧ Config.factoryList.any (fun l => l.val == 4 + 48 * p) = false := by
  by_cases h : ∃ p, p ≠ 0 ∧ p < 262143 ∧ Config.factoryList.any (fun l => l.val == 4 + 48 * p) = false
  · exact h
  · exfalso
    have sub : ((List.range 131073).map (fun i => 4 + 48 * (i + 1))) ⊆ Config.factoryList.map (fun l => l.val) := by
      intro x hx
      obtain ⟨i, hi, rfl⟩ := List.mem_map.mp hx
      have hi := List.mem_range.mp hi
      cases e : Config.factoryList.any (fun l => l.val == 4 + 48 * (i + 1)) with
      | false => exact absurd ⟨i + 1, by omega, by omega, e⟩ h
      | true =>
        obtain ⟨l, hl, hv⟩ := List.any_eq_true.mp e
        exact List.mem_map.mpr ⟨l, hl, by simpa using hv⟩
    have nd : ((List.range 131073).map (fun i => 4 + 48 * (i + 1))).Nodup := by
      refine List.Pairwise.map _ ?_ (List.nodup_range (n := 131073))
      intro a b hab e
      omega
    have := nodup_length_le nd sub
    have h2 : Config.factoryList.length ≤ 131072 := by unfold Config.factoryList; rw [List.length_take]; omega
    simp only [List.length_map, List.length_range] at this
    omega
/-- Controller 4 at position p of its pass, in a tile without ring storage that retires a line at its first pass with a corrected error. -/
def wScrub (ce p : Nat) : State :=
  ((({ wRun with ring := { wRun.ring with storeBad := true } } : State).oSet 0x2320 1 5).oSet 0x2320 2 ce).modTile (fun t => { t with scrubPos := [(4, p)] })
theorem wit_Recovery_scrub (ce : Nat) (h : ce = 1 ∨ ce = 2) : ∃ (s : State) (k : Nat),
    s.run = true ∧ s.o 0x2320 1 ≠ 0 ∧ k < 48 ∧ tget 0 s.tile.scrubPos k < 262143 ∧ s.lineOff (k + 48 * tget 0 s.tile.scrubPos k) = false ∧
    (let line := k + 48 * tget 0 s.tile.scrubPos k
     let n := tget 0 s.tile.passes line + 1
     let s1 := s.modTile (fun t => { t with scrubPos := tset 0 t.scrubPos k (tget 0 s.tile.scrubPos k + 1) })
     let s2 := (s1.modTile (fun t => { t with passes := tset 0 t.passes line n })).oInc 0x4330 7
     let s3 := s2.logWrite s2.passSegs s2.jhead
     (ce = 1 → s3.o 0x2320 2 ≤ n) ∧ (ce = 2 → n < s3.o 0x2320 2)) := by
  obtain ⟨p, -, h2, h3⟩ := someLineGood
  refine ⟨wScrub ce p, 4, ?_, ?_, by decide, h2, ?_, ?_⟩
  · rcases h with rfl | rfl <;> rfl
  · rcases h with rfl | rfl <;> exact Nat.succ_ne_zero _
  · show (List.contains _ _ || _) = false
    rw [Bool.or_eq_false_iff]
    exact ⟨by rcases h with rfl | rfl <;> rfl, h3⟩
  · refine ⟨fun e => ?_, fun e => ?_⟩
    · subst e; exact Nat.le_refl 1
    · subst e; exact Nat.le_refl 2
theorem wit_SupplyAndResetPins :
    (∃ (s : State), s.pwr.vddW = true ∧ s.still = true ∧ bit (s.o 0xF000 2) 0 = false) ∧
    (∃ (s : State), s.pwr.vddW = false) ∧
    (∃ (s : State), s.pwr.vddW = true ∧ bit (s.o 0xF000 2) 0 = true ∧ s.pstate = 1 ∧ s.pwr.start = none ∧ s.pwr.rstN = true) ∧
    (∃ (s : State), s.pwr.vddW = true ∧ bit (s.o 0xF000 2) 0 = true ∧ s.pstate = 1 ∧ s.pwr.start = none ∧ s.pwr.pwrok = true) :=
  ⟨⟨wRun, by decide +kernel⟩,
   ⟨State.reset.modPwr (fun p => { p with vddW := false }), by decide +kernel⟩,
   ⟨(State.reset.oSet 0xF000 2 1).modPwr (fun p => { p with rstN := true }), by decide +kernel⟩,
   ⟨(State.reset.oSet 0xF000 2 3).modPwr (fun p => { p with pwrok := true }), by decide +kernel⟩⟩

theorem wit_StartsAndReset :
    (∃ (s : State) (env : StartEnv), s.pstate = 1 ∧ s.o 0xF000 1 ≠ 1 ∧ s.pwr.pwrok = true ∧ s.pwr.rstN = true ∧ s.pwr.tap < 3 ∧ env.selfTest = none ∧ env.fuseBlock = none ∧ s.o 0xF020 3 = 0 ∧ s.o 0x1110 1 ≠ 0xFF ∧ s.pwr.pwrokFell = false ∧ s.pwr.eqSaved = true ∧ bit (s.o 0xF000 3) 12 = false ∧ s.o 0x1110 3 ≠ 0xFF ∧ s.pwr.vddW = true ∧ s.pstate ≠ 0 ∧ bit (s.o 0xF000 2) 0 = false) :=
  ⟨wHs, { env0 with selfTest := none, fuseBlock := none }, by decide +kernel⟩

theorem wit_PowerStateChanges :
    (∃ (s : State), s.still = true ∧ s.run = true ∧ s.o 0x2100 1 ≠ 1 ∧ s.idle = true ∧ s.o 0x2100 2 ≠ 0 ∧ s.idleAuto = true) ∧
    (∃ (s : State), s.still = true ∧ s.pstate = 4 ∧ s.portsQuiet = true ∧ s.pwr.abortMask = 0 ∧ s.pwr.drainFor = 1 ∧ s.pwr.quiesced = true) ∧
    (∃ (s : State), s.still = true ∧ s.pstate = 2 ∧ s.o 0x2100 1 ≠ 1 ∧ s.pwr.waking = true ∧ s.pwr.holdAfterWake = false ∧ s.held = []) :=
  ⟨⟨wRun, by decide +kernel⟩,
   ⟨(ps 4 wRun).modPwr (fun p => { p with drainFor := 1, quiesced := true }), by decide +kernel⟩,
   ⟨(ps 2 wRun).modPwr (fun p => { p with waking := true }), by decide +kernel⟩⟩

theorem wit_BobbinClocks :
    (∃ (s : State) (b : Nat) (n : Nat) (e : _) (g : _) (c : _), s.live = true ∧ b < 48 ∧ n < 16 ∧ s.awake b = true ∧ s.needleOcc b n = 0 ∧ (s.bobOf b).needleStop = 65535 ∧ s.bobIdle b = true ∧ tsorted s.rs = true ∧ e < 8192 ∧ (s.ent b e).retired = false ∧ g < 4 ∧ c ≠ b) ∧
    (∃ (s : State) (b : Nat) (set : _) (w : _), set < 1024 ∧ w ∈ (tget {} (s.gateBob b).nc (b * 1024 + set)).ways) ∧
    (∃ (s : State) (b : Nat), s.live = true ∧ b < 48 ∧ (s.bobOf b).clock = 1 ∧ s.inService b = true ∧ s.mayGate b = true) ∧
    (∃ (s : State) (b : Nat), s.live = true ∧ b < 48 ∧ (s.bobOf b).drain = true ∧ s.bobIdle b = true ∧ s.inService b = true ∧ s.mayGate b = true) ∧
    (∃ (s : State) (b : Nat), s.still = true ∧ s.live = true ∧ b < 48 ∧ (s.bobOf b).clock = 3) ∧
    (∃ (s : State) (b : Nat), s.still = true ∧ s.live = true ∧ b < 48 ∧ (s.bobOf b).clock = 4) ∧
    (∃ (s : State) (b : Nat), let aw := s.awakeList; let u := aw.foldl (fun a b => a + s.occupied b) 0; s.live = true ∧ bit (s.o 0x2110 1) 0 = true ∧ u * 256 < s.o 0x2110 5 * 8192 * (aw.length - 1) ∧ aw.getLast? = some b ∧ s.mayGate b = true ∧ (List.range 48).any (fun i => (s.bobOf i).drain) = false) ∧
    (∃ (s : State) (b : Nat), let aw := s.awakeList; let u := aw.foldl (fun a b => a + s.occupied b) 0; s.live = true ∧ bit (s.o 0x2110 1) 0 = true ∧ ¬ u * 256 < s.o 0x2110 5 * 8192 * (aw.length - 1) ∧ s.o 0x2110 6 * 8192 * aw.length < u * 256 ∧ firstIdx 48 (fun b => s.inService b && (s.bobOf b).clock == 2) = some b) :=
  ⟨⟨(wB 6).modBob 6 (fun v => { v with needleStop := 65535 }), 6, 3, 5, 1, 7, by decide +kernel⟩,
   ⟨({ (wB 6) with nc := [(6 * 1024 + 3, { ways := [{ way := 2, locked := true, valid := 5 }] })] } : State), 6, 3, { way := 2, locked := true }, by decide +kernel⟩,
   ⟨gat (((wB 6).modBob 6 (fun v => { v with clock := 1 })).modBob 9 (fun v => { v with clock := 0 })), 6, by decide +kernel⟩,
   ⟨gat (((wB 6).modBob 6 (fun v => { v with drain := true })).modBob 9 (fun v => { v with clock := 0 })), 6, by decide +kernel⟩,
   ⟨(wB 6).modBob 6 (fun v => { v with clock := 3 }), 6, by decide +kernel⟩,
   ⟨(wB 6).modBob 6 (fun v => { v with clock := 4 }), 6, by decide +kernel⟩,
   ⟨gat ((((wB 4).modBob 6 (fun v => { v with clock := 0 })).oSet 0x2110 1 1).oSet 0x2110 5 64), 6, by dsimp only; decide +kernel⟩,
   ⟨((((wN 1 0).oSet 0x2110 1 1).oSet 0x2110 5 0).oSet 0x2110 6 0), 0, by dsimp only; decide +kernel⟩⟩

theorem wit_ReadingsAndPlan :
    (∃ (s : State), s.live = true ∧ s.o 0x4000 5 ≠ s.clkTarget ∧ 2 ≤ s.pstate ∧ s.still = true ∧ s.run = true ∧ bit (s.o 0x2300 7) 0 = false) ∧
    (∃ (s : State), s.pwr.settling = true ∧ s.pwr.start = none) ∧
    (∃ (s : State), let lc := s.part.lc; let hits := s.o 0x4330 1 - s.pwr.lcHits0; let total := hits + (s.o 0x4330 2 - s.pwr.lcMiss0); let p : Part := { s.part with pin := s.part.pin + lc - 2 * lc, lc := 2 * lc }; s.run = true ∧ bit (s.o 0x2300 7) 0 = true ∧ 16 ≤ s.pwr.sinceShift ∧ s.o 0x2300 6 ≠ 1 ∧ s.lcMaint = false ∧ 0 < total ∧ 3 * total ≤ 4 * hits ∧ 64 ≤ lc ∧ lc < 1024 ∧ 16 * lc ≤ s.pinFree ∧ lc ≤ s.part.pin ∧ s.staged.park = s.part.park ∧ s.staged.bin = s.part.bin ∧ s.staged.rb = s.part.rb ∧ partCheck p (s.o 0x2300 8) = 0) :=
  ⟨⟨wS.oSet 0x2300 7 0, by decide +kernel⟩,
   ⟨wS.modPwr (fun p => { p with settling := true }), by decide +kernel⟩,
   ⟨((((({ wRun with part := { pin := 1200, park := 16, bin := 20, rb := 16, lc := 64 } }).oSet 0x2300 7 1).oSet 0x2300 8 3040).oSet 0x4330 1 300).oSet 0x2300 1 1200 |>.oSet 0x2300 2 16 |>.oSet 0x2300 3 20 |>.oSet 0x2300 4 16).modPwr (fun p => { p with sinceShift := 16 }), by dsimp only; decide +kernel⟩⟩

theorem wit_TestPort :
    (∃ (s : State), s.pwr.vddW = true ∧ (s.pwr.start = none ∨ ∃ g, s.pwr.start = some g ∧ g.wait ≠ 1) ∧ s.still = true) :=
  ⟨wS, by decide +kernel⟩

theorem wit_Aborts :
    (∃ (s : State) (c : _), s.run = true ∧ s.ring.after = 0 ∧ s.o 0xF002 2 ≠ 1 ∧ c < 64 ∧ s.ctxEn c = true ∧ s.o 0xF002 1 = c) ∧
    (∃ (s : State), s.live = true ∧ s.pwr.abortMask ≠ 0 ∧ (ctxList s.pwr.abortMask).all (fun c => !s.writesOf c && !s.storeOf c) = true) ∧
    (∃ (s : State) (c : _), s.still = true ∧ s.live = true ∧ c < 64 ∧ bit (s.o 0xF002 3) c = true ∧ s.usagePark c = 0 ∧ s.usageExt c = 0 ∧ (s.ctxOf c).spill = [] ∧ s.mig.any (fun e => e.2.used && e.2.ctx == c) = false) :=
  ⟨⟨(wS.oSet 0xF002 1 1), 1, by decide +kernel⟩,
   ⟨((wS.modPwr (fun p => { p with abortMask := 2 })).modCtx 1 (fun x => { x with aborting := true })).oSet 0xF002 2 1, by decide +kernel⟩,
   ⟨(wS.oSet 0xF002 3 2).modCtx 1 (fun x => { x with aborting := true }), 1, by decide +kernel⟩⟩

theorem wit_WindowCreditWrites :
    (∃ (s : State) (hp : Nat) (c : Nat) (st : Nat) (e : Nat) (v : Word), s.hears hp ∧ s.still = true ∧ c < 64 ∧ st < 8 ∧ e < 1024 ∧ s.ringEn c st = true ∧ v ≠ (s.st c st).tail ∧ (v - (s.st c st).tail).toNat ≤ 2 ^ s.ringLog c st - ((s.st c st).tail - (s.st c st).head).toNat ∧ creditOk v (s.st c st).rcons (s.st c st).prod = true ∧ creditOk v (s.st c st).scred (s.st c st).fills = true ∧ creditOk v (s.ctxOf c).bcred (s.ctxOf c).replies = true ∧ creditOk v (s.epOf e).cons (s.epOf e).disp = true) :=
  ⟨wHpr, 4, 1, 2, 5, 9, by dsimp only [State.hears]; decide +kernel⟩

theorem wit_WindowViolations :
    (∃ (s : State) (hp : Nat) (c : Nat) (st : Nat) (e : Nat) (v : Word), s.hears hp ∧ c < 64 ∧ st < 8 ∧ e < 1024 ∧ s.ringEn c st = true ∧ v ≠ (s.st c st).tail ∧ 2 ^ s.ringLog c st - ((s.st c st).tail - (s.st c st).head).toNat < (v - (s.st c st).tail).toNat ∧ creditOk v (s.st c st).rcons (s.st c st).prod = false ∧ creditOk v (s.st c st).scred (s.st c st).fills = false ∧ creditOk v (s.ctxOf c).bcred (s.ctxOf c).replies = false ∧ creditOk v (s.epOf e).cons (s.epOf e).disp = false) ∧
    (∃ (s : State) (hp : Nat) (c : Nat) (st : Nat) (e : Nat), s.hears hp ∧ c < 64 ∧ st < 8 ∧ e < 1024 ∧ s.ringEn c st = false) :=
  ⟨⟨wHpr, 4, 1, 2, 5, 261, by dsimp only [State.hears]; decide +kernel⟩,
   ⟨wHpr.coSet 1 (0x19+10) 0, 4, 1, 2, 5, by dsimp only [State.hears]; decide +kernel⟩⟩

theorem wit_SleepHoldsHostWrites :
    (∃ (s : State) (hp : Nat) (i : Instr), hwrPort i = some hp ∧ hp < 8 ∧ (s.lstate (16 + hp) = 1 ∨ s.lstate (16 + hp) = 2) ∧ s.pstate = 2 ∧ (s.portOf (16 + hp)).hostHead < 64 ∧ (s.portOf (16 + hp)).hostData < 64 ∧ s.pwr.waking = true ∧ s.held = [i]) :=
  ⟨{ (ps 2 wHpr).modPwr (fun p => { p with waking := true }) with held := [.doorbell 4 1 2 9] }, 4, .doorbell 4 1 2 9, by decide +kernel⟩

theorem wit_MailboxCommands :
    (∃ (s : State) (hp : Nat) (index : BitVec 16) (sub : BitVec 8) (row : _) (n : _), s.hears hp ∧ s.still = true ∧ (s.portOf (16 + hp)).mbOp = none ∧ objRow? index.toNat sub.toNat = some row ∧ row.ty = .u n ∧ row.lvl ≤ s.level (.mail hp) ∧ (¬(sub.toNat = 0 ∧ 0 < objTop index.toNat)) ∧ (s.portOf (16 + hp)).mbLen.toNat = n) ∧
    (∃ (s : State) (hp : Nat) (index : BitVec 16) (sub : BitVec 8), s.hears hp ∧ s.still = true ∧ (s.portOf (16 + hp)).mbOp = none ∧ objRow? index.toNat sub.toNat = none ∧ (¬(sub.toNat = 0 ∧ 0 < objTop index.toNat))) ∧
    (∃ (s : State) (hp : Nat), s.hears hp ∧ s.still = true ∧ (s.portOf (16 + hp)).mbOp.isSome) :=
  ⟨⟨(wHp.oSet 0x1210 5 2).modPort 20 (fun p => { p with mbLen := 2, mbData := 77 }), 4, 9216, 4, (objRow? 0x2400 4).get (by decide), 2, by dsimp only [State.hears]; decide +kernel⟩,
   ⟨wHp, 4, 9220, 4, by dsimp only [State.hears]; decide +kernel⟩,
   ⟨wHp.modPort 20 (fun p => { p with mbOp := some { write := true, index := 3, sub := 4 } }), 4, by dsimp only [State.hears]; decide +kernel⟩⟩

theorem wit_BodkinCommands :
    (∃ (s : State) (hp : Nat) (c : Nat) (w : BdkWords) (rest : List BdkWords), s.hears hp ∧ c < 64 ∧ s.bdkEn c = true ∧ (s.ctxOf c).cmds.length < 64 ∧ s.run = true ∧ s.bdkTurn = some c ∧ (s.ctxOf c).cmds = w :: rest ∧ s.bdkCheck c w = 0 ∧ BdkCmd.reply w = false ∧ BdkCmd.code w = 1) ∧
    (∃ (s : State) (c : Nat) (w : BdkWords) (rest : List BdkWords), s.run = true ∧ s.bdkTurn = some c ∧ (s.ctxOf c).cmds = w :: rest ∧ s.bdkCheck c w = 0 ∧ BdkCmd.reply w = false ∧ BdkCmd.code w = 2) ∧
    (∃ (s : State) (c : Nat) (w : BdkWords) (rest : List BdkWords), s.run = true ∧ s.bdkTurn = some c ∧ (s.ctxOf c).cmds = w :: rest ∧ s.bdkCheck c w = 0 ∧ BdkCmd.reply w = false ∧ BdkCmd.code w = 3) ∧
    (∃ (s : State) (c : Nat) (w : BdkWords) (rest : List BdkWords), s.run = true ∧ s.bdkTurn = some c ∧ (s.ctxOf c).cmds = w :: rest ∧ s.bdkCheck c w = 0 ∧ BdkCmd.reply w = false ∧ BdkCmd.code w = 5) ∧
    (∃ (s : State) (c : Nat) (w : BdkWords) (rest : List BdkWords), s.run = true ∧ s.bdkTurn = some c ∧ (s.ctxOf c).cmds = w :: rest ∧ s.bdkCheck c w = 0 ∧ BdkCmd.reply w = false ∧ BdkCmd.code w = 6) ∧
    (∃ (s : State) (c : Nat) (w : BdkWords) (rest : List BdkWords), s.run = true ∧ s.bdkTurn = some c ∧ (s.ctxOf c).cmds = w :: rest ∧ s.bdkCheck c w = 0 ∧ BdkCmd.code w = 4) ∧
    (∃ (s : State) (c : Nat) (w : BdkWords) (rest : List BdkWords), s.run = true ∧ s.bdkTurn = some c ∧ (s.ctxOf c).cmds = w :: rest ∧ (BdkCmd.code w = 0 ∨ 6 < BdkCmd.code w)) :=
  ⟨⟨wKq (bw 1 (3 + 2 * 65536)) ({}), 4, 1, bw 1 (3 + 2 * 65536), [], by dsimp only [State.hears]; decide +kernel⟩,
   ⟨wKq (bw 2 3 0) ({ st := .waiting, nexp := 4, ctx := 1 }), 1, bw 2 3 0, [], by decide +kernel⟩,
   ⟨wKq (bw 3 3) ({ st := .dispatched, ctx := 1 }), 1, bw 3 3, [], by decide +kernel⟩,
   ⟨wKq (bw 5 65536) ({}), 1, bw 5 65536, [], by decide +kernel⟩,
   ⟨wKq (bw 6 0) ({}), 1, bw 6 0, [], by decide +kernel⟩,
   ⟨wKq (bw 4 3) ({ st := .waiting, nexp := 4, ctx := 1 }), 1, bw 4 3, [], by decide +kernel⟩,
   ⟨wKq (bw 9 0) ({}), 1, bw 9 0, [], by decide +kernel⟩⟩

theorem wit_BodkinRefusals :
    (∃ (w : BdkWords), (BdkCmd.code w = 0 ∨ 6 < BdkCmd.code w)) ∧
    (∃ (s : State) (c : Nat) (w : BdkWords), BdkCmd.bad w = false ∧ BdkCmd.code w < 5 ∧ s.inThr c (BdkCmd.thread w) = false) ∧
    (∃ (s : State) (c : Nat) (w : BdkWords), BdkCmd.bad w = false ∧ BdkCmd.code w = 3 ∧ s.inThr c (BdkCmd.thread w) = true) ∧
    (∃ (s : State) (c : Nat) (w : BdkWords), BdkCmd.bad w = false ∧ BdkCmd.code w = 4 ∧ s.inThr c (BdkCmd.thread w) = true) ∧
    (∃ (w : BdkWords), fld w.w0.toNat 9 23 ≠ 0) :=
  ⟨⟨bw 9 0, by decide +kernel⟩,
   ⟨wKq (bw 1 11) ({}), 1, bw 1 11, by decide +kernel⟩,
   ⟨wKq (bw 3 3) ({}), 1, bw 3 3, by decide +kernel⟩,
   ⟨wKq (bw 4 3) ({}), 1, bw 4 3, by decide +kernel⟩,
   ⟨{ bw 3 3 with w0 := 3 + 512 }, by decide +kernel⟩⟩

theorem wit_ThreadStates :
    (∃ (w : BdkWords) (k : _), let t := BdkCmd.thread w; let a0 := w.arg0.toNat; bit a0 16 = true ∧ k ≠ t) ∧
    (∃ (w : BdkWords), let a0 := w.arg0.toNat; bit a0 16 = false) :=
  ⟨⟨bw 1 (3 + 5 * 65536) 66, 4, by dsimp only; decide +kernel⟩,
   ⟨bw 1 3 7, by dsimp only; decide +kernel⟩⟩

theorem wit_DictionaryAccess :
    (∃ (idx : Nat) (sub : Nat), (¬(sub = 0 ∧ 0 < objTop idx)) ∧ objRow? idx sub = none) ∧
    (∃ (s : State) (src : Src) (idx : Nat) (sub : Nat) (row : _), (¬(sub = 0 ∧ 0 < objTop idx)) ∧ objRow? idx sub = some row ∧ s.level src < row.lvl) ∧
    (∃ (s : State) (src : Src) (idx : Nat) (sub : Nat) (row : _) (a : _), (¬(sub = 0 ∧ 0 < objTop idx)) ∧ objRow? idx sub = some row ∧ src = .ring a ∧ row.lvl ≤ s.level src ∧ alwaysOn idx = false ∧ s.pstate < 3) ∧
    (∃ (s : State) (src : Src) (idx : Nat) (sub : Nat) (off : Nat) (len : Nat) (row : _) (n : _), (¬(sub = 0 ∧ 0 < objTop idx)) ∧ objRow? idx sub = some row ∧ row.lvl ≤ s.level src ∧ (alwaysOn idx = true ∨ 3 ≤ s.pstate) ∧ row.acc = .ro ∧ row.ty = .u n ∧ off = 0 ∧ len = n) :=
  ⟨⟨9220, 4, by decide +kernel⟩,
   ⟨wHp, .ring 7, 9216, 4, (objRow? 9216 4).get (by decide), by decide +kernel⟩,
   ⟨(ps 1 wHp).oSet 0x1200 8 2, .ring 7, 9216, 4, (objRow? 9216 4).get (by decide), 7, by decide +kernel⟩,
   ⟨wHp, .oper, 17152, 1, 0, 8, (objRow? 17152 1).get (by decide), 8, by decide +kernel⟩⟩

theorem wit_ObjectWriteEffect :
    (∃ (s : State) (index : BitVec 16) (sub : BitVec 8) (row : ObjRow) (n : Nat), objRow? index.toNat sub.toNat = some row ∧ row.ty = .u n ∧ row.lvl ≤ 1 ∧ (¬(sub.toNat = 0 ∧ 0 < objTop index.toNat)) ∧ s.pstate ≠ 0 ∧ (alwaysOn index.toNat = true ∨ 3 ≤ s.pstate)) :=
  ⟨wHp, 0x2400, 4, (objRow? 9216 4).get (by decide), 2, by decide +kernel⟩

theorem wit_CausesRaisedAndCleared :
    (∃ (s : State) (leaf : Nat) (n : Nat) (l : _) (i : _), 0x5100 ≤ leaf ∧ leaf < 0x5A00 ∧ leaf ≠ 0x5800 ∧ n < 24 ∧ bit (s.o leaf 1) n = false ∧ 0x5100 ≤ l ∧ l < 0x5A00 ∧ l ≠ leaf ∧ l ≠ 0x5800 ∧ i < 256) ∧
    (∃ (s : State) (leaf : BitVec 16) (row : ObjRow), objRow? leaf.toNat 1 = some row ∧ row.acc = .w1c ∧ row.ty = .u 4 ∧ row.lvl ≤ 1 ∧ row.wmask < 2 ^ 24 ∧ s.o leaf.toNat 1 < 2 ^ 24 ∧ leafMask leaf.toNat ≠ 0 ∧ 0x5100 ≤ leaf.toNat ∧ leaf.toNat < 0x5A00 ∧ leaf.toNat ≠ 0x5400 ∧ s.pstate ≠ 0 ∧ s.ring.after = 0) ∧
    (∃ (s : State) (leaf : Nat) (n : Nat), 0x5100 ≤ leaf ∧ leaf < 0x5A00 ∧ leaf ≠ 0x5800 ∧ n < 24 ∧ bit (s.o leaf 1) n = true) :=
  ⟨⟨wS, 21760, 2, 0x5300, 1, by decide +kernel⟩,
   ⟨wS, 21760, (objRow? 21760 1).get (by decide), by decide +kernel⟩,
   ⟨(wS.raise 0x5500 2 77).raise 0x5500 2 9, 21760, 2, by decide +kernel⟩⟩

theorem wit_EnablesAndQuotas :
    (∃ (s : State) (c : Nat) (st : Nat) (e : Nat) (v : Word), let x := v.toNat; s.live = true ∧ s.still = true ∧ c < 64 ∧ st < 8 ∧ e < 1024 ∧ bit x 0 = true ∧ fld x 8 4 = 1 ∧ s.ctxEn c = false ∧ s.usagePark c = 0 ∧ s.releasing c = false ∧ s.reservesFit c (s.co c 3) = true ∧ 64 ≤ x ∧ x ≤ s.co c 1 ∧ s.co c 3 ≤ x ∧ 65 ≤ x) ∧
    (∃ (s : State) (c : Nat) (st : Nat) (e : Nat) (v : Word), let x := v.toNat; let old := s.o 0x2310 0; s.live = true ∧ s.still = true ∧ c < 64 ∧ st < 8 ∧ e < 1024 ∧ s.ctxEn c = true ∧ s.co c 0 = x + 1 ∧ bit x 0 = false ∧ x &&& 0xF07 = x ∧ s.bdkQuiet c = true ∧ x = 0 ∧ (bit x 0 = true → bit old 0 = true ∨ bit old 8 = true) ∧ (bit x 1 = true → bit old 1 = true ∨ bit old 9 = true) ∧ x < 4) ∧
    (∃ (s : State) (c : Nat) (st : Nat) (e : Nat) (v : Word), let x := v.toNat; s.live = true ∧ s.still = true ∧ c < 64 ∧ st < 8 ∧ e < 1024 ∧ s.bdkQuiet c = true ∧ x = 1 ∧ (∀ k, k < 64 → s.bdkEn k = false) ∧ s.bdk c 6 + s.bdk c 7 ≤ 262144) ∧
    (∃ (s : State) (c : Nat) (st : Nat) (e : Nat) (v : Word), let x := v.toNat; s.live = true ∧ s.still = true ∧ c < 64 ∧ st < 8 ∧ e < 1024 ∧ 1 ≤ fld x 24 4 ∧ fld x 24 4 ≤ 12 ∧ s.epOn e = false ∧ x &&& 0x0F073F01 = x ∧ bit x 0 = true) ∧
    (∃ (s : State) (c : Nat) (st : Nat) (e : Nat) (v : Word), let x := v.toNat; s.live = true ∧ s.still = true ∧ c < 64 ∧ st < 8 ∧ e < 1024 ∧ 6 ≤ fld x 8 5 ∧ fld x 8 5 ≤ 20 ∧ bit x 0 = false ∧ s.ringEn c st = false ∧ x &&& 0x31F07 = x) ∧
    (∃ (s : State) (c : Nat) (st : Nat) (e : Nat) (v : Word), let x := v.toNat; s.live = true ∧ s.still = true ∧ c < 64 ∧ st < 8 ∧ e < 1024 ∧ 6 ≤ fld x 8 5 ∧ fld x 8 5 ≤ 20 ∧ bit x 0 = true ∧ s.ringEn c st = false ∧ x &&& 0x31F07 = x ∧ s.rbFits (s.streamsOn.length + 1) (s.o 0x2410 1) = true) :=
  ⟨⟨wP0, 1, 2, 5, 257, by dsimp only; decide +kernel⟩,
   ⟨wS, 1, 2, 5, 0, by dsimp only; decide +kernel⟩,
   ⟨wP0, 1, 2, 5, 1, by dsimp only; decide +kernel⟩,
   ⟨wP0, 1, 2, 5, 83951873, by dsimp only; decide +kernel⟩,
   ⟨wP0, 1, 2, 5, 2048, by dsimp only; decide +kernel⟩,
   ⟨wP0, 1, 2, 5, 1537, by dsimp only; decide +kernel⟩⟩

theorem wit_StreamCommands :
    (∃ (s : State) (c : Nat) (mask : Byte) (st : _), s.live = true ∧ s.ring.after = 0 ∧ c < 64 ∧ s.cancelling c = false ∧ s.slot = [] ∧ st < 8 ∧ bit mask.toNat st = true) ∧
    (∃ (s : State) (c : Nat) (st : Nat), s.live = true ∧ s.ring.after = 0 ∧ c < 64 ∧ st < 8 ∧ s.resCtrl c st &&& 0x31F03 = s.resCtrl c st ∧ s.redir c st = true ∧ s.rfault c st = true) ∧
    (∃ (s : State) (c : Nat) (mask : Byte) (k : _) (q : _), s.live = true ∧ s.ring.after = 0 ∧ c < 64 ∧ s.cancelling c = false ∧ s.slot = [(k, q)] ∧ q.place = .binned ∧ q.served = none ∧ q.qr.ctx = c ∧ q.qr.stream < 8 ∧ bit mask.toNat q.qr.stream = true) :=
  ⟨⟨(wS.coSet 1 0x12 (3 * 65536 + 256 * 8) 3).modSt 1 2 (fun x => { x with ringFail := some 3, prod := 3, ringOut := [(3, default), (4, default)] }), 1, 4, 2, by decide +kernel⟩,
   ⟨(wS.coSet 1 0x12 (3 * 65536 + 256 * 8) 3).modSt 1 2 (fun x => { x with ringFail := some 3, prod := 3, ringOut := [(3, default), (4, default)] }), 1, 2, by decide +kernel⟩,
   ⟨wQ1, 1, 4, 7, (wQ1.q 7), by decide +kernel⟩⟩

theorem wit_IndexCommands :
    (∃ (s : State) (c : Nat) (h : Nat), s.live = true ∧ s.ring.after = 0 ∧ c < 64 ∧ s.co c 9 = h ∧ h < 4096 ∧ s.co c 8 ≠ 1 ∧ (s.hndOf h).loading = none ∧ (s.hndOf h).owner = c ∧ (s.hndOf h).state = 3 ∧ s.heldOf h = [] ∧ s.co c 0xA % 256 = 0 ∧ s.co c 0xB % 256 = 0) ∧
    (∃ (s : State) (c : Nat) (h : Nat), s.live = true ∧ s.ring.after = 0 ∧ c < 64 ∧ s.co c 9 = h ∧ h < 4096 ∧ s.co c 8 ≠ 1 ∧ (s.hndOf h).loading = none ∧ (s.hndOf h).state = 0 ∧ (s.hndOf h).phase = 0 ∧ s.co c 0xA % 64 = 0) ∧
    (∃ (s : State) (c : Nat) (h : Nat), s.live = true ∧ s.ring.after = 0 ∧ c < 64 ∧ s.co c 9 = h ∧ h < 4096 ∧ s.co c 8 ≠ 1 ∧ (s.hndOf h).loading = none ∧ (s.hndOf h).owner = c ∧ (s.hndOf h).state = 1) ∧
    (∃ (s : State) (c : Nat) (h : Nat), s.live = true ∧ s.ring.after = 0 ∧ c < 64 ∧ s.co c 9 = h ∧ h < 4096 ∧ s.co c 8 ≠ 1 ∧ (s.hndOf h).loading = none ∧ (s.hndOf h).owner = c ∧ (s.hndOf h).state = 2 ∧ s.inflight h = 0) :=
  ⟨⟨(wP.coSet 1 9 3).modHnd 3 (fun x => { x with state := 3 }), 1, 3, by decide +kernel⟩,
   ⟨(wP.coSet 1 9 3).modHnd 3 (fun _ => {}), 1, 3, by decide +kernel⟩,
   ⟨wP.coSet 1 9 3, 1, 3, by decide +kernel⟩,
   ⟨(wP.coSet 1 9 3).modHnd 3 (fun x => { x with state := 2 }), 1, 3, by decide +kernel⟩⟩

theorem wit_TileCommands :
    (∃ (s : State), s.run = true ∧ s.still = true ∧ s.o 0x2300 6 ≠ 1 ∧ s.idle = true ∧ partCheck s.staged (s.o 0x2300 8) = 0 ∧ s.staged.park = s.part.park ∧ s.staged.bin = s.part.bin ∧ s.staged.rb = s.part.rb ∧ s.staged.pin + s.staged.lc = s.part.pin + s.part.lc ∧ s.lcMaint = false ∧ s.o 0x7010 6 < 48) ∧
    (∃ (s : State), s.run = true ∧ s.still = true ∧ s.o 0x2500 3 ≠ 1 ∧ s.o 0x2500 1 < 64 ∧ s.ctxEn (s.o 0x2500 1) = true) ∧
    (∃ (s : State), s.run = true ∧ s.still = true ∧ s.o 0xF010 1 ≠ 1 ∧ s.mtCheck = 0 ∧ s.mtOp = 1) ∧
    (∃ (s : State), s.run = true ∧ s.still = true ∧ s.o 0xF010 1 ≠ 1 ∧ s.mtCheck = 0 ∧ s.mtOp = 2) ∧
    (∃ (s : State), s.run = true ∧ s.still = true ∧ s.o 0xF010 1 ≠ 1 ∧ s.mtCheck = 0 ∧ s.mtOp = 3) ∧
    (∃ (s : State), s.run = true ∧ s.still = true ∧ s.o 0xF010 1 ≠ 1 ∧ s.mtCheck = 0 ∧ s.mtOp = 4) ∧
    (∃ (s : State), s.run = true ∧ s.still = true ∧ s.o 0xF010 1 ≠ 1 ∧ s.mtCheck = 0 ∧ s.mtOp = 5 ∧ s.nc = []) ∧
    (∃ (s : State), s.run = true ∧ s.still = true ∧ s.o 0xF010 1 ≠ 1 ∧ s.mtCheck = 0 ∧ s.mtOp = 6) ∧
    (∃ (s : State) (b : _) (set : _) (w : _), s.run = true ∧ s.still = true ∧ s.o 0xF010 1 ≠ 1 ∧ s.mtCheck = 0 ∧ s.mtOp = 5 ∧ s.mtScope = 3 ∧ s.mtTarget = 0 ∧ s.mtBobs.contains b = true ∧ set < 1024 ∧ s.nc = [(b * 1024 + set, { ways := [w] })] ∧ w.locked = true ∧ w.valid ≠ 0) ∧
    (∃ (s : State) (n : _), s.run = true ∧ s.still = true ∧ s.ring.fwLen = some n) :=
  ⟨⟨(((((({ wRun with part := { pin := 16, park := 16, bin := 20, rb := 16, lc := 64 } }).oSet 0x2300 1 16).oSet 0x2300 2 16).oSet 0x2300 3 20).oSet 0x2300 4 16).oSet 0x2300 5 64).oSet 0x2300 8 3040, by decide +kernel⟩,
   ⟨wS.oSet 0x2500 1 1, by decide +kernel⟩,
   ⟨(wS.oSet 0xF010 2 (1 + 24)), by decide +kernel⟩,
   ⟨(wS.oSet 0xF010 2 (2 + 256)), by decide +kernel⟩,
   ⟨(wS.oSet 0xF010 2 (3+256)), by decide +kernel⟩,
   ⟨(wS.oSet 0xF010 2 (4+256)), by decide +kernel⟩,
   ⟨(wS.oSet 0xF010 2 (5 + 24)), by decide +kernel⟩,
   ⟨((wS.oSet 0xF010 2 (6 + 256)).oSet 0xF010 3 3).oSet 0xF010 4 3, by decide +kernel⟩,
   ⟨({ (wS.oSet 0xF010 2 (5 + 24)) with nc := [(3 * 1024 + 5, { ways := [{ way := 2, locked := true, valid := 5 }] })] } : State).oSet 0xF010 5 0xFFFFFFFFFFFF, 3, 5, { way := 2, locked := true, valid := 5 }, by decide +kernel⟩,
   ⟨wS.modRing (fun r => { r with fwLen := some 5, fwBytes := 7 }), 5, by decide +kernel⟩⟩

theorem wit_TileOperationsEnd :
    (∃ (s : State), s.live = true ∧ s.tile.imgStep = 1 ∧ s.bstBusy = false) ∧
    (∃ (s : State) (e : Nat × Handle), s.live = true ∧ (e.2.rlen < 65536 * e.2.units ∨ s.pinFree ≠ 0) ∧ s.hnd = [e] ∧ (e.2.state = 1 ∨ e.2.state = 3) ∧ e.2.rlen < e.2.pinLen ∧ e.2.extended = false ∧ e.2.copying = false ∧ e.2.phase = 0) ∧
    (∃ (s : State) (m : _), s.live = true ∧ s.tile.maint = some m ∧ m.op < 4 ∧ m.todo = [] ∧ m.refs = [] ∧ m.reading = false ∧ m.fills.any s.mtFilling = false ∧ s.lcBacksOut true = 0) ∧
    (∃ (s : State) (change : _) (p : _), s.live = true ∧ s.tile.partOp = some (change, p) ∧ s.lcBacksOut = 0 ∧ s.lc.all (fun e => e.2.ways.isEmpty) = true) :=
  ⟨⟨wS.modTile (fun t => { t with imgStep := 1 }), by decide +kernel⟩,
   ⟨wP0.modHnd 3 (fun _ => { state := 1, owner := 1, rlen := 65536, units := 1, entry := 100000 * 256 ^ 0x20 }), (3, { state := 1, owner := 1, rlen := 65536, units := 1, entry := 100000 * 256 ^ 0x20 }), by decide +kernel⟩,
   ⟨wS.modTile (fun t => { t with maint := some { op := 1 } }), { op := 1 }, by decide +kernel⟩,
   ⟨wS.modTile (fun t => { t with partOp := some (true, { pin := 2 }) }), true, { pin := 2 }, by decide +kernel⟩⟩

theorem wit_RingFrames :
    (∃ (s : State) (f : RingFrame) (eseq : BitVec 16), s.ring.bypassOpen = true ∧ s.pwr.vddW = true ∧ rxFault f = none ∧ f.dst = 0xFF ∧ 4 ≤ f.ftype.toNat ∧ (f.src.toNat ≠ s.addr ∨ s.addr = 0xFE) ∧ s.addr ≠ 0xFF ∧ s.addr = 0xFE ∧ s.pstate ≠ 0 ∧ (∀ e, e ∈ s.ring.events → e.1 ≠ eseq)) ∧
    (∃ (s : State) (eseq : BitVec 16) (ev : BitVec 16 × List Byte) (before : List (BitVec 16 × List Byte)) (rest : List (BitVec 16 × List Byte)), s.pwr.vddW = true ∧ s.ring.bypassOpen = true ∧ s.addr ≠ 0xFE ∧ s.ring.events = [ev] ∧ s.addr < 64 ∧ s.o 0x1120 1 ≠ 0xFF ∧ s.pstate ≠ 0 ∧ s.ring.events = before ++ ev :: rest ∧ ev.1 = eseq ∧ (∀ e, e ∈ before → e.1 ≠ eseq)) ∧
    (∃ (s : State), s.ring.bypassOpen = false) ∧
    (∃ (s : State) (f : RingFrame), s.ring.bypassOpen = true ∧ s.pwr.vddW = true ∧ rxFault f = none ∧ f.dst.toNat ≠ s.addr ∧ f.dst ≠ 0xFF ∧ (f.src.toNat ≠ s.addr ∨ s.addr = 0xFE)) ∧
    (∃ (s : State) (f : RingFrame), s.ring.bypassOpen = true ∧ s.pwr.vddW = true ∧ rxFault f = none ∧ f.dst.toNat ≠ s.addr ∧ f.dst ≠ 0xFF ∧ f.src.toNat = s.addr ∧ s.addr ≠ 0xFE) ∧
    (∃ (s : State), s.pwr.vddW = true ∧ s.ring.bypassOpen = false ∧ s.pwr.pwrok = true ∧ s.pwr.rstN = true) :=
  ⟨⟨(wHold.oSet 0x1100 1 0xFE), fr 0xFF 2 6 0 0 0 [], 9, by decide +kernel⟩,
   ⟨wHold.modRing (fun r => { r with events := [(7,[1,2])] }), 7, (7,[1,2]), [], [], by decide +kernel⟩,
   ⟨State.reset, by decide +kernel⟩,
   ⟨wHold, fr 3 2 2 0x1120 6 0 [], by decide +kernel⟩,
   ⟨wHold, fr 3 5 2 0x1120 6 0 [], by decide +kernel⟩,
   ⟨State.reset.modPwr (fun p => { p with pwrok := true, rstN := true }), by decide +kernel⟩⟩

theorem wit_Enumeration :
    (∃ (s : State) (f : RingFrame) (v : Byte), s.ring.bypassOpen = true ∧ s.pwr.vddW = true ∧ s.still = true ∧ rxFault f = none ∧ f.dst = 0xFF ∧ (f.src.toNat ≠ s.addr ∨ s.addr = 0xFE) ∧ f.data = [v] ∧ f.ftype = 1) ∧
    (∃ (s : State) (f : RingFrame) (v : Byte), s.ring.bypassOpen = true ∧ s.pwr.vddW = true ∧ s.still = true ∧ rxFault f = none ∧ f.dst = 0xFF ∧ (f.src.toNat ≠ s.addr ∨ s.addr = 0xFE) ∧ f.data = [v] ∧ f.ftype = 3 ∧ f.index = 0x1100 ∧ f.sub = 3 ∧ f.src = 0 ∧ f.len = 1 ∧ s.addr ≠ 0xFE) :=
  ⟨⟨wHold.modRing (fun r => { r with dup := [(1,2,fr 2 5 4 0 0 0 [])] }), fr 0xFF 0 1 0 0 1 [9], 9, by decide +kernel⟩,
   ⟨wHold, fr 0xFF 0 3 0x1100 3 1 [12], 12, by decide +kernel⟩⟩

theorem wit_RingRequests :
    (∃ (s : State) (f : RingFrame) (row : _) (v : _) (n : _), let s1 := s.oInc 0x1100 4; let src := f.src.toNat; s.ring.bypassOpen = true ∧ s.pwr.vddW = true ∧ rxFault f = none ∧ s.addr < 64 ∧ f.dst.toNat = s.addr ∧ f.src.toNat ≠ s.addr ∧ s.ring.dup.find? (fun d => d.1 == src && d.2.1 == f.tid.toNat) = none ∧ s.still = true ∧ f.ftype = 2 ∧ objRow? f.index.toNat f.sub.toNat = some row ∧ row.ty = .u n ∧ (¬(f.sub.toNat = 0 ∧ 0 < objTop f.index.toNat)) ∧ row.lvl ≤ s.level (.ring src) ∧ (alwaysOn f.index.toNat = true ∨ 3 ≤ s.pstate) ∧ f.offset = 0 ∧ (f.len = 0 ∨ f.len.toNat = row.ty.size) ∧ s1.dictRead row f.index.toNat f.sub.toNat = (v, s1)) ∧
    (∃ (s : State) (f : RingFrame), let src := f.src.toNat; s.ring.bypassOpen = true ∧ s.pwr.vddW = true ∧ rxFault f = none ∧ s.addr < 64 ∧ f.dst.toNat = s.addr ∧ f.src.toNat ≠ s.addr ∧ s.ring.dup.find? (fun d => d.1 == src && d.2.1 == f.tid.toNat) = none ∧ s.still = true ∧ f.ftype = 3 ∧ f.index = 0x1120 ∧ f.sub = 6 ∧ f.offset = 0 ∧ f.len = 2 ∧ f.fflags = 1 ∧ 1 ≤ s.level (.ring src)) ∧
    (∃ (s : State) (f : RingFrame) (g : _), let src := f.src.toNat; s.ring.bypassOpen = true ∧ s.pwr.vddW = true ∧ rxFault f = none ∧ s.addr < 64 ∧ f.dst.toNat = s.addr ∧ f.src.toNat ≠ s.addr ∧ s.ring.dup.find? (fun d => d.1 == src && d.2.1 == f.tid.toNat) = some (src, f.tid.toNat, g) ∧ f.ftype = 3) ∧
    (∃ (s : State) (f : RingFrame) (g : _), let src := f.src.toNat; s.ring.bypassOpen = true ∧ s.pwr.vddW = true ∧ rxFault f = none ∧ s.addr < 64 ∧ f.dst.toNat = s.addr ∧ f.src.toNat ≠ s.addr ∧ s.ring.dup.find? (fun d => d.1 == src && d.2.1 == f.tid.toNat) = some (src, f.tid.toNat, g) ∧ f.ftype = 2) ∧
    (∃ (s : State) (f : RingFrame), let src := f.src.toNat; s.ring.bypassOpen = true ∧ s.pwr.vddW = true ∧ rxFault f = none ∧ s.addr < 64 ∧ f.dst.toNat = s.addr ∧ f.src.toNat ≠ s.addr ∧ s.ring.dup.find? (fun d => d.1 == src && d.2.1 == f.tid.toNat) = none ∧ 8 ≤ s.ring.queue.length ∧ f.ftype = 2) ∧
    (∃ (s : State) (f : RingFrame), let src := f.src.toNat; s.ring.bypassOpen = true ∧ s.pwr.vddW = true ∧ rxFault f = none ∧ s.addr < 64 ∧ f.dst.toNat = s.addr ∧ f.src.toNat ≠ s.addr ∧ s.ring.dup.find? (fun d => d.1 == src && d.2.1 == f.tid.toNat) = none ∧ 8 ≤ s.ring.queue.length ∧ f.ftype = 3) :=
  ⟨⟨wHold.oSet 0x1200 3 1, fr 5 2 2 0x1120 6 0 [], (objRow? 0x1120 6).get (by decide), 10, 2, by dsimp only; decide +kernel⟩,
   ⟨wHold.oSet 0x1200 3 1, fr 5 2 3 0x1120 6 2 [0x10,0x27], by dsimp only; decide +kernel⟩,
   ⟨wHold.modRing (fun r => { r with dup := [(2,7,fr 2 5 4 0 0 0 [])] }), fr 5 2 3 0x1120 6 2 [0x11,0x27], fr 2 5 4 0 0 0 [], by dsimp only; decide +kernel⟩,
   ⟨wHold.modRing (fun r => { r with dup := [(2,7,fr 2 5 4 0 0 0 [])] }), fr 5 2 2 0x1120 6 0 [], fr 2 5 4 0 0 0 [], by dsimp only; decide +kernel⟩,
   ⟨wHold.modRing (fun r => { r with queue := List.replicate 8 (.mailbox 0) }), fr 5 2 2 0x1120 6 0 [], by dsimp only; decide +kernel⟩,
   ⟨wHold.modRing (fun r => { r with queue := List.replicate 8 (.mailbox 0) }), fr 5 2 3 0x1120 6 2 [1,1], by dsimp only; decide +kernel⟩⟩

theorem wit_PeerRequests :
    (∃ (s : State) (f : RingFrame) (q : PeerReq), s.ring.bypassOpen = true ∧ s.pwr.vddW = true ∧ s.addr < 64 ∧ rxFault f = none ∧ f.dst.toNat = s.addr ∧ f.src.toNat ≠ s.addr ∧ f.ftype = 4 ∧ q.tid = f.tid ∧ q.dst = f.src ∧ s.ring.store = none ∧ s.ring.vreg = some q ∧ f.stat = 0 ∧ q.retries < s.o 0x1110 7) ∧
    (∃ (s : State) (f : RingFrame) (q : PeerReq), s.ring.bypassOpen = true ∧ s.pwr.vddW = true ∧ s.addr < 64 ∧ rxFault f = none ∧ f.dst.toNat = s.addr ∧ f.src.toNat ≠ s.addr ∧ f.ftype = 4 ∧ q.tid = f.tid ∧ q.dst = f.src ∧ s.ring.store = some q ∧ q.retries < s.o 0x1110 7) ∧
    (∃ (s : State) (q : PeerReq), s.ring.bypassOpen = true ∧ s.pwr.vddW = true ∧ s.addr < 64 ∧ s.ring.vreg = some q ∧ s.o 0x1110 7 ≤ q.retries) ∧
    (∃ (s : State) (q : PeerReq), s.ring.bypassOpen = true ∧ s.pwr.vddW = true ∧ s.addr < 64 ∧ s.ring.store = some q ∧ s.o 0x1110 7 ≤ q.retries) :=
  ⟨⟨wHold.modRing (fun r => { r with vreg := some (({ tid := 7, write := true, dst := 2, index := 3, sub := 4, offset := 0, len := 2, data := [1,2], mv := 800 } : PeerReq)) }), fr 5 2 4 0 0 0 [], ({ tid := 7, write := true, dst := 2, index := 3, sub := 4, offset := 0, len := 2, data := [1,2], mv := 800 } : PeerReq), by decide +kernel⟩,
   ⟨wHold.modRing (fun r => { r with store := some (({ tid := 7, write := true, dst := 2, index := 3, sub := 4, offset := 0, len := 2, data := [1,2], mv := 800 } : PeerReq)) }), fr 5 2 4 0 0 0 [], ({ tid := 7, write := true, dst := 2, index := 3, sub := 4, offset := 0, len := 2, data := [1,2], mv := 800 } : PeerReq), by decide +kernel⟩,
   ⟨(wHold.oSet 0x1110 7 0).modRing (fun r => { r with vreg := some (({ tid := 7, write := true, dst := 2, index := 3, sub := 4, offset := 0, len := 2, data := [1,2], mv := 800 } : PeerReq)) }), ({ tid := 7, write := true, dst := 2, index := 3, sub := 4, offset := 0, len := 2, data := [1,2], mv := 800 } : PeerReq), by decide +kernel⟩,
   ⟨(wHold.oSet 0x1110 7 0).modRing (fun r => { r with store := some (({ tid := 7, write := true, dst := 2, index := 3, sub := 4, offset := 0, len := 2, data := [1,2], mv := 800 } : PeerReq)) }), ({ tid := 7, write := true, dst := 2, index := 3, sub := 4, offset := 0, len := 2, data := [1,2], mv := 800 } : PeerReq), by decide +kernel⟩⟩

theorem wit_RingResetsAndUnlock :
    (∃ (s : State) (code : Byte), s.pwr.vddW = true ∧ s.pstate ≠ 0 ∧ s.ring.after = 0 ∧ s.ring.bypassOpen = true ∧ code ≠ 1 ∧ s.ring.domW = []) ∧
    (∃ (s : State) (why : RingLoss), s.pwr.vddW = true ∧ s.pstate ≠ 0 ∧ s.ring.after = 0 ∧ s.ring.bypassOpen = false ∧ why ≠ .firmware) :=
  ⟨⟨wRun, 2, by decide +kernel⟩,
   ⟨wHold.modRing (fun r => { r with bypassOpen := false, domW := [{ key := 0, src := 0, next := 0, bytes := 0 }] }), .lostLock, by decide +kernel⟩⟩

theorem wit_PortCompletions :
    (∃ (s : State) (p : Nat) (hdr : BitVec 256) (r : PReq), let h := hdr.toNat; let tag := pktTag h; s.portUp p = true ∧ pktBad h 9 = false ∧ (s.portOf p).rds.find? (fun e => e.1 == tag) = some (tag, r) ∧ r.big = false ∧ r.left = 1 ∧ r.err = false ∧ pktStat h = 0 ∧ pktBad h 8 = true) ∧
    (∃ (s : State) (p : Nat) (hdr : BitVec 256) (r : PReq), let h := hdr.toNat; let tag := pktTag h; s.portUp p = true ∧ pktBad h 8 = false ∧ (s.portOf p).wrs.find? (fun e => e.1 == tag) = some (tag, r) ∧ pktStat h = 0 ∧ r.wp = none ∧ pktBad h 9 = true) ∧
    (∃ (s : State) (p : Nat) (hdr : BitVec 256) (r : PReq), let h := hdr.toNat; let tag := pktTag h; s.portUp p = true ∧ pktBad h 9 = false ∧ (s.portOf p).rds.find? (fun e => e.1 == tag) = some (tag, r) ∧ r.big = false ∧ r.left = 1 ∧ r.err = false ∧ pktStat h ≠ 0) ∧
    (∃ (s : State) (p : Nat) (hdr : BitVec 256) (r : PReq), let h := hdr.toNat; let tag := pktTag h; s.portUp p = true ∧ pktBad h 9 = false ∧ (s.portOf p).rds.find? (fun e => e.1 == tag) = some (tag, r) ∧ r.big = true ∧ bit r.left (pktSect h) = true ∧ r.left ≠ 2 ^ pktSect h ∧ pktStat h = 0 ∧ r.err = false) ∧
    (∃ (s : State) (p : Nat) (hdr : BitVec 256), let h := hdr.toNat; let tag := pktTag h; s.portUp p = true ∧ pktBad h 9 = false ∧ (s.portOf p).rds.find? (fun e => e.1 == tag) = none) ∧
    (∃ (s : State) (p : Nat) (hdr : BitVec 256) (r : PReq) (w : _), let h := hdr.toNat; let tag := pktTag h; s.portUp p = true ∧ pktBad h 8 = false ∧ (s.portOf p).wrs.find? (fun e => e.1 == tag) = some (tag, r) ∧ pktStat h = 0 ∧ r.wp = some w) ∧
    (∃ (s : State) (p : Nat) (hdr : BitVec 256) (r : PReq), let h := hdr.toNat; let tag := pktTag h; s.portUp p = true ∧ pktBad h 8 = false ∧ (s.portOf p).wrs.find? (fun e => e.1 == tag) = some (tag, r) ∧ pktStat h ≠ 0) ∧
    (∃ (s : State) (p : Nat) (hdr : BitVec 256), let h := hdr.toNat; let tag := pktTag h; s.portUp p = true ∧ pktBad h 8 = false ∧ (s.portOf p).wrs.find? (fun e => e.1 == tag) = none) :=
  ⟨⟨withRd rd1, 3, pk 9 9 0 0, rd1, by dsimp only; decide +kernel⟩,
   ⟨withWr wr1, 3, pk 8 9 0 0, wr1, by dsimp only; decide +kernel⟩,
   ⟨withRd rd1, 3, pk 9 9 2 0, rd1, by dsimp only; decide +kernel⟩,
   ⟨withRd rd4, 3, pk 9 9 0 2, rd4, by dsimp only; decide +kernel⟩,
   ⟨withRd rd4, 3, pk 9 8 0 2, by dsimp only; decide +kernel⟩,
   ⟨withWr { wr1 with wp := some (.headWb 1 2) }, 3, pk 8 9 0 0, { wr1 with wp := some (.headWb 1 2) }, .headWb 1 2, by dsimp only; decide +kernel⟩,
   ⟨withWr wr1, 3, pk 8 9 3 0, wr1, by dsimp only; decide +kernel⟩,
   ⟨withWr wr1, 3, pk 8 10 3 0, by dsimp only; decide +kernel⟩⟩

theorem wit_PortFaults :
    (∃ (s : State) (p : Nat) (m : Nat) (wr : Bool) (tag : BitVec 12), s.live = true ∧ p < 48 ∧ m < portModules p ∧ p < 24 ∧ (if wr then (s.portOf p).wrs else (s.portOf p).rds).find? (fun e => e.1 == tag.toNat) = none ∧ (s.portOf p).retrain = true ∧ ((s.portOf p).rds = [] ∧ (s.portOf p).wrs = [] ∧ (s.portOf p).waiting = [] ∧ (s.portOf p).seamQ = [])) ∧
    (∃ (s : State) (p : Nat) (m : Nat) (wr : Bool) (tag : BitVec 12) (r : PReq), s.live = true ∧ p < 48 ∧ m < portModules p ∧ p < 24 ∧ (if wr then (s.portOf p).wrs else (s.portOf p).rds).find? (fun e => e.1 == tag.toNat) = some (tag.toNat, r) ∧ (s.portOf p).retrain = false ∧ s.lstate p = 1) ∧
    (∃ (s : State) (p : Nat) (m : Nat), s.live = true ∧ p < 48 ∧ m < portModules p ∧ (s.portOf p).retrain = false ∧ s.lstate p = 2 ∧ ((s.portOf p).rds = [] ∧ (s.portOf p).wrs = [] ∧ (s.portOf p).waiting = [] ∧ (s.portOf p).seamQ = [])) ∧
    (∃ (s : State) (p : Nat) (m : Nat), s.live = true ∧ p < 48 ∧ m < portModules p ∧ (s.portOf p).retrain = false ∧ (s.lstate p = 0 ∨ 3 ≤ s.lstate p)) ∧
    (∃ (s : State) (p : Nat) (m : Nat), s.live = true ∧ p < 48 ∧ m < portModules p ∧ (s.portOf p).retrain = true ∧ 24 ≤ p) :=
  ⟨⟨(wRun.oSet (0x4400+3) 1 1).modPort 3 (fun p => { p with retrain := true, faulty := 2 }), 3, 0, true, 8, by decide +kernel⟩,
   ⟨withRd rd1, 3, 2, false, 9, rd1, by decide +kernel⟩,
   ⟨wRun.oSet 0x4403 1 2, 3, 3, by decide +kernel⟩,
   ⟨(wRun.oSet (0x4400+47) 1 3), 47, 0, by decide +kernel⟩,
   ⟨(wRun.oSet (0x4400+47) 1 1).modPort 47 (fun p => { p with retrain := true, faulty := 0 }), 47, 0, by decide +kernel⟩⟩

theorem wit_SeamArrival :
    (∃ (s : State) (sp : Nat) (f : SeamFrame), let s1 := s.seamCredits sp f; let o := fld f.arg0 8 6; s.run = true ∧ s.seamUp sp = true ∧ (s.portOf (24 + sp)).seamQ = [] ∧ (¬(f.bad = true ∨ f.dst ≠ s.tileNo)) ∧ s.tile.migVec = [] ∧ f.bad = false ∧ f.dst = s.tileNo ∧ (¬(bit (s1.o 0x2700 7) f.src = true) ∨ o < 8 ∨ 0xB < o)) ∧
    (∃ (s : State) (sp : Nat), s.run = true ∧ s.seamUp sp = false) ∧
    (∃ (s : State) (sp : Nat) (f : SeamFrame), s.run = true ∧ s.seamUp sp = true ∧ (f.bad = true ∨ f.dst ≠ s.tileNo)) ∧
    (∃ (s : State) (sp : Nat) (f : SeamFrame), let s1 := s.seamCredits sp f; let o := fld f.arg0 8 6; s.run = true ∧ s.seamUp sp = true ∧ f.bad = false ∧ f.dst = s.tileNo ∧ (bit (s1.o 0x2700 7) f.src = true) ∧ o = 9 ∧ f.arg1 < 4096) ∧
    (∃ (s : State) (sp : Nat) (f : SeamFrame), let s1 := s.seamCredits sp f; let o := fld f.arg0 8 6; s.run = true ∧ s.seamUp sp = true ∧ f.bad = false ∧ f.dst = s.tileNo ∧ (bit (s1.o 0x2700 7) f.src = true) ∧ (o = 0xA ∨ o = 0xB)) ∧
    (∃ (s : State) (sp : Nat) (f : SeamFrame), let s1 := s.seamCredits sp f; let c := fld f.arg0 0 6; let o := fld f.arg0 8 6; s.run = true ∧ s.seamUp sp = true ∧ f.bad = false ∧ f.dst = s.tileNo ∧ (bit (s1.o 0x2700 7) f.src = true) ∧ o = 8 ∧ f.arg1 = 1 ∧ (s1.ctxOf c).maintFrom = none ∧ s1.co c 8 ≠ 1 ∧ (s1.hndOf (s1.co c 9 % 4096)).state = 0 ∧ (s1.hndOf (s1.co c 9 % 4096)).phase = 0 ∧ (s1.hndOf (s1.co c 9 % 4096)).loading = none ∧ s1.co c 0xA % 64 = 0) :=
  ⟨⟨wSeam, 2, { sf 6 1 0 0 0 0 0 0 with hdr := (sf 6 1 0 0 0 0 0 0).hdr + 5 * 2 ^ 48 + 3 * 2 ^ 56 }, by dsimp only; decide +kernel⟩,
   ⟨wRun, 2, by decide +kernel⟩,
   ⟨wSeam, 2, sf 6 1 1 0 0 0 0 0, by decide +kernel⟩,
   ⟨wSeam.oSet 0x2700 7 2, 2, sf 4 1 0 0 3 0 (9 * 256 + 2) 77 0, by dsimp only; decide +kernel⟩,
   ⟨wSeam.oSet 0x2700 7 2, 2, sf 4 1 0 0 3 0 (11 * 256 + 2) 7700 0, by dsimp only; decide +kernel⟩,
   ⟨wSeam.oSet 0x2700 7 2, 2, sf 4 1 0 0 3 0 (8 * 256 + 2) 1 0, by dsimp only; decide +kernel⟩⟩

theorem wit_ServingAMigration :
    (∃ (s : State) (sp : Nat) (f : SeamFrame), let s1 := s.seamCredits sp f; let hn := f.routew % 4096; let h := s1.hndOf hn; s.run = true ∧ s.seamUp sp = true ∧ f.bad = false ∧ f.dst = s.tileNo ∧ (h.state = 0 ∨ s1.ctxEn h.owner = false ∨ h.distrib = false)) ∧
    (∃ (s : State) (sp : Nat) (f : SeamFrame), let s1 := s.seamCredits sp f; let hn := f.routew % 4096; let h := s1.hndOf hn; let rootOk := match longRef f.arg0 with | some x => refOk h .stub x | none => false; s.run = true ∧ s.seamUp sp = true ∧ f.bad = false ∧ f.dst = s.tileNo ∧ (¬(h.state = 0 ∨ s1.ctxEn h.owner = false ∨ h.distrib = false)) ∧ rootOk = false) ∧
    (∃ (s : State) (sp : Nat) (f : SeamFrame), let s1 := s.seamCredits sp f; let hn := f.routew % 4096; let h := s1.hndOf hn; let hops := fld f.routew 16 2; let rootOk := match longRef f.arg0 with | some x => refOk h .stub x | none => false; s.run = true ∧ s.seamUp sp = true ∧ f.bad = false ∧ f.dst = s.tileNo ∧ (¬(h.state = 0 ∨ s1.ctxEn h.owner = false ∨ h.distrib = false)) ∧ rootOk = true ∧ (¬(s1.o 0x2700 2 ≤ s1.poolUse (fun x => x == hops) ∨ 16777216 ≤ s1.queriesIn ∨ s1.parkUnits ≤ s1.queriesIn))) ∧
    (∃ (s : State) (sp : Nat) (f : SeamFrame), let s1 := s.seamCredits sp f; let hn := f.routew % 4096; let h := s1.hndOf hn; let hops := fld f.routew 16 2; let rootOk := match longRef f.arg0 with | some x => refOk h .stub x | none => false; s.run = true ∧ s.seamUp sp = true ∧ f.bad = false ∧ f.dst = s.tileNo ∧ (¬(h.state = 0 ∨ s1.ctxEn h.owner = false ∨ h.distrib = false)) ∧ rootOk = true ∧ (s1.o 0x2700 2 ≤ s1.poolUse (fun x => x == hops) ∨ 16777216 ≤ s1.queriesIn ∨ s1.parkUnits ≤ s1.queriesIn)) :=
  ⟨⟨wSeam, 2, sf 1 1 0 96 (5 + 65536) (3 + 2 * 4096 + 65536) 0x1001 0 0, by dsimp only; decide +kernel⟩,
   ⟨((wSeam.modHnd 3 (fun h => { h with state := 1, owner := 4, entry := 2 + 0xFFFF * 2 ^ 32 })).coSet 4 0 1), 2, sf 1 1 0 96 (5 + 65536) (3 + 2 * 4096 + 65536) 0x1003 0 0, by dsimp only; decide +kernel⟩,
   ⟨((wP0.oSet 0x441A 1 1 |>.modHnd 3 (fun h => { h with state := 1, owner := 4, entry := 2 + 0xFFFF * 2 ^ 32 })).coSet 4 0 1), 2, sf 1 1 0 96 (5 + 65536) (3 + 2 * 4096 + 65536) 0x1001 0 (0x81+ 7 * 2^704), by dsimp only; decide +kernel⟩,
   ⟨((wSeam.modHnd 3 (fun h => { h with state := 1, owner := 4, entry := 2 + 0xFFFF * 2 ^ 32 })).coSet 4 0 1).oSet 0x2700 2 0, 2, sf 1 1 0 96 (5 + 65536) (3 + 2 * 4096 + 65536) 0x1001 0 0, by dsimp only; decide +kernel⟩⟩

theorem wit_MigrationResults :
    (∃ (s : State) (sp : Nat) (f : SeamFrame) (m : MigInfo), let s1 := s.seamCredits sp f; let e := f.migid % 65536; let x := s1.migOf e; let st := f.arg0 % 256; s.run = true ∧ s.seamUp sp = true ∧ f.bad = false ∧ f.dst = s.tileNo ∧ (x.used = true ∧ x.gen = f.migid / 65536) ∧ x.orphan = false ∧ x.res = none ∧ f.arg0 / 2 ^ 32 ≤ x.staged.length ∧ (st = stDone ∨ st = stTruncated ∨ (stWindow ≤ st ∧ st ≠ stUnrecovered)) ∧ x.staged = [] ∧ (s1.q x.slot).mig = some m ∧ (s1.q x.slot).qr.kind = kRayClosest ∧ (s1.q x.slot).qr.trace = false ∧ m.closed = false ∧ f.arg0 / 2 ^ 32 = 0 ∧ st = stDone ∧ bit f.arg0 9 = false) ∧
    (∃ (s : State) (sp : Nat) (f : SeamFrame), let s1 := s.seamCredits sp f; let e := f.migid % 65536; let x := s1.migOf e; s.run = true ∧ s.seamUp sp = true ∧ f.bad = false ∧ f.dst = s.tileNo ∧ (¬(x.used = true ∧ x.gen = f.migid / 65536))) ∧
    (∃ (s : State) (sp : Nat) (f : SeamFrame), let s1 := s.seamCredits sp f; let e := f.migid % 65536; let x := s1.migOf e; s.run = true ∧ s.seamUp sp = true ∧ f.bad = false ∧ f.dst = s.tileNo ∧ (x.used = true ∧ x.gen = f.migid / 65536) ∧ x.orphan = true) ∧
    (∃ (s : State) (sp : Nat) (f : SeamFrame), let s1 := s.seamCredits sp f; let e := f.migid % 65536; let x := s1.migOf e; let st := f.arg0 % 256; s.run = true ∧ s.seamUp sp = true ∧ f.bad = false ∧ f.dst = s.tileNo ∧ (x.used = true ∧ x.gen = f.migid / 65536) ∧ x.orphan = false ∧ st = 1) ∧
    (∃ (s : State) (sp : Nat) (f : SeamFrame), let s1 := s.seamCredits sp f; let e := f.migid % 65536; let x := s1.migOf e; let st := f.arg0 % 256; s.run = true ∧ s.seamUp sp = true ∧ f.bad = false ∧ f.dst = s.tileNo ∧ (x.used = true ∧ x.gen = f.migid / 65536) ∧ x.orphan = false ∧ (st = stDone ∨ st = stTruncated ∨ stWindow ≤ st) ∧ s1.mending (s1.q x.slot).qr.ctx = false ∧ x.staged.length < f.arg0 / 2 ^ 32) ∧
    (∃ (s : State) (sp : Nat) (f : SeamFrame) (m : MigInfo), let s1 := s.seamCredits sp f; let e := f.migid % 65536; let x := s1.migOf e; let st := f.arg0 % 256; s.run = true ∧ s.seamUp sp = true ∧ f.bad = false ∧ f.dst = s.tileNo ∧ (x.used = true ∧ x.gen = f.migid / 65536) ∧ x.orphan = false ∧ x.staged = [] ∧ (s1.q x.slot).mig = some m ∧ f.arg0 / 2 ^ 32 = 0 ∧ st = stDone ∧ bit f.arg0 9 = true) ∧
    (∃ (s : State) (sp : Nat) (f : SeamFrame) (m : MigInfo), let s1 := s.seamCredits sp f; let e := f.migid % 65536; let x := s1.migOf e; let st := f.arg0 % 256; s.run = true ∧ s.seamUp sp = true ∧ f.bad = false ∧ f.dst = s.tileNo ∧ (x.used = true ∧ x.gen = f.migid / 65536) ∧ x.orphan = false ∧ x.staged = [] ∧ (s1.q x.slot).mig = some m ∧ f.arg0 / 2 ^ 32 = 0 ∧ stWindow ≤ st ∧ st ≠ stUnrecovered) :=
  ⟨⟨(wSeam.modMig 7 (fun _ => { used := true, slot := 4, gen := 3, attempts := 2, home := 1 })).modQ 4 (fun _ => { place := .remote, mig := some {}, qr := { kind := 1 } }), 2, sf 2 1 0 0 (7 + 3 * 65536) 0 0 0, {}, by dsimp only; decide +kernel⟩,
   ⟨(wSeam.modMig 7 (fun _ => { used := true, slot := 4, gen := 3, attempts := 2, home := 1 })).modQ 4 (fun _ => { place := .remote, mig := some {}, qr := { kind := 1 } }), 2, sf 2 1 0 0 (7 + 4 * 65536) 0 0 0, by dsimp only; decide +kernel⟩,
   ⟨((wSeam.modMig 7 (fun _ => { used := true, slot := 4, gen := 3, attempts := 2, home := 1 })).modQ 4 (fun _ => { place := .remote, mig := some {}, qr := { kind := 1 } })).modMig 7 (fun x => { x with orphan := true }), 2, sf 2 1 0 0 (7 + 3 * 65536) 0 0 0, by dsimp only; decide +kernel⟩,
   ⟨(wSeam.modMig 7 (fun _ => { used := true, slot := 4, gen := 3, attempts := 2, home := 1 })).modQ 4 (fun _ => { place := .remote, mig := some {}, qr := { kind := 1 } }), 2, sf 2 1 0 0 (7 + 3 * 65536) 0 1 0, by dsimp only; decide +kernel⟩,
   ⟨(wSeam.modMig 7 (fun _ => { used := true, slot := 4, gen := 3, attempts := 2, home := 1 })).modQ 4 (fun _ => { place := .remote, mig := some {}, qr := { kind := 1 } }), 2, sf 2 1 0 0 (7 + 3 * 65536) 0 (5 * 2 ^ 32) 0, by dsimp only; decide +kernel⟩,
   ⟨(wSeam.modMig 7 (fun _ => { used := true, slot := 4, gen := 3, attempts := 2, home := 1 })).modQ 4 (fun _ => { place := .remote, mig := some {}, qr := { kind := 1 } }), 2, sf 2 1 0 0 (7 + 3 * 65536) 0 0x200 9, {}, by dsimp only; decide +kernel⟩,
   ⟨(wSeam.modMig 7 (fun _ => { used := true, slot := 4, gen := 3, attempts := 2, home := 1 })).modQ 4 (fun _ => { place := .remote, mig := some {}, qr := { kind := 1 } }), 2, sf 2 1 0 0 (7 + 3 * 65536) 0 0x20 9, {}, by dsimp only; decide +kernel⟩⟩

theorem wit_MigrationsOut :
    (∃ (s : State) (k : Nat) (i : Nat) (m : MigInfo), let q := s.q k; let e := 16384 * q.hops + i; s.run = true ∧ q.place = .remote ∧ q.kill = none ∧ (s.ctxOf q.qr.ctx).aborting = false ∧ s.migEntry k = none ∧ isMetric q.qr.kind = false ∧ q.mig = some m ∧ q.qr.migRecs = false ∧ i < 16384 ∧ (s.migOf e).used = false ∧ (∀ j, j < i → (s.migOf (16384 * q.hops + j)).used = true)) ∧
    (∃ (s : State) (k : Nat) (n : Nat), let q := s.q k; let x := s.migOf n; s.run = true ∧ x.used = true ∧ x.orphan = false ∧ x.backoff = false ∧ s.mending (s.q x.slot).qr.ctx = false ∧ x.attempts ≤ s.o 0x2700 5) ∧
    (∃ (s : State) (k : Nat) (n : Nat), let q := s.q k; let x := s.migOf n; s.run = true ∧ x.used = true ∧ x.orphan = false ∧ x.backoff = false ∧ s.mending (s.q x.slot).qr.ctx = false ∧ s.o 0x2700 5 < x.attempts) ∧
    (∃ (s : State) (n : Nat), let x := s.migOf n; s.run = true ∧ x.used = true ∧ x.orphan = true) ∧
    (∃ (s : State) (n : Nat), let x := s.migOf n; s.run = true ∧ x.used = true ∧ x.orphan = false ∧ x.backoff = true) :=
  ⟨⟨wSeam.modQ 4 (fun _ => { place := .remote, mig := some { home := 9 }, qr := { kind := 1 } }), 4, 0, { home := 9 }, by dsimp only; decide +kernel⟩,
   ⟨(wSeam.modMig 7 (fun _ => { used := true, slot := 4, gen := 3, attempts := 2, home := 1 })).modQ 4 (fun _ => { place := .remote, mig := some {}, qr := { kind := 1 } }), 9, 7, by dsimp only; decide +kernel⟩,
   ⟨((wSeam.modMig 7 (fun _ => { used := true, slot := 4, gen := 3, attempts := 2, home := 1 })).modQ 4 (fun _ => { place := .remote, mig := some {}, qr := { kind := 1 } })).modMig 7 (fun x => { x with attempts := 3, gen := 65535 }), 9, 7, by dsimp only; decide +kernel⟩,
   ⟨((wSeam.modMig 7 (fun _ => { used := true, slot := 4, gen := 3, attempts := 2, home := 1 })).modQ 4 (fun _ => { place := .remote, mig := some {}, qr := { kind := 1 } })).modMig 7 (fun x => { x with orphan := true }), 7, by dsimp only; decide +kernel⟩,
   ⟨((wSeam.modMig 7 (fun _ => { used := true, slot := 4, gen := 3, attempts := 2, home := 1 })).modQ 4 (fun _ => { place := .remote, mig := some {}, qr := { kind := 1 } })).modMig 7 (fun x => { x with backoff := true, attempts := 1 }), 7, by dsimp only; decide +kernel⟩⟩

theorem wit_QueriesIn :
    (∃ (s : State) (c : Nat) (st : Nat) (g : _), let x := s.st c st; let k := c * 8 + st; s.run = true ∧ c < 64 ∧ st < 8 ∧ (∀ a, a < 64 → ∀ b, b < 8 → s.fetchable a b = false) ∧ (s.ctxOf c).aborting = false ∧ x.gen = some g ∧ g.ready = true ∧ (s.tile.rrGen + 1) % 512 = k ∧ s.admitTurn c st = true ∧ s.frontWaits c st = false ∧ g.cancelled = false ∧ (s.genNext c st g).status = none) ∧
    (∃ (s : State) (c : Nat) (st : Nat), let k := c * 8 + st; s.run = true ∧ c < 64 ∧ st < 8 ∧ (s.tile.rrFetch + 1) % 512 = k ∧ s.fetchable c st = true) ∧
    (∃ (s : State) (c : Nat) (st : Nat) (e : Fetched) (rest : List Fetched), let x := s.st c st; let r := plainRec c st e.count e.data; s.run = true ∧ c < 64 ∧ st < 8 ∧ (s.ctxOf c).aborting = false ∧ x.gen = none ∧ x.old = [] ∧ x.entries = e :: rest ∧ e.count = x.next ∧ s.admitTurn c st = true ∧ e.status = none ∧ bit e.data 15 = false ∧ x.cancels e.count = false ∧ s.ctxEn c = true ∧ s.plainCheck c st e.data = none ∧ s.mustWait r = false) ∧
    (∃ (s : State) (c : Nat) (st : Nat) (e : Fetched) (rest : List Fetched) (y : _), let x := s.st c st; s.run = true ∧ c < 64 ∧ st < 8 ∧ (s.ctxOf c).aborting = false ∧ x.gen = none ∧ x.old = [] ∧ x.entries = e :: rest ∧ e.count = x.next ∧ s.admitTurn c st = true ∧ e.status = some y ∧ x.cancels e.count = false) ∧
    (∃ (s : State) (c : Nat) (st : Nat) (e : Fetched) (rest : List Fetched), let x := s.st c st; s.run = true ∧ c < 64 ∧ st < 8 ∧ (s.ctxOf c).aborting = false ∧ x.gen = none ∧ x.old = [] ∧ x.entries = e :: rest ∧ e.count = x.next ∧ s.admitTurn c st = true ∧ e.status = none ∧ bit e.data 15 = false ∧ x.cancels e.count = true) ∧
    (∃ (s : State) (c : Nat) (st : Nat) (e : Fetched) (rest : List Fetched), let x := s.st c st; s.run = true ∧ c < 64 ∧ st < 8 ∧ (s.ctxOf c).aborting = false ∧ x.gen = none ∧ x.old = [] ∧ x.entries = e :: rest ∧ e.count = x.next ∧ s.admitTurn c st = true ∧ e.status = none ∧ bit e.data 15 = false ∧ x.cancels e.count = false ∧ s.ctxEn c = true ∧ 9 ≤ fld e.data 0 4) ∧
    (∃ (s : State) (c : Nat) (st : Nat) (e : Fetched) (rest : List Fetched), let x := s.st c st; let r := plainRec c st e.count e.data; s.run = true ∧ c < 64 ∧ st < 8 ∧ (s.ctxOf c).aborting = false ∧ x.gen = none ∧ x.old = [] ∧ x.entries = e :: rest ∧ e.count = x.next ∧ s.admitTurn c st = true ∧ e.status = none ∧ bit e.data 15 = false ∧ x.cancels e.count = false ∧ s.ctxEn c = true ∧ s.plainCheck c st e.data = none ∧ s.mustWait r = true) ∧
    (∃ (s : State) (c : Nat) (st : Nat) (e : Fetched) (rest : List Fetched) (y : _), let x := s.st c st; s.run = true ∧ c < 64 ∧ st < 8 ∧ (s.ctxOf c).aborting = false ∧ x.gen = none ∧ x.old = [] ∧ x.entries = e :: rest ∧ e.count = x.next ∧ e.status = none ∧ bit e.data 15 = true ∧ x.cancels e.count = false ∧ s.ctxEn c = true ∧ s.genClash c st e.count = false ∧ s.genCheck c st e.data = some y) ∧
    (∃ (s : State) (c : Nat) (st : Nat) (e : Fetched) (rest : List Fetched), let x := s.st c st; s.run = true ∧ c < 64 ∧ st < 8 ∧ (s.ctxOf c).aborting = false ∧ x.gen = none ∧ x.old = [] ∧ x.entries = e :: rest ∧ e.count = x.next ∧ e.status = none ∧ bit e.data 15 = true ∧ x.cancels e.count = false ∧ s.ctxEn c = true ∧ s.genClash c st e.count = false ∧ s.genCheck c st e.data = none ∧ fld e.data 0 4 = 1) ∧
    (∃ (s : State) (c : Nat) (st : Nat) (e : Fetched) (rest : List Fetched), let x := s.st c st; s.run = true ∧ c < 64 ∧ st < 8 ∧ (s.ctxOf c).aborting = false ∧ x.gen = none ∧ x.old = [] ∧ x.entries = e :: rest ∧ e.count = x.next ∧ e.status = none ∧ bit e.data 15 = true ∧ x.cancels e.count = false ∧ s.ctxEn c = true ∧ s.genClash c st e.count = false ∧ s.genCheck c st e.data = none ∧ fld e.data 0 4 = 2) ∧
    (∃ (s : State) (c : Nat) (st : Nat) (e : Fetched) (rest : List Fetched), let x := s.st c st; s.run = true ∧ c < 64 ∧ st < 8 ∧ (s.ctxOf c).aborting = false ∧ x.gen = none ∧ x.old = [] ∧ x.entries = e :: rest ∧ e.count = x.next ∧ e.status = none ∧ bit e.data 15 = true ∧ x.cancels e.count = true) ∧
    (∃ (s : State) (c : Nat) (st : Nat) (n : _), s.run = true ∧ c < 64 ∧ st < 8 ∧ (s.q n).place = .parent ∧ (s.q n).contRead = false) :=
  ⟨⟨(wS.modSt 1 2 (fun x => { x with gen := some { desc := markD + 2 ^ 15 + 2 + 6 * 2 ^ 56 + 8 * 2^64+ 2^16 * 4 * 2 ^ 224 + 0x8000 * 2 ^ 128, s := 7, ready := true, count := 1 }, next := 7, tail := 8, fetched := 8 })).modTile (fun t => { t with rrGen := 9 }) |>.modHnd 3 (fun h => { h with entry := 1 }), 1, 2, { desc := markD + 2 ^ 15 + 2 + 6 * 2 ^ 56 + 8 * 2^64+ 2^16 * 4 * 2 ^ 224 + 0x8000 * 2 ^ 128, s := 7, ready := true, count := 1 }, by dsimp only; decide +kernel⟩,
   ⟨wS.modSt 1 2 (fun x => { x with tail := 9, fetched := 2 }) |>.modTile (fun t => { t with rrFetch := 9 }), 1, 2, by dsimp only; decide +kernel⟩,
   ⟨wE (ff 7 markD), 1, 2, ff 7 markD, [], by dsimp only; decide +kernel⟩,
   ⟨wE (ff 7 markD (some 5)), 1, 2, ff 7 markD (some 5), [], 5, by dsimp only; decide +kernel⟩,
   ⟨(wE (ff 7 markD)).modSt 1 2 (fun x => { x with cancelTo := some 9 }), 1, 2, ff 7 markD, [], by dsimp only; decide +kernel⟩,
   ⟨wE (ff 7 (markD + 9)), 1, 2, ff 7 (markD + 9), [], by dsimp only; decide +kernel⟩,
   ⟨(wE (ff 7 markD)).coSet 1 1 0, 1, 2, ff 7 markD, [], by dsimp only; decide +kernel⟩,
   ⟨wE (ff 7 (markD + 2 ^ 15 + 1)), 1, 2, ff 7 (markD + 2 ^ 15 + 1), [], (wE (ff 7 (markD + 2 ^ 15 + 1))).genCheck 1 2 (markD + 2 ^ 15 + 1) |>.getD 0, by dsimp only; decide +kernel⟩,
   ⟨wE (ff 7 (markD + 2 ^ 15 + 1 + 2 ^ 56 + 4 * 2 ^ 224 + 0x8000 * 2 ^ 128)), 1, 2, ff 7 (markD + 2 ^ 15 + 1 + 2 ^ 56 + 4 * 2 ^ 224 + 0x8000 * 2 ^ 128), [], by dsimp only; decide +kernel⟩,
   ⟨(wE (ff 7 (markD + 2 ^ 15 + 2 + 6 * 2 ^ 56 + 8 * 2^64+ 2^16 * 4 * 2 ^ 224 + 0x8000 * 2 ^ 128))).modHnd 3 (fun h => { h with entry := 1 }), 1, 2, ff 7 (markD + 2 ^ 15 + 2 + 6 * 2 ^ 56 +8 * 2^64+ 2^16 * 4 * 2 ^ 224 + 0x8000 * 2 ^ 128), [], by dsimp only; decide +kernel⟩,
   ⟨(wE (ff 7 (markD + 2 ^ 15 + 2))).modSt 1 2 (fun x => { x with cancelTo := some 9 }), 1, 2, ff 7 (markD + 2 ^ 15 + 2), [], by dsimp only; decide +kernel⟩,
   ⟨wS.modQ 4 (fun _ => { place := .parent, qr := { kind := 1, ctx := 1, stream := 2 } }), 1, 2, 4, by decide +kernel⟩⟩

theorem wit_QueriesOut :
    (∃ (s : State) (i : Nat) (k : Nat) (b : Nat) (bin : Bin) (n : _), s.run = true ∧ s.ncOn = true ∧ i < 131072 ∧ (s.binOf i).entries ≠ [] ∧ s.cl0First = false ∧ s.tile.bins = [(i, bin)] ∧ (bin.cls = 1 ∨ bin.cls = 2 ∨ bin.cls = 3) ∧ bin.entries ≠ [] ∧ (∀ j, j ∈ bin.entries → s.releasable j = true ∧ s.need j = .any) ∧ bin.lastBob = some b ∧ bin.waitBob = none ∧ bin.entries.length ≤ s.o 0x2400 4 ∧ bin.entries.length ≤ s.freeEnts b ∧ b < 48 ∧ s.mayTake b = true ∧ (s.bobOf b).clock = 0 ∧ bin.entries = [k] ∧ s.releasable k = true ∧ s.need k = .any ∧ (s.q k).qr.cls = bin.cls ∧ 1 ≤ s.o 0x2400 4 ∧ 1 ≤ s.freeEnts b ∧ s.findEnt b false = some n ∧ s.occAtLeast (s.o 0x2400 0xB) = false ∧ s.tile.spilling = false ∧ s.tile.sinceInterval < 65536) ∧
    (∃ (s : State) (k : Nat) (b : Nat) (held : _) (n : _), s.run = true ∧ s.ncOn = true ∧ s.tile.bins = [] ∧ s.cl0Head = some k ∧ s.need k = .any ∧ s.cl0Target .any = some (b, held) ∧ s.findEnt b held = some n) ∧
    (∃ (s : State) (i : Nat) (k : Nat) (bin : Bin), let c := (s.q k).qr.ctx; s.run = true ∧ s.ncOn = true ∧ s.tile.bins = [(i, bin)] ∧ i < 131072 ∧ 2 ≤ bin.chunks ∧ s.occAtLeast (s.o 0x2400 0xB) = true ∧ (∀ j, j ∈ bin.entries.take (bin.chunks / 2 * 128) → (s.q j).qr.ctx = c) ∧ s.spillRoom c = true) ∧
    (∃ (s : State) (k : Nat), let c := (s.q k).qr.ctx; s.run = true ∧ s.ncOn = true ∧ c < 64 ∧ (∀ d, d < 64 → d ≠ c → (s.ctxOf d).spill = []) ∧ (s.ctxOf c).spill.head? = some k ∧ (s.ctxOf c).reloading = false ∧ s.spillUrgent c = false ∧ s.occAtLeast (s.o 0x2400 0xD) = false) ∧
    (∃ (s : State), s.run = true ∧ s.ncOn = true ∧ 65536 ≤ s.tile.sinceInterval ∧ s.o 0x2400 1 ≠ 1 ∧ s.tile.latched = none ∧ s.tile.hits0 + s.tile.misses0 < s.ncTotals.1 + s.ncTotals.2 ∧ s.tile.hits0 ≤ s.ncTotals.1 ∧ s.tile.misses0 ≤ s.ncTotals.2) ∧
    (∃ (s : State) (h : _), s.run = true ∧ s.ncOn = true ∧ s.tile.latched = some h) :=
  ⟨⟨((wB 6).modQ 4 (fun _ => rayQ 1)).modTile (fun t => { t with bins := [(160, binOne 1 [4] (some 6))] }), 160, 4, 6, binOne 1 [4] (some 6), (((wB 6).modQ 4 (fun _ => rayQ 1)).modTile (fun t => { t with bins := [(160, binOne 1 [4] (some 6))] })).findEnt 6 false |>.getD 0, by decide +kernel⟩,
   ⟨((wB 6).modQ 4 (fun _ => rayQ 0)).modTile (fun t => { t with cl0 := [4] }), 4, 6, false, ((wB 6).modQ 4 (fun _ => rayQ 0)).findEnt 6 false |>.getD 0, by decide +kernel⟩,
   ⟨((((((wB 6).modQ 4 (fun _ => rayQ 1)).modTile (fun t => { t with bins := [(160, binOne 1 (List.replicate 256 4) (some 6))] })) |>.oSet 0x2400 0xB 0)).coSet 1 0xE 64).coSet 1 0xD 0x10000, 160, 4, binOne 1 (List.replicate 256 4) (some 6), by dsimp only; decide +kernel⟩,
   ⟨(((wB 6).modQ 4 (fun q => { rayQ 1 with place := .spilled, spillAt := 0 })).modCtx 1 (fun x => { x with spill := [4], spillTail := 1 })).coSet 1 0xE 64 |>.coSet 1 0xD 0x10000, 4, by dsimp only; decide +kernel⟩,
   ⟨((wS.modTile (fun t => { t with sinceInterval := 65540 })).oSet 0x4341 1 50).oSet 0x4342 2 25, by decide +kernel⟩,
   ⟨wS.modTile (fun t => { t with latched := some 40000 }), 40000, by decide +kernel⟩⟩

theorem wit_KeysHave24Bits :
    (∃ (s : State) (k : Nat) (scheme : Nat), (s.q k).qr.kind ≠ 0 ∧ (scheme = 0 ∨ scheme = 2 ∨ scheme = 4) ∧ (scheme = 0 ∨ scheme = 3 ∨ 4 < scheme) ∧ isRay (s.q k).qr.kind = true) ∧
    (∃ (s : State) (k : Nat), (s.q k).qr.kind = 0 ∧ isRay (s.q k).qr.kind = false) :=
  ⟨⟨wP.modQ 4 (fun _ => { place := .binned, qr := { kind := 1, ctx := 1, handle := 3, body := 0x80000000 * 256 ^ 0x10 + 0x80000000 * 256 ^ 0x18 } }), 4, 0, by decide +kernel⟩,
   ⟨wP.modQ 4 (fun _ => { place := .binned, qr := { kind := 0, ctx := 1, handle := 3, body := 0x80000000 * 256 ^ 0x10 + 0x80000000 * 256 ^ 0x18 } }), 4, by decide +kernel⟩⟩

theorem wit_NeedleOperations :
    (∃ (s : State) (s1 : State) (b : Nat) (n : Nat) (e : Nat) (v : Nat) (it : Item) (g : _), s.pick b n = (s1, some (e, v)) ∧ (s1.ent b e).item = some it ∧ leafType it.ty = true ∧ it.ty ≠ 8 ∧ it.ty ≠ 1 ∧ it.ty ≠ 2 ∧ b < 48 ∧ s.bobRuns b = true ∧ s.queueOf b 1 = [] ∧ s.queueOf b 2 = [] ∧ (∀ g, g < 4 → (s.engOf b g).ent = none) ∧ s.tile.imgStep = 0 ∧ g < 4 ∧ s.engineOff b g = false ∧ (∀ i, i < g → s.engineOff b i = true) ∧ s.queueOf b 3 = []) ∧
    (∃ (s : State) (s1 : State) (b : Nat) (n : Nat) (e : Nat) (v : Nat) (it : Item), s.pick b n = (s1, some (e, v)) ∧ (s1.ent b e).item = some it ∧ it.ty = 1 ∧ boxOk (s1.hndOf (s1.ent b e).qr.handle) v = false) ∧
    (∃ (s : State) (s1 : State) (b : Nat) (n : Nat) (e : Nat) (v : Nat) (it : Item), s.pick b n = (s1, some (e, v)) ∧ (s1.ent b e).item = some it ∧ it.ty = 2) ∧
    (∃ (s : State) (s1 : State) (b : Nat) (n : Nat) (e : Nat) (v : Nat) (it : Item), s.pick b n = (s1, some (e, v)) ∧ (s1.ent b e).item = some it ∧ it.ty = 9) ∧
    (∃ (s : State) (s1 : State) (b : Nat) (n : Nat), s.pick b n = (s1, none)) ∧
    (∃ (s : State) (b : Nat) (e : Nat), let next := fun (unit : Nat) => (s.queueOf b unit).find? (fun e => !s.stillWaits b (s.ent b e)); b < 48 ∧ s.bobRuns b = true ∧ next 1 = some e) ∧
    (∃ (s : State) (b : Nat) (e : Nat), let next := fun (unit : Nat) => (s.queueOf b unit).find? (fun e => !s.stillWaits b (s.ent b e)); b < 48 ∧ s.bobRuns b = true ∧ next 2 = some e ∧ s.arrayOk b = true) ∧
    (∃ (s : State) (b : Nat) (e : Nat) (g : _) (rest : _), b < 48 ∧ s.bobRuns b = true ∧ (∀ g, g < 4 → (s.engOf b g).ent = none) ∧ s.tile.imgStep = 0 ∧ g < 4 ∧ s.engineOff b g = false ∧ (∀ i, i < g → s.engineOff b i = true) ∧ s.queueOf b 3 = e :: rest) :=
  ⟨⟨wN 3 0, wNs 3 0, 6, 0, 5, wNv 3 0, { ty := 3, addr := 0x3000, level := 0 }, 0, by decide +kernel⟩,
   ⟨wN 1 0, wNs 1 0, 6, 0, 5, wNv 1 0, { ty := 1, addr := 0x3000, level := 0 }, by decide +kernel⟩,
   ⟨wN 2 0, wNs 2 0, 6, 0, 5, wNv 2 0, { ty := 2, addr := 0x3000, level := 0 }, by decide +kernel⟩,
   ⟨wN 9 0, wNs 9 0, 6, 0, 5, wNv 9 0, { ty := 9, addr := 0x3000, level := 0 }, by decide +kernel⟩,
   ⟨wB 6, ((wB 6).pick 6 0).1, 6, 0, by decide +kernel⟩,
   ⟨withOp 1 (wN 3 0), 6, 5, by dsimp only; decide +kernel⟩,
   ⟨withOp 2 (wN 8 0), 6, 5, by dsimp only; decide +kernel⟩,
   ⟨withOp 3 (wN 7 0), 6, 5, 0, [], by decide +kernel⟩⟩

theorem wit_EntriesAndBanks :
    (∃ (s : State) (b : Nat) (e : Nat) (k : Nat), let x := s.ent b e; let q := s.q k; b < 48 ∧ e < 8192 ∧ s.run = true ∧ s.ncOn = true ∧ s.bobRuns b = true ∧ x.slot = some k ∧ x.op = none ∧ q.kill = none ∧ x.phase ≠ 3 ∧ x.phase ≠ 4 ∧ (x.wantsArray = false ∨ s.arrayOk b = true) ∧ s.releaseFits b e = true ∧ s.budgetDue x = false ∧ x.parkAsked = false ∧ (s.bobOf b).drain = true) ∧
    (∃ (s : State) (b : Nat) (e : Nat) (k : Nat), let x := s.ent b e; let q := s.q k; b < 48 ∧ e < 8192 ∧ s.run = true ∧ s.ncOn = true ∧ s.bobRuns b = true ∧ x.slot = some k ∧ x.op = none ∧ q.kill = none ∧ x.phase ≠ 3 ∧ x.phase ≠ 4 ∧ (x.wantsArray = false ∨ s.arrayOk b = true) ∧ (s.bobOf b).drain = true ∧ s.releaseFits b e = false) ∧
    (∃ (s : State) (b : Nat) (e : Nat) (k : Nat), let x := s.ent b e; let q := s.q k; b < 48 ∧ e < 8192 ∧ s.run = true ∧ s.ncOn = true ∧ s.bobRuns b = true ∧ x.slot = some k ∧ x.op = none ∧ q.kill = none ∧ x.phase = 1 ∧ ((s.needleList b (e / 512)).filter (fun y => y.2.phase == 1)).head?.map (fun y => y.1) = some e ∧ s.inService b = true ∧ s.finUse b (e / 512) + x.qr.finK ≤ 256 ∧ (s.ctxOf x.qr.ctx).aborting = false) ∧
    (∃ (s : State) (b : Nat) (e : Nat) (k : Nat), let x := s.ent b e; let q := s.q k; b < 48 ∧ e < 8192 ∧ s.run = true ∧ s.ncOn = true ∧ s.bobRuns b = true ∧ x.slot = some k ∧ x.op = none ∧ q.kill = none ∧ x.phase ≠ 3 ∧ x.phase ≠ 4 ∧ (x.wantsArray = false ∨ s.arrayOk b = true) ∧ s.releaseFits b e = true ∧ s.budgetDue x = false ∧ x.parkAsked = true) ∧
    (∃ (s : State) (b : Nat) (e : Nat) (k : Nat), let x := s.ent b e; let q := s.q k; let s2 := ((s.modQ k (fun q => { q with qr := x.qr, remoteHit := if x.best.isSome && !x.remoteForm then {} else q.remoteHit })).releaseOut k x.pend x.samples).leave b e; b < 48 ∧ e < 8192 ∧ s.run = true ∧ s.ncOn = true ∧ s.bobRuns b = true ∧ x.slot = some k ∧ x.op = none ∧ x.phase = 3 ∧ s.releaseFits b e = true ∧ x.status = none ∧ (s2.q k).served = none) ∧
    (∃ (s : State) (b : Nat) (e : Nat) (k : Nat) (y : _), let x := s.ent b e; b < 48 ∧ e < 8192 ∧ s.run = true ∧ s.ncOn = true ∧ s.bobRuns b = true ∧ x.slot = some k ∧ x.op = none ∧ x.phase = 3 ∧ s.releaseFits b e = true ∧ x.status = some y) ∧
    (∃ (s : State) (b : Nat) (e : Nat) (k : Nat), let x := s.ent b e; b < 48 ∧ e < 8192 ∧ s.run = true ∧ s.ncOn = true ∧ s.bobRuns b = true ∧ x.slot = some k ∧ x.op = none ∧ x.phase = 3 ∧ s.releaseFits b e = false) ∧
    (∃ (s : State) (b : Nat) (e : Nat) (k : Nat) (sv : _), let x := s.ent b e; let q := s.q k; let s2 := ((s.modQ k (fun q => { q with qr := x.qr, remoteHit := if x.best.isSome && !x.remoteForm then {} else q.remoteHit })).releaseOut k x.pend x.samples).leave b e; b < 48 ∧ e < 8192 ∧ s.run = true ∧ s.ncOn = true ∧ s.bobRuns b = true ∧ x.slot = some k ∧ x.op = none ∧ x.phase = 3 ∧ s.releaseFits b e = true ∧ x.status = none ∧ (s2.q k).served = some sv) ∧
    (∃ (s : State) (b : Nat) (e : Nat) (w : WSlot) (s1 : _) (s2 : _) (hd : _) (v : _), b < 48 ∧ e < 8192 ∧ s.run = true ∧ s.ncOn = true ∧ s.bobRuns b = true ∧ (s.bobOf b).wslots = [w] ∧ w.ready = false ∧ s.ncRead b w.ctx w.strm w.hnd w.addr 2 [] w.held = (.bytes hd, s1) ∧ netOk hd = true ∧ s1.ncRead b w.ctx w.strm w.hnd w.addr (nSize hd) [] w.held = (.bytes v, s2) ∧ (s2.bobOf b).wslots = [w]) ∧
    (∃ (s : State) (b : Nat) (e : Nat) (w : WSlot) (s1 : _), b < 48 ∧ e < 8192 ∧ s.run = true ∧ s.ncOn = true ∧ s.bobRuns b = true ∧ (s.bobOf b).wslots = [w] ∧ w.ready = false ∧ s.ncRead b w.ctx w.strm w.hnd w.addr 2 [] w.held = (.wait, s1) ∧ (s1.bobOf b).wslots = [w]) ∧
    (∃ (s : State) (b : Nat) (e : Nat), let x := s.ent b e; b < 48 ∧ e < 8192 ∧ s.run = true ∧ s.ncOn = true ∧ s.bobRuns b = true ∧ s.occupants b = [(e, x)] ∧ x.op = none ∧ x.pqWait = true ∧ (s.bobOf b).pqBanks = 1 ∧ (s.bobOf b).pendBanks = 0) ∧
    (∃ (s : State) (b : Nat) (e : Nat) (bank : Nat), b < 48 ∧ e < 8192 ∧ s.run = true ∧ s.ncOn = true ∧ s.bobRuns b = true ∧ bank < 2 ∧ bit (s.bobOf b).pendBanks bank = true ∧ bit (s.bobOf b).pqBanks bank = true ∧ s.pqUse b bank = 0 ∧ (s.bobOf b).pqBanks < 4 ∧ (s.bobOf b).pendBanks < 4) :=
  ⟨⟨((wN 2 0).modEnt 6 5 (fun x => { x with parkAsked := false })).modBob 6 (fun v => { v with drain := true }), 6, 5, 4, by dsimp only; decide +kernel⟩,
   ⟨((wN 2 0).modEnt 6 5 (fun x => { x with pend := [.hit 5] })) |>.modBob 6 (fun v => { v with drain := true }) |>.oSet 0x2410 2 0, 6, 5, 4, by dsimp only; decide +kernel⟩,
   ⟨(wN 2 0).modEnt 6 5 (fun x => { x with phase := 1 }), 6, 5, 4, by dsimp only; decide +kernel⟩,
   ⟨((wN 2 0).modEnt 6 5 (fun x => { x with parkAsked := true })), 6, 5, 4, by dsimp only; decide +kernel⟩,
   ⟨((wN 2 0).modEnt 6 5 (fun x => { x with phase := 3 })), 6, 5, 4, by dsimp only; decide +kernel⟩,
   ⟨((wN 2 0).modEnt 6 5 (fun x => { x with phase := 3, status := some 5 })), 6, 5, 4, 5, by dsimp only; decide +kernel⟩,
   ⟨((wN 2 0).modEnt 6 5 (fun x => { x with phase := 3, pend := [.hit 5] })) |>.oSet 0x2410 2 0, 6, 5, 4, by dsimp only; decide +kernel⟩,
   ⟨((wN 2 0).modEnt 6 5 (fun x => { x with phase := 3 })).modQ 4 (fun q => { q with served := some {} }), 6, 5, 4, {}, by dsimp only; decide +kernel⟩,
   ⟨wNet, 6, 5, { bank := 0, port := 0, pa := 0x3000, ctx := 1, strm := 2, hnd := 3, addr := 0x3000 }, (wNet.ncRead 6 1 2 3 0x3000 2 [] []).2, ((wNet.ncRead 6 1 2 3 0x3000 2 [] []).2.ncRead 6 1 2 3 0x3000 5 [] []).2, netHd, netHd, by decide +kernel⟩,
   ⟨(wB 6).modBob 6 (fun v => { v with wslots := [{ bank := 0, port := 0, pa := 0x3000, ctx := 1, strm := 2, hnd := 3, addr := 0x3000 }] }), 6, 5, { bank := 0, port := 0, pa := 0x3000, ctx := 1, strm := 2, hnd := 3, addr := 0x3000 }, (((wB 6).modBob 6 (fun v => { v with wslots := [{ bank := 0, port := 0, pa := 0x3000, ctx := 1, strm := 2, hnd := 3, addr := 0x3000 }] })).ncRead 6 1 2 3 0x3000 2 [] []).2, by decide +kernel⟩,
   ⟨((wN 2 0).modEnt 6 5 (fun x => { x with pqWait := true })) |>.modBob 6 (fun v => { v with pqBanks := 1 }), 6, 5, by dsimp only; decide +kernel⟩,
   ⟨(wN 2 0) |>.modBob 6 (fun v => { v with pqBanks := 3, pendBanks := 1, wslots := [{ bank := 0, port := 0, pa := 0x3000, ctx := 1, strm := 2, hnd := 3, addr := 0x3000 }] }), 6, 5, 0, by decide +kernel⟩⟩

theorem wit_OperandAddressing :
    (∃ (cst : Nat → Nat) (en : Engine) (en1 : Engine) (fm : Form) (w : Nat) (v : Word), en.fetch cst fm w = .ok v en1 ∧ iMode w = 0) ∧
    (∃ (cst : Nat → Nat) (en : Engine) (en1 : Engine) (fm : Form) (w : Nat) (v : Word), en.fetch cst fm w = .ok v en1 ∧ iMode w ≠ 0) :=
  ⟨⟨fun _ => 0, e0, e0, .int, 0x02000005, 5, by decide +kernel⟩,
   ⟨fun _ => 0, e0, e0, .int, 0x02208000, 0, by decide +kernel⟩⟩

theorem wit_BasteRegisters :
    (∃ (s : State) (b : Nat) (g : Nat) (w : Nat) (v : Word) (en : Engine), s.takes b g w 0x02 .int v en) ∧
    (∃ (s : State) (b : Nat) (g : Nat) (w : Nat) (v : Word) (en : Engine), s.takes b g w 0x05 .half v en) ∧
    (∃ (s : State) (b : Nat) (g : Nat) (w : Nat) (v : Word) (en : Engine), s.takes b g w 0x07 .half v en) ∧
    (∃ (s : State) (b : Nat) (g : Nat) (w : Nat) (v : Word) (en : Engine), s.takes b g w 0x09 .half v en) ∧
    (∃ (s : State) (b : Nat) (g : Nat) (w : Nat), s.executes b g w 0x04 ∧ iMode w = 0 ∧ iSc w = 0) ∧
    (∃ (s : State) (b : Nat) (g : Nat) (w : Nat), s.plain b g w 0x01) ∧
    (∃ (s : State) (b : Nat) (g : Nat) (w : Nat), s.plain b g w 0x0B) ∧
    (∃ (s : State) (b : Nat) (g : Nat) (w : Nat), s.plain b g w 0x0C) ∧
    (∃ (s : State) (b : Nat) (g : Nat) (w : Nat), s.plain b g w 0x0D) ∧
    (∃ (s : State) (b : Nat) (g : Nat) (w : Nat), s.plain b g w 0x0E) ∧
    (∃ (s : State) (b : Nat) (g : Nat) (w : Nat), s.plain b g w 0x0F) ∧
    (∃ (s : State) (b : Nat) (g : Nat) (w : Nat), s.plain b g w 0x10) ∧
    (∃ (s : State) (b : Nat) (g : Nat) (w : Nat) (v : Word) (en : Engine), s.takes b g w 0x11 .half v en) ∧
    (∃ (s : State) (b : Nat) (g : Nat) (w : Nat) (v : Word) (en : Engine), s.takes b g w 0x12 .half v en) ∧
    (∃ (s : State) (b : Nat) (g : Nat) (w : Nat) (v : Word) (en : Engine), s.takes b g w 0x13 .half v en) :=
  ⟨⟨bS 0x02000005, 3, 2, 0x02000005, immOf .int 0x02000005, e0, by dsimp only [State.takes, State.executes]; decide +kernel⟩,
   ⟨bS 0x05000005, 3, 2, 0x05000005, immOf .half 0x05000005, e0, by dsimp only [State.takes, State.executes]; decide +kernel⟩,
   ⟨bS 0x07000005, 3, 2, 0x07000005, immOf .half 0x07000005, e0, by dsimp only [State.takes, State.executes]; decide +kernel⟩,
   ⟨bS 0x09000005, 3, 2, 0x09000005, immOf .half 0x09000005, e0, by dsimp only [State.takes, State.executes]; decide +kernel⟩,
   ⟨bS 0x04000005, 3, 2, 0x04000005, by dsimp only [State.executes]; decide +kernel⟩,
   ⟨bS 0x01000000, 3, 2, 0x01000000, by dsimp only [State.plain, State.executes]; decide +kernel⟩,
   ⟨bS 0x0B000000, 3, 2, 0x0B000000, by dsimp only [State.plain, State.executes]; decide +kernel⟩,
   ⟨bS 0x0C000000, 3, 2, 0x0C000000, by dsimp only [State.plain, State.executes]; decide +kernel⟩,
   ⟨bS 0x0D000000, 3, 2, 0x0D000000, by dsimp only [State.plain, State.executes]; decide +kernel⟩,
   ⟨bS 0x0E000000, 3, 2, 0x0E000000, by dsimp only [State.plain, State.executes]; decide +kernel⟩,
   ⟨bS 0x0F000000, 3, 2, 0x0F000000, by dsimp only [State.plain, State.executes]; decide +kernel⟩,
   ⟨bS 0x10000000, 3, 2, 0x10000000, by dsimp only [State.plain, State.executes]; decide +kernel⟩,
   ⟨bS 0x11000005, 3, 2, 0x11000005, immOf .half 0x11000005, e0, by dsimp only [State.takes, State.executes]; decide +kernel⟩,
   ⟨bS 0x12000005, 3, 2, 0x12000005, immOf .half 0x12000005, e0, by dsimp only [State.takes, State.executes]; decide +kernel⟩,
   ⟨bS 0x13000005, 3, 2, 0x13000005, immOf .half 0x13000005, e0, by dsimp only [State.takes, State.executes]; decide +kernel⟩⟩

theorem wit_BasteStores :
    (∃ (s : State) (b : Nat) (g : Nat) (w : Nat) (a : Nat) (n : Nat) (x : _), accessTrap ((s.engOf b g).ea w) (accSize w) true = none ∧ s.executes b g w 0x03 ∧ formOk .store w = true ∧ (n = 1 ∨ n = 2 ∨ n = 4) ∧ accessTrap a n true = none ∧ 0x8000 ≤ a ∧ a < 0xE000 ∧ x < 0xF200 ∧ (x < a ∨ a + n ≤ x)) ∧
    (∃ (s : State) (b : Nat) (g : Nat) (w : Nat), accessTrap ((s.engOf b g).ea w) (accSize w) true = none ∧ formOk .storeH w = true ∧ s.executes b g w 0x06) ∧
    (∃ (s : State) (b : Nat) (g : Nat) (w : Nat), accessTrap ((s.engOf b g).ea w) (accSize w) true = none ∧ formOk .storeH w = true ∧ s.executes b g w 0x08) ∧
    (∃ (s : State) (b : Nat) (g : Nat) (w : Nat), accessTrap ((s.engOf b g).ea w) (accSize w) true = none ∧ formOk .storeH w = true ∧ s.executes b g w 0x0A) :=
  ⟨⟨bS 0x03208000, 3, 2, 0x03208000, 0x8000, 4, 0x8004, by dsimp only [State.executes]; decide +kernel⟩,
   ⟨bS 0x06218000, 3, 2, 0x06218000, by dsimp only [State.executes]; decide +kernel⟩,
   ⟨bS 0x08218000, 3, 2, 0x08218000, by dsimp only [State.executes]; decide +kernel⟩,
   ⟨bS 0x0A218000, 3, 2, 0x0A218000, by dsimp only [State.executes]; decide +kernel⟩⟩

theorem wit_BasteIntegers :
    (∃ (s : State) (b : Nat) (g : Nat) (w : Nat) (v : Word) (en : Engine), s.takes b g w 0x20 .int v en) ∧
    (∃ (s : State) (b : Nat) (g : Nat) (w : Nat) (v : Word) (en : Engine), s.takes b g w 0x21 .int v en) ∧
    (∃ (s : State) (b : Nat) (g : Nat) (w : Nat) (v : Word) (en : Engine), s.takes b g w 0x22 .int v en) ∧
    (∃ (s : State) (b : Nat) (g : Nat) (w : Nat) (v : Word) (en : Engine), s.takes b g w 0x23 .int v en) ∧
    (∃ (s : State) (b : Nat) (g : Nat) (w : Nat) (v : Word) (en : Engine), s.takes b g w 0x24 .int v en) ∧
    (∃ (s : State) (b : Nat) (g : Nat) (w : Nat) (v : Word) (en : Engine), s.takes b g w 0x25 .int v en) ∧
    (∃ (s : State) (b : Nat) (g : Nat) (w : Nat) (v : Word) (en : Engine), s.takes b g w 0x26 .int v en) ∧
    (∃ (s : State) (b : Nat) (g : Nat) (w : Nat) (v : Word) (en : Engine), s.takes b g w 0x27 .int v en) ∧
    (∃ (s : State) (b : Nat) (g : Nat) (w : Nat) (v : Word) (en : Engine), s.takes b g w 0x35 .int v en) ∧
    (∃ (s : State) (b : Nat) (g : Nat) (w : Nat) (v : Word) (en : Engine), s.takes b g w 0x36 .int v en) ∧
    (∃ (s : State) (b : Nat) (g : Nat) (w : Nat), s.plain b g w 0x38) :=
  ⟨⟨bS 0x20000005, 3, 2, 0x20000005, immOf .int 0x20000005, e0, by dsimp only [State.takes, State.executes]; decide +kernel⟩,
   ⟨bS 0x21000005, 3, 2, 0x21000005, immOf .int 0x21000005, e0, by dsimp only [State.takes, State.executes]; decide +kernel⟩,
   ⟨bS 0x22000005, 3, 2, 0x22000005, immOf .int 0x22000005, e0, by dsimp only [State.takes, State.executes]; decide +kernel⟩,
   ⟨bS 0x23000005, 3, 2, 0x23000005, immOf .int 0x23000005, e0, by dsimp only [State.takes, State.executes]; decide +kernel⟩,
   ⟨bS 0x24000005, 3, 2, 0x24000005, immOf .int 0x24000005, e0, by dsimp only [State.takes, State.executes]; decide +kernel⟩,
   ⟨bS 0x25000005, 3, 2, 0x25000005, immOf .int 0x25000005, e0, by dsimp only [State.takes, State.executes]; decide +kernel⟩,
   ⟨bS 0x26000005, 3, 2, 0x26000005, immOf .int 0x26000005, e0, by dsimp only [State.takes, State.executes]; decide +kernel⟩,
   ⟨bS 0x27000005, 3, 2, 0x27000005, immOf .int 0x27000005, e0, by dsimp only [State.takes, State.executes]; decide +kernel⟩,
   ⟨bS 0x35000005, 3, 2, 0x35000005, immOf .int 0x35000005, e0, by dsimp only [State.takes, State.executes]; decide +kernel⟩,
   ⟨bS 0x36000005, 3, 2, 0x36000005, immOf .int 0x36000005, e0, by dsimp only [State.takes, State.executes]; decide +kernel⟩,
   ⟨bS 0x38000000, 3, 2, 0x38000000, by dsimp only [State.plain, State.executes]; decide +kernel⟩⟩

theorem wit_BasteProducts :
    (∃ (s : State) (b : Nat) (g : Nat) (w : Nat) (v : Word) (en : Engine), s.takes b g w 0x28 .int v en) ∧
    (∃ (s : State) (b : Nat) (g : Nat) (w : Nat) (v : Word) (en : Engine), s.takes b g w 0x29 .int v en) ∧
    (∃ (s : State) (b : Nat) (g : Nat) (w : Nat) (v : Word) (en : Engine), s.takes b g w 0x2A .int v en) ∧
    (∃ (s : State) (b : Nat) (g : Nat) (w : Nat), s.plain b g w 0x2F) ∧
    (∃ (s : State) (b : Nat) (g : Nat) (w : Nat), s.plain b g w 0x37) ∧
    (∃ (s : State) (b : Nat) (g : Nat) (w : Nat) (v : Word) (en : Engine), s.takes b g w 0x2B .int v en ∧ v ≠ 0) ∧
    (∃ (s : State) (b : Nat) (g : Nat) (w : Nat) (v : Word) (en : Engine), s.takes b g w 0x2B .int v en ∧ v = 0) ∧
    (∃ (s : State) (b : Nat) (g : Nat) (w : Nat) (v : Word) (en : Engine), s.takes b g w 0x2C .int v en ∧ v ≠ 0) ∧
    (∃ (s : State) (b : Nat) (g : Nat) (w : Nat) (v : Word) (en : Engine), s.takes b g w 0x2C .int v en ∧ v = 0) ∧
    (∃ (s : State) (b : Nat) (g : Nat) (w : Nat) (v : Word) (en : Engine), s.takes b g w 0x2D .int v en ∧ v ≠ 0) ∧
    (∃ (s : State) (b : Nat) (g : Nat) (w : Nat) (v : Word) (en : Engine), s.takes b g w 0x2D .int v en ∧ v = 0) ∧
    (∃ (s : State) (b : Nat) (g : Nat) (w : Nat) (v : Word) (en : Engine), s.takes b g w 0x2E .int v en ∧ v ≠ 0) ∧
    (∃ (s : State) (b : Nat) (g : Nat) (w : Nat) (v : Word) (en : Engine), s.takes b g w 0x2E .int v en ∧ v = 0) ∧
    (∃ (s : State) (b : Nat) (g : Nat) (w : Nat) (v : Word) (en : Engine), s.takes b g w 0x43 .fp v en ∧ binary32.isZero (flush en.subn v.toNat) = true) :=
  ⟨⟨bS 0x28000005, 3, 2, 0x28000005, immOf .int 0x28000005, e0, by dsimp only [State.takes, State.executes]; decide +kernel⟩,
   ⟨bS 0x29000005, 3, 2, 0x29000005, immOf .int 0x29000005, e0, by dsimp only [State.takes, State.executes]; decide +kernel⟩,
   ⟨bS 0x2A000005, 3, 2, 0x2A000005, immOf .int 0x2A000005, e0, by dsimp only [State.takes, State.executes]; decide +kernel⟩,
   ⟨bS 0x2F000000, 3, 2, 0x2F000000, by dsimp only [State.plain, State.executes]; decide +kernel⟩,
   ⟨bS 0x37000000, 3, 2, 0x37000000, by dsimp only [State.plain, State.executes]; decide +kernel⟩,
   ⟨bS 0x2B00FFFF, 3, 2, 0x2B00FFFF, immOf .int 0x2B00FFFF, e0, by dsimp only [State.takes, State.executes]; decide +kernel⟩,
   ⟨bS 0x2B000000, 3, 2, 0x2B000000, immOf .int 0x2B000000, e0, by dsimp only [State.takes, State.executes]; decide +kernel⟩,
   ⟨bS 0x2C00FFFF, 3, 2, 0x2C00FFFF, immOf .int 0x2C00FFFF, e0, by dsimp only [State.takes, State.executes]; decide +kernel⟩,
   ⟨bS 0x2C000000, 3, 2, 0x2C000000, immOf .int 0x2C000000, e0, by dsimp only [State.takes, State.executes]; decide +kernel⟩,
   ⟨bS 0x2D00FFFF, 3, 2, 0x2D00FFFF, immOf .int 0x2D00FFFF, e0, by dsimp only [State.takes, State.executes]; decide +kernel⟩,
   ⟨bS 0x2D000000, 3, 2, 0x2D000000, immOf .int 0x2D000000, e0, by dsimp only [State.takes, State.executes]; decide +kernel⟩,
   ⟨bS 0x2E00FFFF, 3, 2, 0x2E00FFFF, immOf .int 0x2E00FFFF, e0, by dsimp only [State.takes, State.executes]; decide +kernel⟩,
   ⟨bS 0x2E000000, 3, 2, 0x2E000000, immOf .int 0x2E000000, e0, by dsimp only [State.takes, State.executes]; decide +kernel⟩,
   ⟨bS 0x43000000, 3, 2, 0x43000000, immOf .fp 0x43000000, e0, by dsimp only [State.takes, State.executes]; decide +kernel⟩⟩

theorem wit_BasteShifts :
    (∃ (s : State) (b : Nat) (g : Nat) (w : Nat) (v : Word) (en : Engine), let n := v.toNat % 256; s.takes b g w 0x30 .shift v en ∧ n = 0) ∧
    (∃ (s : State) (b : Nat) (g : Nat) (w : Nat) (v : Word) (en : Engine), let n := v.toNat % 256; s.takes b g w 0x30 .shift v en ∧ 1 ≤ n ∧ n ≤ 31) ∧
    (∃ (s : State) (b : Nat) (g : Nat) (w : Nat) (v : Word) (en : Engine), let n := v.toNat % 256; s.takes b g w 0x30 .shift v en ∧ n = 32) ∧
    (∃ (s : State) (b : Nat) (g : Nat) (w : Nat) (v : Word) (en : Engine), let n := v.toNat % 256; s.takes b g w 0x30 .shift v en ∧ 33 ≤ n) ∧
    (∃ (s : State) (b : Nat) (g : Nat) (w : Nat) (v : Word) (en : Engine), let n := v.toNat % 256; s.takes b g w 0x31 .shift v en ∧ n = 0) ∧
    (∃ (s : State) (b : Nat) (g : Nat) (w : Nat) (v : Word) (en : Engine), let n := v.toNat % 256; s.takes b g w 0x31 .shift v en ∧ 1 ≤ n ∧ n ≤ 31) ∧
    (∃ (s : State) (b : Nat) (g : Nat) (w : Nat) (v : Word) (en : Engine), let n := v.toNat % 256; s.takes b g w 0x31 .shift v en ∧ n = 32) ∧
    (∃ (s : State) (b : Nat) (g : Nat) (w : Nat) (v : Word) (en : Engine), let n := v.toNat % 256; s.takes b g w 0x31 .shift v en ∧ 33 ≤ n) ∧
    (∃ (s : State) (b : Nat) (g : Nat) (w : Nat) (v : Word) (en : Engine), let n := v.toNat % 256; s.takes b g w 0x32 .shift v en ∧ n = 0) ∧
    (∃ (s : State) (b : Nat) (g : Nat) (w : Nat) (v : Word) (en : Engine), let n := v.toNat % 256; s.takes b g w 0x32 .shift v en ∧ 1 ≤ n ∧ n ≤ 31) ∧
    (∃ (s : State) (b : Nat) (g : Nat) (w : Nat) (v : Word) (en : Engine), let n := v.toNat % 256; s.takes b g w 0x32 .shift v en ∧ 32 ≤ n) ∧
    (∃ (s : State) (b : Nat) (g : Nat) (w : Nat) (v : Word) (en : Engine), let n := v.toNat % 256; s.takes b g w 0x33 .shift v en ∧ n % 32 = 0) ∧
    (∃ (s : State) (b : Nat) (g : Nat) (w : Nat) (v : Word) (en : Engine), let n := v.toNat % 256; s.takes b g w 0x33 .shift v en ∧ n % 32 ≠ 0) ∧
    (∃ (s : State) (b : Nat) (g : Nat) (w : Nat) (v : Word) (en : Engine), let n := v.toNat % 256; s.takes b g w 0x34 .shift v en ∧ n % 32 = 0) ∧
    (∃ (s : State) (b : Nat) (g : Nat) (w : Nat) (v : Word) (en : Engine), let n := v.toNat % 256; s.takes b g w 0x34 .shift v en ∧ n % 32 ≠ 0) :=
  ⟨⟨bS 0x30000000, 3, 2, 0x30000000, immOf .shift 0x30000000, e0, by dsimp only [State.takes, State.executes]; decide +kernel⟩,
   ⟨bS 0x30000001, 3, 2, 0x30000001, immOf .shift 0x30000001, e0, by dsimp only [State.takes, State.executes]; decide +kernel⟩,
   ⟨bS 0x30000020, 3, 2, 0x30000020, immOf .shift 0x30000020, e0, by dsimp only [State.takes, State.executes]; decide +kernel⟩,
   ⟨bS 0x30000021, 3, 2, 0x30000021, immOf .shift 0x30000021, e0, by dsimp only [State.takes, State.executes]; decide +kernel⟩,
   ⟨bS 0x31000000, 3, 2, 0x31000000, immOf .shift 0x31000000, e0, by dsimp only [State.takes, State.executes]; decide +kernel⟩,
   ⟨bS 0x31000001, 3, 2, 0x31000001, immOf .shift 0x31000001, e0, by dsimp only [State.takes, State.executes]; decide +kernel⟩,
   ⟨bS 0x31000020, 3, 2, 0x31000020, immOf .shift 0x31000020, e0, by dsimp only [State.takes, State.executes]; decide +kernel⟩,
   ⟨bS 0x31000021, 3, 2, 0x31000021, immOf .shift 0x31000021, e0, by dsimp only [State.takes, State.executes]; decide +kernel⟩,
   ⟨bS 0x32000000, 3, 2, 0x32000000, immOf .shift 0x32000000, e0, by dsimp only [State.takes, State.executes]; decide +kernel⟩,
   ⟨bS 0x32000001, 3, 2, 0x32000001, immOf .shift 0x32000001, e0, by dsimp only [State.takes, State.executes]; decide +kernel⟩,
   ⟨bS 0x32000020, 3, 2, 0x32000020, immOf .shift 0x32000020, e0, by dsimp only [State.takes, State.executes]; decide +kernel⟩,
   ⟨bS 0x33000020, 3, 2, 0x33000020, immOf .shift 0x33000020, e0, by dsimp only [State.takes, State.executes]; decide +kernel⟩,
   ⟨bS 0x330000FF, 3, 2, 0x330000FF, immOf .shift 0x330000FF, e0, by dsimp only [State.takes, State.executes]; decide +kernel⟩,
   ⟨bS 0x34000020, 3, 2, 0x34000020, immOf .shift 0x34000020, e0, by dsimp only [State.takes, State.executes]; decide +kernel⟩,
   ⟨bS 0x340000FF, 3, 2, 0x340000FF, immOf .shift 0x340000FF, e0, by dsimp only [State.takes, State.executes]; decide +kernel⟩⟩

theorem wit_BasteFloats :
    (∃ (s : State) (b : Nat) (g : Nat) (w : Nat) (v : Word) (en : Engine), s.takes b g w 0x40 .fp v en) ∧
    (∃ (f : Flags) (subn : Bool) (a : Word) (b : Word) (u : Alu), (u = fpArith f subn fAdd a b ∨ u = fpArith f subn fSub a b ∨ u = fpArith f subn fMul a b ∨ u = fpDiv f subn a b) ∧ fNan u.r.toNat = true ∧ (fNan a.toNat = true ∨ fNan b.toNat = true) ∧ f.fx = true) ∧
    (∃ (s : State) (b : Nat) (g : Nat) (w : Nat) (v : Word) (en : Engine), s.takes b g w 0x41 .fp v en) ∧
    (∃ (s : State) (b : Nat) (g : Nat) (w : Nat) (v : Word) (en : Engine), s.takes b g w 0x42 .fp v en) ∧
    (∃ (s : State) (b : Nat) (g : Nat) (w : Nat) (v : Word) (en : Engine), let n := en.subn; s.takes b g w 0x43 .fp v en ∧ (binary32.isZero (flush n v.toNat) = false ∨ en.trapDz = false)) ∧
    (∃ (s : State) (b : Nat) (g : Nat) (w : Nat) (v : Word) (en : Engine), s.takes b g w 0x44 .fp v en) ∧
    (∃ (s : State) (b : Nat) (g : Nat) (w : Nat) (v : Word) (en : Engine), s.takes b g w 0x45 .fp v en) ∧
    (∃ (s : State) (b : Nat) (g : Nat) (w : Nat) (v : Word) (en : Engine), s.takes b g w 0x46 .fp v en) ∧
    (∃ (s : State) (b : Nat) (g : Nat) (w : Nat) (v : Word) (en : Engine), s.takes b g w 0x47 .fp v en) ∧
    (∃ (s : State) (b : Nat) (g : Nat) (w : Nat), s.plain b g w 0x48) ∧
    (∃ (s : State) (b : Nat) (g : Nat) (w : Nat), s.plain b g w 0x49) ∧
    (∃ (s : State) (b : Nat) (g : Nat) (w : Nat), s.plain b g w 0x4A) ∧
    (∃ (s : State) (b : Nat) (g : Nat) (w : Nat), s.plain b g w 0x4B) ∧
    (∃ (f : Flags) (subn : Bool) (a : Word) (b : Word) (u : Alu), (u = fpArith f subn fAdd a b ∨ u = fpArith f subn fSub a b ∨ u = fpArith f subn fMul a b ∨ u = fpDiv f subn a b) ∧ fInf u.r.toNat = true ∧ fFin a.toNat = true ∧ fFin b.toNat = true) ∧
    (∃ (f : Flags) (subn : Bool) (a : Word) (b : Word) (u : Alu), (u = fpArith f subn fAdd a b ∨ u = fpArith f subn fSub a b ∨ u = fpArith f subn fMul a b ∨ u = fpDiv f subn a b) ∧ subn = false ∧ binary32.exp u.r.toNat = 0) :=
  ⟨⟨bS 0x40003F80, 3, 2, 0x40003F80, immOf .fp 0x40003F80, e0, by dsimp only [State.takes, State.executes]; decide +kernel⟩,
   ⟨{ fx := true }, false, 0x7FC00001, 3, fpArith { fx := true } false fAdd 0x7FC00001 3, by decide +kernel⟩,
   ⟨bS 0x41003F80, 3, 2, 0x41003F80, immOf .fp 0x41003F80, e0, by dsimp only [State.takes, State.executes]; decide +kernel⟩,
   ⟨bS 0x42003F80, 3, 2, 0x42003F80, immOf .fp 0x42003F80, e0, by dsimp only [State.takes, State.executes]; decide +kernel⟩,
   ⟨bS 0x43003F80, 3, 2, 0x43003F80, immOf .fp 0x43003F80, e0, by dsimp only [State.takes, State.executes]; decide +kernel⟩,
   ⟨bS 0x44003F80, 3, 2, 0x44003F80, immOf .fp 0x44003F80, e0, by dsimp only [State.takes, State.executes]; decide +kernel⟩,
   ⟨bS 0x45003F80, 3, 2, 0x45003F80, immOf .fp 0x45003F80, e0, by dsimp only [State.takes, State.executes]; decide +kernel⟩,
   ⟨bS 0x46003F80, 3, 2, 0x46003F80, immOf .fp 0x46003F80, e0, by dsimp only [State.takes, State.executes]; decide +kernel⟩,
   ⟨bS 0x47003F80, 3, 2, 0x47003F80, immOf .fp 0x47003F80, e0, by dsimp only [State.takes, State.executes]; decide +kernel⟩,
   ⟨bS 0x48000000, 3, 2, 0x48000000, by dsimp only [State.plain, State.executes]; decide +kernel⟩,
   ⟨bS 0x49000000, 3, 2, 0x49000000, by dsimp only [State.plain, State.executes]; decide +kernel⟩,
   ⟨bS 0x4A000000, 3, 2, 0x4A000000, by dsimp only [State.plain, State.executes]; decide +kernel⟩,
   ⟨bS 0x4B000000, 3, 2, 0x4B000000, by dsimp only [State.plain, State.executes]; decide +kernel⟩,
   ⟨{}, false, 0x3F800000, 3, fpDiv {} false 0x3F800000 3, by decide +kernel⟩,
   ⟨{}, false, 0, 3, fpArith {} false fAdd 0 3, by decide +kernel⟩⟩

theorem wit_BasteControl :
    (∃ (s : State) (b : Nat) (g : Nat) (w : Nat) (ct : BitVec 16) (sc : _), let e := s.engOf b g; e.rep = 0 ∧ s.executes b g w 0x60 ∧ (iMode w = 0 ∨ iMode w = 2) ∧ e.fl.cond e.ct (iSc w) = some false ∧ 20 ≤ sc) ∧
    (∃ (s : State) (b : Nat) (g : Nat) (w : Nat), let e := s.engOf b g; e.rep = 0 ∧ s.executes b g w 0x60 ∧ (iMode w = 0 ∨ iMode w = 2) ∧ e.fl.cond e.ct (iSc w) = some true ∧ e.target w < 0x1000) ∧
    (∃ (s : State) (b : Nat) (g : Nat) (w : Nat), let e := s.engOf b g; e.rep = 0 ∧ s.executes b g w 0x60 ∧ (iMode w = 0 ∨ iMode w = 2) ∧ e.fl.cond e.ct (iSc w) = none) ∧
    (∃ (s : State) (b : Nat) (g : Nat) (w : Nat), let e := s.engOf b g; e.rep = 0 ∧ s.executes b g w 0x61 ∧ (iMode w = 0 ∨ iMode w = 2) ∧ iSc w = 0 ∧ e.stack.length < 8 ∧ e.target w < 0x1000) ∧
    (∃ (s : State) (b : Nat) (g : Nat) (w : Nat) (r : _) (rest : _), let e := s.engOf b g; e.rep = 0 ∧ s.plain b g w 0x62 ∧ e.stack = r :: rest ∧ r.toNat < 0x1000) ∧
    (∃ (s : State) (b : Nat) (g : Nat) (w : Nat), let e := s.engOf b g; e.rep = 0 ∧ s.executes b g w 0x63 ∧ iMode w = 0 ∧ iSc w = 0 ∧ e.ct = 1) ∧
    (∃ (s : State) (b : Nat) (g : Nat) (w : Nat), let e := s.engOf b g; e.rep = 0 ∧ s.executes b g w 0x63 ∧ iMode w = 0 ∧ iSc w = 0 ∧ e.ct ≠ 1 ∧ iImm w < 0x1000) ∧
    (∃ (s : State) (b : Nat) (g : Nat) (w : Nat), let e := s.engOf b g; e.rep = 0 ∧ s.plain b g w 0x64 ∧ e.ct ≠ 0) ∧
    (∃ (s : State) (b : Nat) (g : Nat) (w : Nat), let e := s.engOf b g; e.rep = 0 ∧ s.plain b g w 0x64 ∧ e.ct = 0 ∧ e.pc + 2 < 0x1000) ∧
    (∃ (s : State) (b : Nat) (g : Nat) (w : Nat), let e := s.engOf b g; e.rep = 0 ∧ s.executes b g w 0x69 ∧ iMode w = 0 ∧ iSc w = 0 ∧ iImm w < 64) :=
  ⟨⟨bS 0x60010FFF, 3, 2, 0x60010FFF, 1, 20, by dsimp only [State.executes]; decide +kernel⟩,
   ⟨bS 0x60000FFF, 3, 2, 0x60000FFF, by dsimp only [State.executes]; decide +kernel⟩,
   ⟨bS 0x60140005, 3, 2, 0x60140005, by dsimp only [State.executes]; decide +kernel⟩,
   ⟨bS 0x61000FFF, 3, 2, 0x61000FFF, by dsimp only [State.executes]; decide +kernel⟩,
   ⟨bS 0x62000000 ({ e0 with stack := [0xFFF] }), 3, 2, 0x62000000, 0xFFF, [], by dsimp only [State.plain, State.executes]; decide +kernel⟩,
   ⟨bS 0x63000FFF ({ e0 with ct := 1 }), 3, 2, 0x63000FFF, by dsimp only [State.executes]; decide +kernel⟩,
   ⟨bS 0x63000FFF, 3, 2, 0x63000FFF, by dsimp only [State.executes]; decide +kernel⟩,
   ⟨bS 0x64000000, 3, 2, 0x64000000, by dsimp only [State.plain, State.executes]; decide +kernel⟩,
   ⟨bS 0x64000000 ({ e0 with ct := 0 }), 3, 2, 0x64000000, by dsimp only [State.plain, State.executes]; decide +kernel⟩,
   ⟨bS 0x6900003F, 3, 2, 0x6900003F, by dsimp only [State.executes]; decide +kernel⟩⟩

theorem wit_TrapEntry :
    (∃ (s : State) (b : Nat) (g : Nat) (w : _), let e := s.engOf b g; e.trapped = false ∧ s.codeAt 8 ≠ 0 ∧ e.ent.isSome ∧ s.bstWord b g = some w ∧ iOp w = 0x68 ∧ e.rep = 0 ∧ iMode w = 0 ∧ iSc w = 0 ∧ iImm w < 256) ∧
    (∃ (s : State) (b : Nat) (g : Nat) (w : _), let e := s.engOf b g; e.trapped = false ∧ s.codeAt 8 ≠ 0 ∧ e.ent.isSome ∧ s.bstWord b g = some w ∧ opKnown (iOp w) = false) ∧
    (∃ (s : State) (b : Nat) (g : Nat), let e := s.engOf b g; e.trapped = false ∧ s.codeAt 8 ≠ 0 ∧ e.ent.isSome ∧ b < 48 ∧ g < 4 ∧ s.bobRuns b = true ∧ e.kind ≠ 0 ∧ e.budget = 0) ∧
    (∃ (s : State) (b : Nat) (g : Nat) (w : Nat), let e := s.engOf b g; s.bstWord b g = some w ∧ iOp w = 0x67 ∧ w % 2 ^ 24 = 0 ∧ e.rep = 0 ∧ e.trapped = true ∧ e.tcause ≠ tcBudget ∧ e.tpc.toNat < 0x1000) :=
  ⟨⟨bS 0x680000FF, 3, 2, 0x680000FF, by dsimp only; decide +kernel⟩,
   ⟨bS 0x99000005, 3, 2, 0x99000005, by dsimp only; decide +kernel⟩,
   ⟨bS 0x99000005 ({ e0 with budget := 0 }), 3, 2, by dsimp only; decide +kernel⟩,
   ⟨bS 0x67000000 ({ e0 with trapped := true, tcause := 1, tpc := 0xFFF, trem := 2 }), 3, 2, 0x67000000, by dsimp only; decide +kernel⟩⟩

theorem wit_TrapBeforeActing :
    (∃ (s : State) (b : Nat) (g : Nat) (w : Nat) (c : _), let e := s.engOf b g; e.trapped = false ∧ s.codeAt 8 ≠ 0 ∧ e.ent.isSome ∧ e.rep = 0 ∧ s.bstWord b g = some w ∧ iOp w = 0x02 ∧ e.fetch s.cstAt .int w = .trap c) ∧
    (∃ (s : State) (b : Nat) (g : Nat) (w : Nat) (c : _), let e := s.engOf b g; e.trapped = false ∧ s.codeAt 8 ≠ 0 ∧ e.ent.isSome ∧ e.rep = 0 ∧ s.bstWord b g = some w ∧ iOp w = 0x40 ∧ e.fetch s.cstAt .fp w = .trap c) ∧
    (∃ (s : State) (b : Nat) (g : Nat) (w : Nat) (c : _), let e := s.engOf b g; e.trapped = false ∧ s.codeAt 8 ≠ 0 ∧ e.ent.isSome ∧ e.rep = 0 ∧ s.bstWord b g = some w ∧ iOp w = 0x03 ∧ e.put .store w e.a.toNat = .trap c) ∧
    (∃ (s : State) (b : Nat) (g : Nat) (w : Nat), let e := s.engOf b g; e.trapped = false ∧ s.codeAt 8 ≠ 0 ∧ e.ent.isSome ∧ e.rep = 0 ∧ s.bstWord b g = some w ∧ iOp w = 0x61 ∧ formOk .call w = true ∧ 8 ≤ e.stack.length) ∧
    (∃ (s : State) (b : Nat) (g : Nat) (w : Nat), let e := s.engOf b g; e.trapped = false ∧ s.codeAt 8 ≠ 0 ∧ e.ent.isSome ∧ e.rep = 0 ∧ s.bstWord b g = some w ∧ iOp w = 0x62 ∧ formOk .none w = true ∧ e.stack = []) ∧
    (∃ (s : State) (b : Nat) (g : Nat) (w : Nat), let e := s.engOf b g; e.trapped = false ∧ s.codeAt 8 ≠ 0 ∧ e.ent.isSome ∧ e.rep = 0 ∧ s.bstWord b g = some w ∧ iOp w = 0x67 ∧ formOk .none w = true) :=
  ⟨⟨bS 0x02228001, 3, 2, 0x02228001, tcMisalign, by dsimp only; decide +kernel⟩,
   ⟨bS 0x40228001, 3, 2, 0x40228001, tcMisalign, by dsimp only; decide +kernel⟩,
   ⟨bS 0x03228001, 3, 2, 0x03228001, tcMisalign, by dsimp only; decide +kernel⟩,
   ⟨bS 0x61000005 ({ e0 with stack := List.replicate 8 1 }), 3, 2, 0x61000005, by dsimp only; decide +kernel⟩,
   ⟨bS 0x62000000, 3, 2, 0x62000000, by dsimp only; decide +kernel⟩,
   ⟨bS 0x67000000, 3, 2, 0x67000000, by dsimp only; decide +kernel⟩⟩

theorem wit_InvocationEnds :
    (∃ (s : State) (b : Nat) (g : Nat) (w : Nat) (e : Nat) (h : Handoff), let en := s.engOf b g; s.bstWord b g = some w ∧ w % 2 ^ 24 = 0 ∧ en.rep = 0 ∧ en.ent = some e ∧ (s.ent b e).op = some h ∧ iOp w = 0x65 ∧ bytesAt en.candW 0xD 1 = 0 ∧ (en.kind = 1 ∨ en.kind = 3)) ∧
    (∃ (s : State) (b : Nat) (g : Nat) (w : Nat) (e : Nat) (h : Handoff), let en := s.engOf b g; s.bstWord b g = some w ∧ w % 2 ^ 24 = 0 ∧ en.rep = 0 ∧ en.ent = some e ∧ (s.ent b e).op = some h ∧ iOp w = 0x65 ∧ 2 ≤ bytesAt en.candW 0xD 1) ∧
    (∃ (s : State) (b : Nat) (g : Nat) (w : Nat) (e : Nat) (h : Handoff), let en := s.engOf b g; s.bstWord b g = some w ∧ w % 2 ^ 24 = 0 ∧ en.rep = 0 ∧ en.ent = some e ∧ (s.ent b e).op = some h ∧ iOp w = 0x66) :=
  ⟨⟨bT 0x65000000 ({ ent := some 5, kind := 1, pc := 16 }), 3, 2, 0x65000000, 5, { unit := 3, order := 2, engine := some 2 }, by dsimp only; decide +kernel⟩,
   ⟨bT 0x65000000 ({ ent := some 5, kind := 3, pc := 16, candW := 2 * 256 ^ 13 }), 3, 2, 0x65000000, 5, { unit := 3, order := 2, engine := some 2 }, by dsimp only; decide +kernel⟩,
   ⟨bT 0x66000000, 3, 2, 0x66000000, 5, { unit := 3, order := 2, engine := some 2 }, by dsimp only; decide +kernel⟩⟩

theorem wit_SelfChecks :
    (∃ (s : State) (b : Nat) (g : Nat) (w : Nat), let s1 := s.mismatch b 4 g true; let t := s1.actedSeq b g w (s.engOf b g); s.plain b g w 0x01 ∧ t.mismatched b 4 g = false ∧ b < 48) ∧
    (∃ (s : State) (b : Nat) (g : Nat) (w : Nat), let s1 := s.mismatch b 4 g true; let t := s1.actedSeq b g w (s.engOf b g); s.plain b g w 0x01 ∧ t.mismatched b 4 g = true) :=
  ⟨⟨bS 0x01000000, 3, 2, 0x01000000, by dsimp only [State.plain, State.executes]; decide +kernel⟩,
   ⟨(bS 0x01000000).mismatch 3 4 2 true |>.oSet 0x7000 4 1, 3, 2, 0x01000000, by dsimp only [State.plain, State.executes]; decide +kernel⟩⟩

theorem wit_Deliveries :
    (∃ (s : State) (c : Nat) (st : Nat), let x := s.st c st; s.run = true ∧ c < 64 ∧ st < 8 ∧ (s.ctxOf c).aborting = false ∧ s.rfault c st = false ∧ x.retry = [] ∧ s.ringItem c st = none ∧ s.destSlot c st = true ∧ s.redir c st = false ∧ x.open_ = none ∧ s.nextWhole c st ≠ none ∧ (x.fills - x.scred).toNat < 2 ^ s.slog c st ∧ s.grain c = false ∧ s.slotRingOk c st = true ∧ (bit (s.resCtrl c st) 1 = false ∨ x.prod = x.prodRep)) ∧
    (∃ (s : State) (c : Nat) (st : Nat) (i : HemItem) (r : Rec) (rest : List Rec), let x := s.st c st; s.run = true ∧ c < 64 ∧ st < 8 ∧ (s.ctxOf c).aborting = false ∧ s.rfault c st = false ∧ x.retry = [] ∧ s.ringItem c st = some i ∧ i.recs = r :: rest ∧ (s.q i.slot).skip = 0 ∧ (x.issued - x.rcons).toNat < 2 ^ s.rlog c st) ∧
    (∃ (s : State) (c : Nat) (st : Nat) (i : HemItem) (r : Rec) (rest : List Rec), let x := s.st c st; s.run = true ∧ c < 64 ∧ st < 8 ∧ (s.ctxOf c).aborting = false ∧ s.rfault c st = false ∧ x.retry = [] ∧ s.ringItem c st = some i ∧ i.recs = r :: rest ∧ (s.q i.slot).skip = 0 ∧ ¬(x.issued - x.rcons).toNat < 2 ^ s.rlog c st) ∧
    (∃ (s : State) (c : Nat) (st : Nat) (p : _) (ps : _) (y : _), let x := s.st c st; s.run = true ∧ c < 64 ∧ st < 8 ∧ (s.ctxOf c).aborting = false ∧ s.rfault c st = false ∧ x.retry = p :: ps ∧ x.ringOut.find? (fun z => z.1 == p) = some (p, y)) ∧
    (∃ (s : State) (c : Nat) (st : Nat), let x := s.st c st; s.run = true ∧ c < 64 ∧ st < 8 ∧ (s.ctxOf c).aborting = false ∧ x.fills = x.scred + BitVec.ofNat 32 (2 ^ s.slog c st) ∧ s.slog c st < 32) ∧
    (∃ (s : State) (c : Nat) (st : Nat) (f : Fill), let x := s.st c st; s.run = true ∧ c < 64 ∧ st < 8 ∧ (s.ctxOf c).aborting = false ∧ x.open_ = some f ∧ f.ready = true ∧ f.placed ≠ [] ∧ fld (s.slotCtrl c st) 24 8 ≠ 0) ∧
    (∃ (s : State) (c : Nat) (st : Nat), let x := s.st c st; s.run = true ∧ c < 64 ∧ st < 8 ∧ (s.ctxOf c).aborting = false ∧ bit (s.ringCtrl c st) 2 = true ∧ x.head ≠ x.headRep) ∧
    (∃ (s : State) (c : Nat) (st : Nat), let x := s.st c st; s.run = true ∧ c < 64 ∧ st < 8 ∧ (s.ctxOf c).aborting = false ∧ bit (s.resCtrl c st) 1 = true ∧ x.prod ≠ x.prodRep) :=
  ⟨⟨(((wDi [.trc 3]).coSet 1 0x12 1 3).coSet 1 0x15 (4 + 8 * 256) 3).coSet 1 0x14 0x10000 3, 1, 2, by dsimp only; decide +kernel⟩,
   ⟨wDi [.trc 3], 1, 2, hi [.trc 3], .trc 3, [], by dsimp only; decide +kernel⟩,
   ⟨(wDi [.trc 3]).modSt 1 2 (fun x => { x with issued := 16 }), 1, 2, hi [.trc 3], .trc 3, [], by dsimp only; decide +kernel⟩,
   ⟨wD.modSt 1 2 (fun x => { x with retry := [3], ringOut := [(3, hi [.trc 5])] }), 1, 2, 3, [], hi [.trc 5], by dsimp only; decide +kernel⟩,
   ⟨(((wDi [.trc 3]).coSet 1 0x12 1 3).coSet 1 0x15 (4 + 8 * 256) 3).modSt 1 2 (fun x => { x with fills := 16 }), 1, 2, by dsimp only; decide +kernel⟩,
   ⟨((wD.coSet 1 0x12 1 3).coSet 1 0x15 (4 + 8 * 256 + 2 ^ 24) 3).modSt 1 2 (fun x => { x with fills := 1, open_ := some fl1 }), 1, 2, fl1, by dsimp only; decide +kernel⟩,
   ⟨(wD.coSet 1 (0x19 + 10) (1 + 4 + 8 * 256)).modSt 1 2 (fun x => { x with head := 5 }), 1, 2, by dsimp only; decide +kernel⟩,
   ⟨(wD.coSet 1 0x12 (2 + 4 * 256) 3).modSt 1 2 (fun x => { x with prod := 5 }), 1, 2, by dsimp only; decide +kernel⟩⟩

theorem wit_ThreadEvents :
    (∃ (s : State) (t : Nat) (p : _) (rest : _), let now := s.bdkCycle 2 4; let later := s.bdkAfter 2; let s1 := (s.bdkCycle 1 32).modTile (fun t => { t with posts := rest }); s.run = true ∧ s.tile.posts = p :: rest ∧ s.bdkEn p.ctx = true ∧ s1.applyOp p = none ∧ now.chosen = none ∧ later.chosen = none ∧ s.offerable (s.thrOf t) = false ∧ (s.thrOf t).st ≠ .ready ∧ (s.thrOf t).st ≠ .dispatched ∨ (s.thrOf t).warned = true) ∧
    (∃ (s : State) (t : Nat), s.run = true ∧ s.tile.posts = [] ∧ s.offerable (s.thrOf t) = true ∧ s.affWaits (s.thrOf t) = true ∧ (s.thrOf t).st = .ready) ∧
    (∃ (s : State) (t : Nat) (e : Nat) (x : Thread) (affine : Bool), let now := s.bdkCycle 2 4; let later := s.bdkAfter 2; s.run = true ∧ (now.chosen = some (t, x, e, affine) ∨ now.chosen = none ∧ later.chosen = some (t, x, e, affine))) ∧
    (∃ (s : State) (p : _) (rest : _), s.run = true ∧ s.tile.posts = p :: rest ∧ s.bdkEn p.ctx = false) ∧
    (∃ (s : State) (t : Nat) (p : _) (rest : _) (s2 : _), let s1 := (s.bdkCycle 1 32).modTile (fun t => { t with posts := rest }); s.run = true ∧ s.tile.posts = p :: rest ∧ s.bdkEn p.ctx = true ∧ s1.applyOp p = some s2) ∧
    (∃ (s : State) (t : Nat), s.run = true ∧ (s.thrOf t).st = .dispatched ∧ s.o 0x2420 3 ≠ 0 ∧ (s.thrOf t).warned = false) :=
  ⟨⟨((wS.coSet 1 0x17 1 1).coSet 1 0x17 0 7).modTile (fun t => { t with posts := [{ key := 5, status := 0, ctx := 1 }] }), 7, { key := 5, status := 0, ctx := 1 }, [], by dsimp only; decide +kernel⟩,
   ⟨(((wEp.coSet 1 0x17 1 1).modThr 7 (fun x => { x with lastEp := some 5 })).oSet 0x2420 2 5).oSet 0x2C05 1 (1 + 2 * 256 + 3 * 65536 + 4 * 2 ^ 24) |>.modEp 5 (fun x => {x with disp := 16}), 7, by decide +kernel⟩,
   ⟨wEp, 7, 5, wEp.thrOf 7, false, by dsimp only; decide +kernel⟩,
   ⟨wS.modTile (fun t => { t with posts := [{ key := 5, status := 0, ctx := 1 }] }), { key := 5, status := 0, ctx := 1 }, [], by decide +kernel⟩,
   ⟨((wS.coSet 1 0x17 1 1).coSet 1 0x17 4 7).modTile (fun t => { t with posts := [{ key := 5, status := 0, ctx := 1 }] }), 7, { key := 5, status := 0, ctx := 1 }, [], ((((wS.coSet 1 0x17 1 1).coSet 1 0x17 4 7).bdkCycle 1 32).applyOp ({ key := 5, status := 0, ctx := 1 }) |>.getD wS), by dsimp only; decide +kernel⟩,
   ⟨(wEp.modThr 7 (fun x => { x with st := .dispatched })).oSet 0x2420 3 5, 7, by decide +kernel⟩⟩

theorem wit_Recovery :
    (∃ (s : State) (k : Nat) (n : Nat), let q := s.q k; let c := q.qr.ctx; s.run = true ∧ q.place = .lost ∧ q.contRead = false ∧ q.kill = none ∧ (s.ctxOf c).aborting = false ∧ c < 64 ∧ s.tile.lostSlots.contains k = false ∧ s.tile.mendWait[n]? = none) ∧
    (∃ (s : State) (k : Nat), let q := s.q k; let c := q.qr.ctx; s.run = true ∧ q.place = .lost ∧ q.contRead = false ∧ q.kill = none ∧ (s.ctxOf c).aborting = false ∧ s.tile.lostSlots.contains k = true ∧ s.poolFree ≠ 0 ∧ s.freeSlot ≠ k) ∧
    (∃ (s : State) (k : Nat), let q := s.q k; let c := q.qr.ctx; s.run = true ∧ q.place = .lost ∧ q.contRead = false ∧ q.kill = none ∧ (s.ctxOf c).aborting = false ∧ s.tile.lostSlots.contains k = true ∧ s.poolFree = 0) ∧
    (∃ (s : State) (k : Nat) (y : _), let q := s.q k; let c := q.qr.ctx; s.run = true ∧ q.place = .lost ∧ q.contRead = false ∧ (s.ctxOf c).aborting = false ∧ q.kill = some y) ∧
    (∃ (s : State) (n : Nat) (p : _) (r : _), s.run = true ∧ s.tile.mendWait[n]? = some (p, r) ∧ r.rmp = none) ∧
    (∃ (s : State) (n : Nat) (p : _) (r : _) (m : _), s.run = true ∧ s.tile.mendWait[n]? = some (p, r) ∧ r.rmp = some m) ∧
    (∃ (s : State) (b : Nat), s.run = true ∧ b < 48 ∧ (s.bobOf b).wd = true ∧ s.occupants b = []) ∧
    (∃ (s : State) (b : Nat), s.run = true ∧ b < 48 ∧ (s.bobOf b).wd = true ∧ s.occupants b ≠ []) :=
  ⟨⟨wS.modQ 4 (fun _ => { rayQ 1 with place := .lost }), 4, 0, by dsimp only; decide +kernel⟩,
   ⟨(wS.modQ 4 (fun _ => { rayQ 1 with place := .lost })).modTile (fun t => { t with lostSlots := [4] }), 4, by dsimp only; decide +kernel⟩,
   ⟨{ (wS.modQ 4 (fun _ => { rayQ 1 with place := .lost })).modTile (fun t => { t with lostSlots := [4] }) with part := {} }, 4, by dsimp only; decide +kernel⟩,
   ⟨wS.modQ 4 (fun _ => { rayQ 1 with place := .lost, kill := some 5 }), 4, 5, by dsimp only; decide +kernel⟩,
   ⟨wS.modTile (fun t => { t with mendWait := [(3, { wr := false, addr := 0x40, left := 1 })] }), 0, 3, { wr := false, addr := 0x40, left := 1 }, by decide +kernel⟩,
   ⟨wS.modTile (fun t => { t with mendWait := [(3, { wr := false, addr := 0x40, left := 1, rmp := some 5 })] }), 0, 3, { wr := false, addr := 0x40, left := 1, rmp := some 5 }, 5, by decide +kernel⟩,
   ⟨(wB 6).modBob 6 (fun v => { v with wd := true }), 6, by decide +kernel⟩,
   ⟨(wN 1 0).modBob 6 (fun v => { v with wd := true }), 6, by decide +kernel⟩⟩

end Sys2Proof.Tests
end

section
/-! What an executed Baste instruction that takes an arithmetic result does, and the shifts (R232 to R234). -/

namespace Sys2Proof.Machine

/-! ## An instruction that takes a result of the arithmetic -/

/-- The two spellings of N and Z after an integer result (R232). -/
theorem Flags.int_eq_nz (f : Flags) (r : Word) : f.int r = f.nz r :=
  congrArg (fun m => { f with n := m, z := decide (r = 0) }) (BitVec.msb_eq_getLsbD_last r)

/-- An instruction whose operand is there does what it does with the operand. -/
theorem withOp_of_fetch {cst : Nat → Nat} {en en1 : Engine} {fm : Form} {w : Nat} {v : Word} (k : Engine → Word → Res)
    (h : en.fetch cst fm w = .ok v en1) : withOp fm k cst en w = k en1 v := by
  simp only [withOp, h]

/-- An operand fetch leaves the handoff of the engine (R228). -/
theorem Engine.fetch_ent {cst : Nat → Nat} {en en1 : Engine} {fm : Form} {w : Nat} {v : Word} (h : en.fetch cst fm w = .ok v en1) :
    en1.ent = en.ent := by
  rw [Engine.fetch_frame cst en en1 fm w v h]

/-- Below the control opcodes a result of the arithmetic that is no division by zero goes into A and FLAGS, and the next instruction follows. -/
theorem State.bstStep_take {s : State} {b g w opc : Nat} {fm : Form} {v : Word} {en : Engine} {k : Engine → Word → Res} {u : Alu}
    (h : s.takes b g w opc fm v en) (hopc : opc < 0x60) (hk : k en v = en.take u) (hdz : u.dz = false) :
    s.bstStep b g .ok opc (withOp fm k) = s.actedSeq b g w { en with a := u.r, fl := u.f } := by
  obtain ⟨hx, hf⟩ := h
  have hent : en.ent = (s.engOf b g).ent := Engine.fetch_ent hf
  refine s.bstStep_seq b g w opc _ _ u.dz hx (by omega) ?_ hent (by simp [hdz])
  rw [withOp_of_fetch k hf, hk, Engine.take]

/-- A shift completes with the result and C of its row (R234). -/
theorem State.bstStep_shift {s : State} {b g w opc : Nat} {v : Word} {en : Engine} {alu : Flags → Word → Nat → Alu} {r : Word} {c : Bool}
    (h : s.takes b g w opc .shift v en) (hopc : opc < 0x60) (hrow : alu en.fl en.a (v.toNat % 256) = aluC en.fl r c) :
    s.bstStep b g .ok opc (shiftOp alu) = s.actedSeq b g w { en with a := r, fl := { en.fl.nz r with c := c } } := by
  rw [shiftOp, State.bstStep_take h hopc (u := aluC en.fl r c) (by rw [hrow]) rfl, aluC, Flags.int_eq_nz]

/-! ## The rows of R234 as a result and C -/

section
variable {f : Flags} {a : Word} {n : Nat}

/-- A result that leaves C alone. -/
theorem aluNz_eq_aluC (f : Flags) (r : Word) : aluNz f r = aluC f r f.c := rfl

theorem shiftLeft_eq_ofNat (a : Word) (n : Nat) : a <<< n = BitVec.ofNat 32 (a.toNat * 2 ^ n) := by
  apply BitVec.eq_of_toNat_eq
  rw [BitVec.toNat_shiftLeft, BitVec.toNat_ofNat, Nat.shiftLeft_eq]

theorem ushiftRight_eq_ofNat (a : Word) (n : Nat) : a >>> n = BitVec.ofNat 32 (a.toNat / 2 ^ n) := by
  apply BitVec.eq_of_toNat_eq
  have h : a.toNat / 2 ^ n < 2 ^ 32 := Nat.lt_of_le_of_lt (Nat.div_le_self _ _) a.isLt
  rw [BitVec.toNat_ushiftRight, Nat.shiftRight_eq_div_pow, BitVec.toNat_ofNat, Nat.mod_eq_of_lt h]

theorem sshiftRight_eq_ofInt (a : Word) (n : Nat) : a.sshiftRight n = BitVec.ofInt 32 (a.toInt / 2 ^ n) := by
  rw [BitVec.sshiftRight, Int.shiftRight_eq_div_pow]
  norm_cast

/-- A shift to the right by 31 leaves the sign in every bit. -/
theorem sshiftRight_31 (a : Word) : a.sshiftRight 31 = if a.getLsbD 31 then 0xFFFFFFFF else 0 := by
  have ones : (0xFFFFFFFF : Word) = BitVec.allOnes 32 := rfl
  ext i hi
  have sign : (a.sshiftRight 31)[i] = a.getLsbD 31 := by
    rw [BitVec.getElem_sshiftRight]
    split
    · obtain rfl : i = 0 := by omega
      rfl
    · rw [BitVec.msb_eq_getLsbD_last]
  rw [sign, ones]
  cases a.getLsbD 31
  · rw [if_neg Bool.false_ne_true]
    exact (BitVec.getElem_zero hi).symm
  · rw [if_pos rfl, BitVec.getElem_allOnes]

theorem aluShl_of_zero (hn : n = 0) : aluShl f a n = aluC f a f.c := by
  rw [aluShl, if_pos hn, aluNz_eq_aluC]

theorem aluShl_of_lt (h1 : 1 ≤ n) (h2 : n ≤ 31) : aluShl f a n = aluC f (BitVec.ofNat 32 (a.toNat * 2 ^ n)) (a.getLsbD (32 - n)) := by
  rw [aluShl, if_neg (by omega), if_pos (by omega), shiftLeft_eq_ofNat]

theorem aluShl_of_eq (hn : n = 32) : aluShl f a n = aluC f 0 (a.getLsbD 31) := by
  simp [aluShl, hn]

theorem aluShl_of_gt (hn : 33 ≤ n) : aluShl f a n = aluC f 0 false := by
  rw [aluShl, if_neg (by omega), if_neg (by omega), beq_false_of_ne (by omega), Bool.false_and]

theorem aluShr_of_zero (hn : n = 0) : aluShr f a n = aluC f a f.c := by
  rw [aluShr, if_pos hn, aluNz_eq_aluC]

theorem aluShr_of_lt (h1 : 1 ≤ n) (h2 : n ≤ 31) : aluShr f a n = aluC f (BitVec.ofNat 32 (a.toNat / 2 ^ n)) (a.getLsbD (n - 1)) := by
  rw [aluShr, if_neg (by omega), if_pos (by omega), ushiftRight_eq_ofNat]

theorem aluShr_of_eq (hn : n = 32) : aluShr f a n = aluC f 0 (a.getLsbD 0) := by
  simp [aluShr, hn]

theorem aluShr_of_gt (hn : 33 ≤ n) : aluShr f a n = aluC f 0 false := by
  rw [aluShr, if_neg (by omega), if_neg (by omega), beq_false_of_ne (by omega), Bool.false_and]

theorem aluSar_of_zero (hn : n = 0) : aluSar f a n = aluC f a f.c := by
  rw [aluSar, if_pos hn, aluNz_eq_aluC]

theorem aluSar_of_lt (h1 : 1 ≤ n) (h2 : n ≤ 31) : aluSar f a n = aluC f (BitVec.ofInt 32 (a.toInt / 2 ^ n)) (a.getLsbD (n - 1)) := by
  rw [aluSar, if_neg (by omega), if_pos (by omega), sshiftRight_eq_ofInt]

theorem aluSar_of_ge (hn : 32 ≤ n) : aluSar f a n = aluC f (if a.getLsbD 31 then 0xFFFFFFFF else 0) (a.getLsbD 31) := by
  rw [aluSar, if_neg (by omega), if_neg (by omega), sshiftRight_31, BitVec.msb_eq_getLsbD_last]

theorem aluRol_of_zero (hn : n % 32 = 0) : aluRol f a n = aluC f a f.c := by
  rw [aluRol, if_pos hn, aluNz_eq_aluC]

theorem aluRol_of_ne (hn : n % 32 ≠ 0) : aluRol f a n = aluC f (a.rotateLeft (n % 32)) ((a.rotateLeft (n % 32)).getLsbD 0) := by
  rw [aluRol, if_neg hn]

theorem aluRor_of_zero (hn : n % 32 = 0) : aluRor f a n = aluC f a f.c := by
  rw [aluRor, if_pos hn, aluNz_eq_aluC]

theorem aluRor_of_ne (hn : n % 32 ≠ 0) : aluRor f a n = aluC f (a.rotateRight (n % 32)) ((a.rotateRight (n % 32)).getLsbD 31) := by
  rw [aluRor, if_neg hn]
  simp only [BitVec.msb_eq_getLsbD_last]

end

/-! ## The shifts as commands -/

section
variable (b g : Nat) (s : State)

theorem exec_bstShl : exec (.bstShl b g .ok) s = .next (s.bstStep b g .ok 0x30 (shiftOp aluShl)) := rfl
theorem exec_bstShr : exec (.bstShr b g .ok) s = .next (s.bstStep b g .ok 0x31 (shiftOp aluShr)) := rfl
theorem exec_bstSar : exec (.bstSar b g .ok) s = .next (s.bstStep b g .ok 0x32 (shiftOp aluSar)) := rfl
theorem exec_bstRol : exec (.bstRol b g .ok) s = .next (s.bstStep b g .ok 0x33 (shiftOp aluRol)) := rfl
theorem exec_bstRor : exec (.bstRor b g .ok) s = .next (s.bstStep b g .ok 0x34 (shiftOp aluRor)) := rfl

end

/-- Settles O51: each shift takes its row of R234, by the columns of the count. -/
theorem basteShifts : Obligations.BasteShifts := by
  unfold Obligations.BasteShifts
  intro s b g w v en n a go
  have row : ∀ {opc : Nat} {alu : Flags → Word → Nat → Alu} {r : Word} {c : Bool}, opc < 0x60 → s.takes b g w opc .shift v en →
      alu en.fl a n = aluC en.fl r c → (.next (s.bstStep b g .ok opc (shiftOp alu)) : Out) = go r c :=
    fun hopc h hrow => congrArg Host.Outcome.next (State.bstStep_shift h hopc hrow)
  rw [exec_bstShl, exec_bstShr, exec_bstSar, exec_bstRol, exec_bstRor]
  refine ⟨fun h => ⟨?_, ?_, ?_, ?_⟩, fun h => ⟨?_, ?_, ?_, ?_⟩, fun h => ⟨?_, ?_, ?_⟩, fun h => ⟨?_, ?_⟩, fun h => ⟨?_, ?_⟩⟩
  · exact fun hn => row (by decide) h (aluShl_of_zero hn)
  · exact fun h1 h2 => row (by decide) h (aluShl_of_lt h1 h2)
  · exact fun hn => row (by decide) h (aluShl_of_eq hn)
  · exact fun hn => row (by decide) h (aluShl_of_gt hn)
  · exact fun hn => row (by decide) h (aluShr_of_zero hn)
  · exact fun h1 h2 => row (by decide) h (aluShr_of_lt h1 h2)
  · exact fun hn => row (by decide) h (aluShr_of_eq hn)
  · exact fun hn => row (by decide) h (aluShr_of_gt hn)
  · exact fun hn => row (by decide) h (aluSar_of_zero hn)
  · exact fun h1 h2 => row (by decide) h (aluSar_of_lt h1 h2)
  · exact fun hn => row (by decide) h (aluSar_of_ge hn)
  · exact fun hn => row (by decide) h (aluRol_of_zero hn)
  · exact fun hn => row (by decide) h (aluRol_of_ne hn)
  · exact fun hn => row (by decide) h (aluRor_of_zero hn)
  · exact fun hn => row (by decide) h (aluRor_of_ne hn)

/-! ## A division by zero that traps -/

/-- A division by zero with TRAP_DZ = 1 writes its result and then traps (R233); what follows the end of an invocation, where the trap finds no handler
(R237), is taken up at once. -/
theorem State.bstStep_take_dz {s : State} {b g w opc : Nat} {fm : Form} {v : Word} {en : Engine} {k : Engine → Word → Res} {u : Alu}
    (h : s.takes b g w opc fm v en) (hopc : opc < 0x60) (hk : k en v = en.take u) (hdz : (u.dz && en.trapDz) = true) :
    let t := (s.actedSeq b g w { en with a := u.r, fl := u.f }).bstTrap b g tcDz (s.engOf b g).nextPc ((s.engOf b g).rep - 1) (BitVec.ofNat 32 w)
    s.bstStep b g .ok opc (withOp fm k) = if (t.engOf b g).ent = (s.engOf b g).ent then t else t.settle := by
  intro t
  obtain ⟨⟨hw, ho, -⟩, hf⟩ := h
  have hop : withOp fm k s.cstAt (s.engOf b g) w = .seq { en with a := u.r, fl := u.f } u.dz := by
    rw [withOp_of_fetch k hf, hk, Engine.take]
  have hrep : ¬(0 < (s.engOf b g).rep ∧ 0x60 ≤ opc ∧ opc ≤ 0x69) := by omega
  have htrap : (u.dz && ({ en with a := u.r, fl := u.f } : Engine).trapDz) = true := hdz
  have hi : s.bstInstr b g .ok opc (withOp fm k) = t := by
    unfold State.bstInstr
    simp only [hw, ho, ne_eq, not_true_eq_false, if_false, State.checked, hrep, State.bstApply, hop, State.bstGo, htrap, if_true]
    rfl
  rw [State.bstStep, State.bstOne_ok, hi]

/-- Engine 2 of Bobbin 3, for entry 5, has DIV of 7 by the immediate 0 next, with TRAP_DZ = 1 and no handler at address 8; the copy of handle 0 is done
and its extension not yet ended (R98, R305). -/
def divZeroNoHandler : State :=
  { obj := [(okey 0x4000 1, 3)], bob := [(3, { clock := 0 })], eng := [(14, { ent := some 5, kind := 1, pc := 16, a := 7, ectrl := 1 })],
    code := [(16, 0x2B000000)], hnd := [(0, { state := 1, phase := 3 })] }

theorem divZeroNoHandler_takes : divZeroNoHandler.takes 3 2 0x2B000000 0x2B .int 0 (divZeroNoHandler.engOf 3 2) := by
  dsimp only [State.takes, State.executes]
  decide +kernel

/-- The state that O50 states for this division: the trap has ended the invocation, and nothing has followed yet. -/
def divZeroTrapped : State :=
  let u := aluDz (divZeroNoHandler.engOf 3 2).fl 0
  (divZeroNoHandler.actedSeq 3 2 0x2B000000 { divZeroNoHandler.engOf 3 2 with a := u.r, fl := u.f }).bstTrap 3 2 tcDz 17 0 0x2B000000

/-- The trap finds no handler, so that the engine is free. -/
theorem divZeroTrapped_ent : (divZeroTrapped.engOf 3 2).ent ≠ (divZeroNoHandler.engOf 3 2).ent := by decide +kernel

/-- What follows the end of the invocation is seen at handle 0, whose extension ends. -/
theorem divZeroTrapped_settle_phase : (divZeroTrapped.settle.hndOf 0).phase ≠ (divZeroTrapped.hndOf 0).phase := by decide +kernel

theorem exec_bstDiv (b g : Nat) (s : State) : exec (.bstDiv b g .ok) s = .next (s.bstStep b g .ok 0x2B opDiv) := rfl

theorem exec_divZeroNoHandler : exec (.bstDiv 3 2 .ok) divZeroNoHandler = .next divZeroTrapped.settle := by
  have step := State.bstStep_take_dz (k := fun en v => en.take (aluDiv en.fl en.a v)) divZeroNoHandler_takes (by decide) rfl (by decide +kernel)
  rw [exec_bstDiv]
  exact congrArg Host.Outcome.next (step.trans (if_neg divZeroTrapped_ent))

/-- Refutes O50: where the DZ trap of DIV finds no handler (R237), the invocation ends with a fault and its engine is free, so that `State.bstStep` goes
on with `State.settle`; the statement gives the state before it. With a completed copy waiting the two differ in handle 0. -/
theorem not_basteProducts : ¬ Obligations.BasteProducts := by
  unfold Obligations.BasteProducts
  rintro ⟨-, division⟩
  obtain ⟨div, -⟩ := division divZeroNoHandler 3 2 0x2B000000 0 (divZeroNoHandler.engOf 3 2)
  have claimed : exec (.bstDiv 3 2 .ok) divZeroNoHandler = .next divZeroTrapped := (div divZeroNoHandler_takes).2 rfl
  have same : divZeroTrapped.settle = divZeroTrapped := Host.Outcome.next.inj (exec_divZeroNoHandler.symm.trans claimed)
  exact divZeroTrapped_settle_phase (by rw [same])

end Sys2Proof.Machine
end

section
/-! What every operation of the tile keeps: the commands that wait, and the canonical form of the stores. -/

namespace Sys2Proof.Machine

/-- From s to t the commands that wait stay as they are, and stores in canonical form stay in it. -/
def State.Keeps (s t : State) : Prop := t.pending = s.pending ∧ (s.canon = true → t.canon = true)

/-- What `State.Keeps` looks at. -/
def State.stores (s : State) : State :=
  { pending := s.pending, obj := s.obj, port := s.port, ctx := s.ctx, strm := s.strm, ep := s.ep, thr := s.thr, hnd := s.hnd, slot := s.slot,
    rs := s.rs, bob := s.bob, eng := s.eng, mig := s.mig }

theorem State.canon_stores (s : State) : s.stores.canon = s.canon := rfl

/-- The parts of the canonical form. -/
theorem State.canon_iff (s : State) : s.canon = true ↔
    ((tsorted s.obj && s.obj.all (fun e => e.2 != objReset e.1)) = true ∧ tcanon {} s.port = true ∧ tcanon {} s.ctx = true ∧ tcanon {} s.strm = true ∧
      tcanon {} s.ep = true ∧ tcanon {} s.thr = true ∧ tcanon {} s.hnd = true ∧ tcanon {} s.slot = true ∧ tcanon {} s.rs = true ∧
      tcanon {} s.bob = true ∧ tcanon {} s.eng = true ∧ tcanon {} s.mig = true) := by
  simp only [State.canon, Bool.and_eq_true, and_assoc]

/-! ## Tables from which entries go -/

theorem tsorted_filter {α : Type} {t : Tbl α} (p : Nat × α → Bool) (h : tsorted t = true) : tsorted (t.filter p) = true := by
  rw [tsorted_iff] at *
  exact h.sublist List.filter_sublist

theorem tcanon_filter {α : Type} [DecidableEq α] {d : α} {t : Tbl α} (p : Nat × α → Bool) (h : tcanon d t = true) : tcanon d (t.filter p) = true := by
  simp only [tcanon, Bool.and_eq_true, List.all_eq_true] at *
  exact ⟨tsorted_filter p h.1, fun e he => h.2 e (List.mem_filter.mp he).1⟩

/-- An update of the entries alone keeps the order of the keys. -/
theorem tsorted_map {α β : Type} {t : Tbl α} (f : Nat × α → Nat × β) (hf : ∀ e, (f e).1 = e.1) (h : tsorted t = true) : tsorted (t.map f) = true := by
  rw [tsorted_iff] at *
  exact List.pairwise_map.mpr (h.imp fun {a b} k => by rwa [hf a, hf b])

/-- A table whose entries are updated, and then left out where they hold nothing, is in canonical form. -/
theorem tcanon_map_filter {α : Type} [DecidableEq α] {d : α} {t : Tbl α} (f : Nat × α → Nat × α) (hf : ∀ e, (f e).1 = e.1)
    (h : tcanon d t = true) : tcanon d ((t.map f).filter (fun e => e.2 != d)) = true := by
  simp only [tcanon, Bool.and_eq_true, List.all_eq_true] at *
  exact ⟨tsorted_filter _ (tsorted_map f hf h.1), fun e he => by simpa using (List.mem_filter.mp he).2⟩

/-- Registers that are left out read their reset values, and the rest stay in canonical form. -/
theorem obj_canon_filter {t : Tbl Nat} (p : Nat × Nat → Bool) (h : (tsorted t && t.all (fun e => e.2 != objReset e.1)) = true) :
    (tsorted (t.filter p) && (t.filter p).all (fun e => e.2 != objReset e.1)) = true := by
  simp only [Bool.and_eq_true, List.all_eq_true] at *
  exact ⟨tsorted_filter p h.1, fun e he => h.2 e (List.mem_filter.mp he).1⟩

namespace State.Keeps

variable {s0 s t : State} {α β : Type}

theorem refl (s : State) : s.Keeps s := ⟨rfl, id⟩

theorem trans (h : s0.Keeps s) (k : s.Keeps t) : s0.Keeps t := ⟨k.1.trans h.1, fun c => k.2 (h.2 c)⟩

/-- A state with the same stores is kept as well. -/
theorem of (h : s0.Keeps s) (e : t.stores = s.stores) : s0.Keeps t := by
  have hp : t.stores.pending = s.stores.pending := congrArg State.pending e
  have hc : t.canon = s.canon := by rw [← canon_stores t, e, canon_stores]
  exact ⟨hp.trans h.1, fun c => hc.trans (h.2 c)⟩

theorem ite {c : Prop} [Decidable c] (h : s0.Keeps s) (k : s0.Keeps t) : s0.Keeps (if c then s else t) := by
  split
  · exact h
  · exact k

theorem iteFst {c : Prop} [Decidable c] {x y : State × α} (h : s0.Keeps x.1) (k : s0.Keeps y.1) : s0.Keeps (if c then x else y).1 := by
  split
  · exact h
  · exact k
theorem iteSnd {c : Prop} [Decidable c] {x y : α × State} (h : s0.Keeps x.2) (k : s0.Keeps y.2) : s0.Keeps (if c then x else y).2 := by
  split
  · exact h
  · exact k

/-- The state of an answer that a match has taken apart. -/
theorem fst {r : State × α} {x : α} (e : r = (t, x)) (h : s0.Keeps r.1) : s0.Keeps t := by rw [e] at h; exact h
theorem snd {r : α × State} {x : α} (e : r = (x, t)) (h : s0.Keeps r.2) : s0.Keeps t := by rw [e] at h; exact h
theorem thd {r : α × β × State} {x : α} {y : β} (e : r = (x, y, t)) (h : s0.Keeps r.2.2) : s0.Keeps t := by rw [e] at h; exact h
theorem ofSome {r : Option State} (e : r = some t) (h : ∀ u, r = some u → s0.Keeps u) : s0.Keeps t := h t e
theorem getD {r : Option State} (h : ∀ u, r = some u → s0.Keeps u) (k : s0.Keeps t) : s0.Keeps (r.getD t) := by
  cases r with
  | none => exact k
  | some u => exact h u rfl

theorem foldl {f : State → α → State} {l : List α} (h : s0.Keeps s) (step : ∀ u x, s0.Keeps u → s0.Keeps (f u x)) : s0.Keeps (l.foldl f s) := by
  induction l generalizing s with
  | nil => exact h
  | cons x l ih => exact ih (step s x h)

theorem foldlFst {f : State × β → α → State × β} {l : List α} {b : β} (h : s0.Keeps s) (step : ∀ u x, s0.Keeps u.1 → s0.Keeps (f u x).1) :
    s0.Keeps (l.foldl f (s, b)).1 := by
  induction l generalizing s b with
  | nil => exact h
  | cons x l ih => exact ih (b := (f (s, b) x).2) (step (s, b) x h)

theorem foldlSnd {f : β × State → α → β × State} {l : List α} {b : β} (h : s0.Keeps s) (step : ∀ u x, s0.Keeps u.2 → s0.Keeps (f u x).2) :
    s0.Keeps (l.foldl f (b, s)).2 := by
  induction l generalizing s b with
  | nil => exact h
  | cons x l ih => exact ih (b := (f (b, s) x).1) (step (b, s) x h)

/-! ## The named updates of the state -/

theorem oSet {i j v} (h : s0.Keeps s) : s0.Keeps (s.oSet i j v) := by
  refine h.trans ⟨rfl, fun c => ?_⟩
  rw [canon_iff] at c ⊢
  exact ⟨obj_canon_oSet s i j v c.1, c.2⟩

theorem modPort {p f} (h : s0.Keeps s) : s0.Keeps (s.modPort p f) := by
  refine h.trans ⟨rfl, fun c => ?_⟩
  rw [canon_iff] at c ⊢
  obtain ⟨c0, c1, c2⟩ := c
  exact ⟨c0, tcanon_tset _ _ _ _ c1, c2⟩
theorem modCtx {c f} (h : s0.Keeps s) : s0.Keeps (s.modCtx c f) := by
  refine h.trans ⟨rfl, fun c => ?_⟩
  rw [canon_iff] at c ⊢
  obtain ⟨c0, c1, c2, c3⟩ := c
  exact ⟨c0, c1, tcanon_tset _ _ _ _ c2, c3⟩
theorem modSt {c st f} (h : s0.Keeps s) : s0.Keeps (s.modSt c st f) := by
  refine h.trans ⟨rfl, fun c => ?_⟩
  rw [canon_iff] at c ⊢
  obtain ⟨c0, c1, c2, c3, c4⟩ := c
  exact ⟨c0, c1, c2, tcanon_tset _ _ _ _ c3, c4⟩
theorem modEp {e f} (h : s0.Keeps s) : s0.Keeps (s.modEp e f) := by
  refine h.trans ⟨rfl, fun c => ?_⟩
  rw [canon_iff] at c ⊢
  obtain ⟨c0, c1, c2, c3, c4, c5⟩ := c
  exact ⟨c0, c1, c2, c3, tcanon_tset _ _ _ _ c4, c5⟩
theorem modThr {t f} (h : s0.Keeps s) : s0.Keeps (s.modThr t f) := by
  refine h.trans ⟨rfl, fun c => ?_⟩
  rw [canon_iff] at c ⊢
  obtain ⟨c0, c1, c2, c3, c4, c5, c6⟩ := c
  exact ⟨c0, c1, c2, c3, c4, tcanon_tset _ _ _ _ c5, c6⟩
theorem modHnd {x f} (h : s0.Keeps s) : s0.Keeps (s.modHnd x f) := by
  refine h.trans ⟨rfl, fun c => ?_⟩
  rw [canon_iff] at c ⊢
  obtain ⟨c0, c1, c2, c3, c4, c5, c6, c7⟩ := c
  exact ⟨c0, c1, c2, c3, c4, c5, tcanon_tset _ _ _ _ c6, c7⟩
theorem modQ {k f} (h : s0.Keeps s) : s0.Keeps (s.modQ k f) := by
  refine h.trans ⟨rfl, fun c => ?_⟩
  rw [canon_iff] at c ⊢
  obtain ⟨c0, c1, c2, c3, c4, c5, c6, c7, c8⟩ := c
  exact ⟨c0, c1, c2, c3, c4, c5, c6, tcanon_tset _ _ _ _ c7, c8⟩
theorem modRs {k f} (h : s0.Keeps s) : s0.Keeps { s with rs := tmod {} s.rs k f } := by
  refine h.trans ⟨rfl, fun c => ?_⟩
  rw [canon_iff] at c ⊢
  obtain ⟨c0, c1, c2, c3, c4, c5, c6, c7, c8, c9⟩ := c
  exact ⟨c0, c1, c2, c3, c4, c5, c6, c7, tcanon_tset _ _ _ _ c8, c9⟩
theorem modEnt {b e f} (h : s0.Keeps s) : s0.Keeps (s.modEnt b e f) := h.modRs
theorem modBob {b f} (h : s0.Keeps s) : s0.Keeps (s.modBob b f) := by
  refine h.trans ⟨rfl, fun c => ?_⟩
  rw [canon_iff] at c ⊢
  obtain ⟨c0, c1, c2, c3, c4, c5, c6, c7, c8, c9, c10⟩ := c
  exact ⟨c0, c1, c2, c3, c4, c5, c6, c7, c8, tcanon_tset _ _ _ _ c9, c10⟩
theorem modEng {b e f} (h : s0.Keeps s) : s0.Keeps (s.modEng b e f) := by
  refine h.trans ⟨rfl, fun c => ?_⟩
  rw [canon_iff] at c ⊢
  obtain ⟨c0, c1, c2, c3, c4, c5, c6, c7, c8, c9, c10, c11⟩ := c
  exact ⟨c0, c1, c2, c3, c4, c5, c6, c7, c8, c9, tcanon_tset _ _ _ _ c10, c11⟩
theorem modMig {e f} (h : s0.Keeps s) : s0.Keeps (s.modMig e f) := by
  refine h.trans ⟨rfl, fun c => ?_⟩
  rw [canon_iff] at c ⊢
  obtain ⟨c0, c1, c2, c3, c4, c5, c6, c7, c8, c9, c10, c11⟩ := c
  exact ⟨c0, c1, c2, c3, c4, c5, c6, c7, c8, c9, c10, tcanon_tset _ _ _ _ c11⟩

theorem modTile {f} (h : s0.Keeps s) : s0.Keeps (s.modTile f) := h.of rfl
theorem modRing {f} (h : s0.Keeps s) : s0.Keeps (s.modRing f) := h.of rfl
theorem modPwr {f} (h : s0.Keeps s) : s0.Keeps (s.modPwr f) := h.of rfl

/-! ## Updates of the fields that no store of the canonical form is -/

theorem setChallenge {x} (h : s0.Keeps s) : s0.Keeps { s with challenge := x } := h.of rfl
theorem setClkF {x} (h : s0.Keeps s) : s0.Keeps { s with clkF := x } := h.of rfl
theorem setClkFTile {x0 x1} (h : s0.Keeps s) : s0.Keeps { s with clkF := x0, tile := x1 } := h.of rfl
theorem setCodeConstEctrlInit {x0 x1 x2} (h : s0.Keeps s) : s0.Keeps { s with code := x0, const := x1, ectrlInit := x2 } := h.of rfl
theorem setCursor {x} (h : s0.Keeps s) : s0.Keeps { s with cursor := x } := h.of rfl
theorem setDue {x} (h : s0.Keeps s) : s0.Keeps { s with due := x } := h.of rfl
theorem setExpct {x} (h : s0.Keeps s) : s0.Keeps { s with expct := x } := h.of rfl
theorem setFree {x} (h : s0.Keeps s) : s0.Keeps { s with free := x } := h.of rfl
theorem setHeld {x} (h : s0.Keeps s) : s0.Keeps { s with held := x } := h.of rfl
theorem setJob {x} (h : s0.Keeps s) : s0.Keeps { s with job := x } := h.of rfl
theorem setJobDue {x0 x1} (h : s0.Keeps s) : s0.Keeps { s with job := x0, due := x1 } := h.of rfl
theorem setJobNextJob {x0 x1} (h : s0.Keeps s) : s0.Keeps { s with job := x0, nextJob := x1 } := h.of rfl
theorem setLc {x} (h : s0.Keeps s) : s0.Keeps { s with lc := x } := h.of rfl
theorem setLcPart {x0 x1} (h : s0.Keeps s) : s0.Keeps { s with lc := x0, part := x1 } := h.of rfl
theorem setNc {x} (h : s0.Keeps s) : s0.Keeps { s with nc := x } := h.of rfl
theorem setOrder {x} (h : s0.Keeps s) : s0.Keeps { s with order := x } := h.of rfl
theorem setOrphan {x} (h : s0.Keeps s) : s0.Keeps { s with orphan := x } := h.of rfl
theorem setOut {x} (h : s0.Keeps s) : s0.Keeps { s with out := x } := h.of rfl
theorem setPart {x} (h : s0.Keeps s) : s0.Keeps { s with part := x } := h.of rfl
theorem setPin {x} (h : s0.Keeps s) : s0.Keeps { s with pin := x } := h.of rfl
theorem setTile {x} (h : s0.Keeps s) : s0.Keeps { s with tile := x } := h.of rfl

/-! ## Updates of whole stores -/

theorem filterObj {p} (h : s0.Keeps s) : s0.Keeps { s with obj := s.obj.filter p } := by
  refine h.trans ⟨rfl, fun c => ?_⟩
  rw [canon_iff] at c ⊢
  exact ⟨obj_canon_filter p c.1, c.2⟩

theorem delSlot {k} (h : s0.Keeps s) : s0.Keeps { s with slot := tdel s.slot k } := by
  refine h.trans ⟨rfl, fun c => ?_⟩
  rw [canon_iff] at c ⊢
  obtain ⟨c0, c1, c2, c3, c4, c5, c6, c7, c8⟩ := c
  exact ⟨c0, c1, c2, c3, c4, c5, c6, tcanon_filter _ c7, c8⟩

theorem clearRs (h : s0.Keeps s) : s0.Keeps { s with rs := [] } := by
  refine h.trans ⟨rfl, fun c => ?_⟩
  rw [canon_iff] at c ⊢
  obtain ⟨c0, c1, c2, c3, c4, c5, c6, c7, c8, c9⟩ := c
  exact ⟨c0, c1, c2, c3, c4, c5, c6, c7, rfl, c9⟩

theorem filterThr {p x y} (h : s0.Keeps s) : s0.Keeps { s with thr := s.thr.filter p, expct := x, orphan := y } := by
  refine h.trans ⟨rfl, fun c => ?_⟩
  rw [canon_iff] at c ⊢
  obtain ⟨c0, c1, c2, c3, c4, c5, c6⟩ := c
  exact ⟨c0, c1, c2, c3, c4, tcanon_filter _ c5, c6⟩

theorem filterRsEng {p q n} (h : s0.Keeps s) : s0.Keeps { s with nc := n, rs := s.rs.filter p, eng := s.eng.filter q } := by
  refine h.trans ⟨rfl, fun c => ?_⟩
  rw [canon_iff] at c ⊢
  obtain ⟨c0, c1, c2, c3, c4, c5, c6, c7, c8, c9, c10, c11⟩ := c
  exact ⟨c0, c1, c2, c3, c4, c5, c6, c7, tcanon_filter _ c8, c9, tcanon_filter _ c10, c11⟩

/-! ### Ops.lean -/

theorem oAdd {idx sub n} (h : s0.Keeps s) : s0.Keeps (s.oAdd idx sub n) := .oSet h
theorem oInc {idx sub} (h : s0.Keeps s) : s0.Keeps (s.oInc idx sub) := .oAdd h
theorem began {idx sub} (h : s0.Keeps s) : s0.Keeps (s.began idx sub) := .ite (.oSet h) h
theorem coSet {c o v sub} (h : s0.Keeps s) : s0.Keeps (s.coSet c o v sub) := .oSet h
theorem draw (h : s0.Keeps s) : s0.Keeps (s.draw).2 := .setFree h
theorem openVal {c key} (h : s0.Keeps s) : s0.Keeps (s.openVal c key).2 := .iteSnd h (.draw h)
theorem tick (h : s0.Keeps s) : s0.Keeps (s.tick).2 := .setOrder h
theorem sendRing {f} (h : s0.Keeps s) : s0.Keeps (s.sendRing f) := .ite (.setOut (.oInc h)) h
theorem relayRing {f} (h : s0.Keeps s) : s0.Keeps (s.relayRing f) := .ite (.setOut h) h
theorem sendEvent {ev} (h : s0.Keeps s) : s0.Keeps (s.sendEvent ev) := .ite h (.setFree (.sendRing h))
theorem sendHeld (h : s0.Keeps s) : s0.Keeps s.sendHeld := .foldl h fun _ _ h1 => .sendEvent h1
theorem pushEvent {data} (h : s0.Keeps s) : s0.Keeps (s.pushEvent data).1 := by
  refine .iteFst h (.sendEvent ?_)
  split
  · exact .oSet (.modRing (.oSet h))
  · exact .modRing (.oSet h)
theorem setCause {leaf n what} (h : s0.Keeps s) : s0.Keeps (s.setCause leaf n what).1 := .iteFst (.oSet h) (.oSet (.oSet h))
theorem raiseLost {eseq} (h : s0.Keeps s) : s0.Keeps (s.raiseLost eseq) := by
  unfold State.raiseLost
  split
  · exact .fst ‹_› (.setCause h)
  · refine .ite ?_ (.fst ‹_› (.setCause h))
    split
    · exact .setCause (.fst ‹_› (.pushEvent (.fst ‹_› (.setCause h))))
    · exact .fst ‹_› (.pushEvent (.fst ‹_› (.setCause h)))
theorem event {data} (h : s0.Keeps s) : s0.Keeps (s.event data) := by
  unfold State.event
  split
  · exact .raiseLost (.fst ‹_› (.pushEvent h))
  · exact .fst ‹_› (.pushEvent h)
theorem raise {leaf n what} (h : s0.Keeps s) : s0.Keeps (s.raise leaf n what) := by
  unfold State.raise
  split
  · exact .ite (.event (.fst ‹_› (.setCause h))) (.fst ‹_› (.setCause h))
  · exact .fst ‹_› (.setCause h)
theorem stateEvent (h : s0.Keeps s) : s0.Keeps s.stateEvent := .event h
theorem enter {p} (h : s0.Keeps s) : s0.Keeps (s.enter p) := .ite h (.stateEvent (.raise (.oSet h)))
theorem windowFault {c what} (h : s0.Keeps s) : s0.Keeps (s.windowFault c what) := .raise (.oInc h)
theorem issue {p r} (h : s0.Keeps s) : s0.Keeps (s.issue p r) := .setOut (.ite (.oAdd (.modPort h)) (.modPort h))
theorem failReq {p r eoff} (h : s0.Keeps s) : s0.Keeps (s.failReq p r eoff) := by
  refine .ite (.modTile (.oInc h)) ?_
  dsimp only
  split
  · exact .setDue (.setDue (.foldl (.oInc h) fun _ _ h1 => .ite (.setJobDue h1) (.setJob h1)))
  · exact .setDue (.foldl (.oInc h) fun _ _ h1 => .ite (.setJobDue h1) (.setJob h1))
theorem send {p r} (h : s0.Keeps s) : s0.Keeps (s.send p r) :=
  .ite (.ite (.ite (.issue h) (.modPort h)) (.failReq h)) (.ite (.ite (.issue h) (.modPort h)) (.failReq h))
theorem drainPort {p} (h : s0.Keeps s) : s0.Keeps (s.drainPort p) := .foldl (.modPort h) fun _ _ h1 => .ite (.issue h1) (.modPort h1)
theorem drainAfter {old p} (h : s0.Keeps s) : s0.Keeps (s.drainAfter old p) := .ite (.drainPort h) (.foldl h fun _ _ h1 => .drainPort h1)

/-! ### Lining.lean -/

theorem modLc {k f} (h : s0.Keeps s) : s0.Keeps (s.modLc k f) := .setLc h
theorem writeBack {port line data op} (h : s0.Keeps s) : s0.Keeps (s.writeBack port line data op) := .send h
theorem evictLine {k w} (h : s0.Keeps s) : s0.Keeps (s.evictLine k w) := .ite (.writeBack (.modTile h)) h
theorem lcAlloc {port line mk u} (h : s0.Keeps s) (e : s.lcAlloc port line mk = Option.some u) : s0.Keeps u := by
  unfold State.lcAlloc at e
  dsimp only at e
  split at e
  · cases e
  · obtain rfl := Option.some.inj e
    refine .modLc ?_
    split
    · exact .evictLine h
    · exact h
theorem cancelBack {port line} (h : s0.Keeps s) : s0.Keeps (s.cancelBack port line) :=
  .foldl (.modTile h) fun _ _ h1 => .ite (.modPort h1) h1
theorem rescue {port line dirty u} (h : s0.Keeps s) (e : s.rescue port line dirty = Option.some u) : s0.Keeps u := by
  unfold State.rescue at e
  split at e
  · cases e
  · obtain ⟨v, hv, rfl⟩ := Option.map_eq_some_iff.mp e
    exact .oInc (.lcAlloc (.ite (.cancelBack h) (.modTile h)) hv)
theorem joinRead {p line f u} (h : s0.Keeps s) (e : s.joinRead p line f = Option.some u) : s0.Keeps u := by
  unfold State.joinRead at e
  dsimp only at e
  split at e
  · exact Option.some.inj e ▸ .modPort h
  · split at e
    · exact Option.some.inj e ▸ .modPort h
    · cases e
theorem jobSector {id off v err} (h : s0.Keeps s) : s0.Keeps (s.jobSector id off v err) := by
  unfold State.jobSector
  split
  · exact h
  · exact .ite (.setJobDue h) (.setJob h)
theorem lcRead {port line sec c full want got} (hgot : ∀ x0 x1 u, s0.Keeps u → s0.Keeps (got x0 x1 u)) (h : s0.Keeps s) :
    s0.Keeps (s.lcRead port line sec c full want got) := by
  unfold State.lcRead
  dsimp only
  split
  · refine .ite (hgot _ _ _ (.oInc (.modLc h))) ?_
    split
    · exact .joinRead (.oInc (.ite (hgot _ _ _ h) h)) ‹_›
    · exact .send (.oInc (.ite (hgot _ _ _ h) h))
  · split
    · split
      · exact hgot _ _ _ (.oInc (.rescue h ‹_›))
      · exact .rescue h ‹_›
    · split
      · exact .send (.lcAlloc (.oInc h) ‹_›)
      · exact .send (.oInc h)
theorem lcSector {port line sec v last} (h : s0.Keeps s) : s0.Keeps (s.lcSector port line sec v last) := by
  unfold State.lcSector
  dsimp only
  split
  · exact h
  · exact .ite (.ite (.modLc (.ite (.writeBack h) h)) (.modLc (.ite (.writeBack h) h))) (.modLc h)
theorem lcWrite {port pa data mask c} (h : s0.Keeps s) : s0.Keeps (s.lcWrite port pa data mask c) := by
  unfold State.lcWrite
  dsimp only
  split
  · exact .oInc (.modLc h)
  · split
    · split
      · exact .oInc (.modLc (.rescue h ‹_›))
      · exact .rescue h ‹_›
    · split
      · exact .send (.lcAlloc (.oInc h) ‹_›)
      · exact .send (.oInc h)
theorem lcWholeLine {port line} (h : s0.Keeps s) : s0.Keeps (s.lcWholeLine port line) := .ite h (.getD (fun _ e => .lcAlloc h e) h)
theorem lcTouchWrite {port pa data mask} (h : s0.Keeps s) : s0.Keeps (s.lcTouchWrite port pa data mask) := by
  unfold State.lcTouchWrite
  dsimp only
  split
  · exact .modLc h
  · split
    · split
      · exact .modLc (.rescue h ‹_›)
      · exact .rescue h ‹_›
    · exact .ite (.modTile h) h
theorem lcPiece {r} (h : s0.Keeps s) : s0.Keeps (s.lcPiece r) := by
  refine .ite (.ite ?_ (.modTile h)) (.ite (.modTile h) ?_)
  · split
    · exact .lcRead (fun _ _ _ h1 => .jobSector h1) h
    · exact .lcWrite h
  · split
    · exact .send h
    · exact .send h
theorem lcRetry (h : s0.Keeps s) : s0.Keeps s.lcRetry := .ite h (.foldl (.modTile h) fun _ _ h1 => .lcPiece h1)
theorem startJob {purp c addr len r what direct} (h : s0.Keeps s) : s0.Keeps (s.startJob purp c addr len r what direct) := by
  refine .foldl (.setJobNextJob h) fun _ _ h1 => ?_
  dsimp only
  split
  · exact .jobSector (.windowFault h1)
  · exact .ite (.lcPiece h1) (.send h1)
theorem writeOut {c addr data mask rel wp what} (h : s0.Keeps s) : s0.Keeps (s.writeOut c addr data mask rel wp what) := by
  unfold State.writeOut
  dsimp only
  split
  · exact .setDue (.windowFault h)
  · exact .send (.ite (.lcTouchWrite h) h)
theorem modNc {b k f} (h : s0.Keeps s) : s0.Keeps (s.modNc b k f) := .setNc h
theorem ncInstall {b port line way data locked} (h : s0.Keeps s) : s0.Keeps (s.ncInstall b port line way data locked) := .modNc h
theorem ncFromLc {b port line w all} (h : s0.Keeps s) : s0.Keeps (s.ncFromLc b port line w all) := by
  unfold State.ncFromLc
  dsimp only
  split
  · exact h
  · exact .ite (.oInc (.modBob (.modNc h))) (.modNc h)
theorem ncFill {b c hx a t way locked} (h : s0.Keeps s) : s0.Keeps (s.ncFill b c hx a t way locked) :=
  .ite (.oInc (.ncInstall h)) (.ite (.ite (.oInc (.lcRead (fun _ _ _ h1 => .ncFromLc h1) (.modBob (.modNc h)))) (.lcRead
    (fun _ _ _ h1 => .ncFromLc h1) (.modBob (.modNc h)))) (.oInc (.send (.modBob (.modNc h)))))
theorem ncSector {b c st hx a owed held} (h : s0.Keeps s) : s0.Keeps (s.ncSector b c st hx a owed held).2 := by
  unfold State.ncSector
  split
  · exact .windowFault h
  · dsimp only
    split
    · exact h
    · exact h
    · split
      · exact .iteSnd h (.iteSnd (.modNc h) (.iteSnd h (.ncFill h)))
      · refine .iteSnd h ?_
        split
        · exact h
        · exact .ncFill h
theorem ncRead {b c st hx a n owed held} (h : s0.Keeps s) : s0.Keeps (s.ncRead b c st hx a n owed held).2 := by
  induction n with
  | zero => exact h
  | succ n ih =>
    unfold State.ncRead
    split
    · split
      · exact .snd ‹_› (.ncSector (.snd ‹_› ih))
      · exact .ncSector (.snd ‹_› ih)
    · split
      · exact .snd ‹_› (.ncSector (.snd ‹_› ih))
      · exact .snd ‹_› (.ncSector (.snd ‹_› ih))
    · exact .ite (.snd ‹_› ih) (.windowFault (.snd ‹_› ih))
theorem payOwed {b port line data} (h : s0.Keeps s) : s0.Keeps (s.payOwed b port line data) := .foldl h fun _ _ h1 => .modRs h1
theorem oweLine {b port line} (h : s0.Keeps s) : s0.Keeps (s.oweLine b port line) := .foldl h fun _ _ h1 => .modRs h1
theorem ncSectorIn {b port line sec v last} (h : s0.Keeps s) : s0.Keeps (s.ncSectorIn b port line sec v last) := by
  unfold State.ncSectorIn
  dsimp only
  split
  · exact h
  · exact .ite (.modBob (.ite (.payOwed (.modNc h)) (.modNc h))) (.modNc h)
theorem lockDrop {b} (h : s0.Keeps s) : s0.Keeps (s.lockDrop b) := .ite (.oInc h) (.raise (.oInc h))
theorem ncInvalidate {b p} (h : s0.Keeps s) : s0.Keeps (s.ncInvalidate b p).1 :=
  .foldlFst h fun _ _ h1 => .foldlFst h1 fun _ _ h2 => .iteFst (.ite (.lockDrop (.ite (.modNc (.oweLine h2)) (.modNc h2))) (.ite (.modNc
    (.oweLine h2)) (.modNc h2))) h2
theorem backOp {port line} (h : s0.Keeps s) : s0.Keeps (s.backOp port line) := .foldl h fun _ _ h1 => .ite (.modPort h1) h1
theorem lcSweep {p ev wb inv} (h : s0.Keeps s) : s0.Keeps (s.lcSweep p ev wb inv).1 :=
  .modTile (.ite (.foldl (.foldlFst h fun _ _ h1 => .foldlFst h1 fun _ _ h2 => .iteFst (.ite (.modLc (.ite (.writeBack h2) h2)) (.ite
    (.modLc (.ite (.writeBack h2) h2)) (.modLc (.ite (.writeBack h2) h2)))) h2) fun _ _ h1 => .cancelBack h1) (.foldl (.foldlFst h
    fun _ _ h1 => .foldlFst h1 fun _ _ h2 => .iteFst (.ite (.modLc (.ite (.writeBack h2) h2)) (.ite (.modLc (.ite (.writeBack h2) h2))
    (.modLc (.ite (.writeBack h2) h2)))) h2) fun _ _ h1 => .backOp h1))
theorem lcFlush (h : s0.Keeps s) : s0.Keeps s.lcFlush := .lcSweep h

/-! ### IndexFmt.lean -/

theorem residCheck {hx} (h : s0.Keeps s) : s0.Keeps (s.residCheck hx) := .ite h (.ite (.raise (.modHnd h)) (.modHnd h))
theorem pinTrim {hx units} (h : s0.Keeps s) : s0.Keeps (s.pinTrim hx units) := .residCheck (.setPin (.modHnd h))
theorem pinCopy {hx o n} (h : s0.Keeps s) : s0.Keeps (s.pinCopy hx o n) := .ite h (.startJob (.modHnd h))
theorem pinCopied {hx o id j} (h : s0.Keeps s) : s0.Keeps (s.pinCopied hx o id j) := .ite h (.residCheck (.modHnd (.setPin h)))

/-! ### Query.lean -/

theorem quotaCheck {c} (h : s0.Keeps s) : s0.Keeps (s.quotaCheck c) := .ite (.raise (.modCtx h)) h
theorem freeQuery {k} (h : s0.Keeps s) : s0.Keeps (s.freeQuery k) := .ite h (.quotaCheck (.foldl (.delSlot h) fun _ _ h1 => .delSlot h1))
theorem traceWrite {k o n data} (h : s0.Keeps s) : s0.Keeps (s.traceWrite k o n data) := .oAdd (.writeOut h)
theorem traceFlags {k hits} (h : s0.Keeps s) : s0.Keeps (s.traceFlags k hits) :=
  .ite h (.ite (.foldl h fun _ _ h1 => .traceWrite h1) (.traceWrite (.foldl h fun _ _ h1 => .traceWrite h1)))
theorem hemPut {c st i} (h : s0.Keeps s) : s0.Keeps (s.hemPut c st i) := .modSt (.began (.began h))
theorem toHem {k status recs} (h : s0.Keeps s) : s0.Keeps (s.toHem k status recs) := .ite (.modTile (.hemPut (.modQ h))) (.hemPut (.modQ h))
theorem completeEmpty {k status} (h : s0.Keeps s) : s0.Keeps (s.completeEmpty k status) := .toHem (.traceFlags (.openVal h))
theorem slotlessRec {r status cnt n y} (h : s0.Keeps s) : s0.Keeps (s.slotlessRec r status cnt n y) := .hemPut h
theorem slotless {r status cnt n} (h : s0.Keeps s) : s0.Keeps (s.slotless r status cnt n) := .slotlessRec (.openVal h)
theorem releaseRecs {k recs} (h : s0.Keeps s) : s0.Keeps (s.releaseRecs k recs) := .ite h (.hemPut h)

/-! ### Seam0.lean -/

theorem resultSent {f} (h : s0.Keeps s) : s0.Keeps (s.resultSent f) := .ite h (.foldl h fun _ _ h1 => .freeQuery h1)
theorem seamOut {k f esc} (h : s0.Keeps s) : s0.Keeps (s.seamOut k f esc) := .resultSent (.setOut (.ite (.oInc (.modPort h)) (.modPort h)))
theorem seamTry {k f} (h : s0.Keeps s) : s0.Keeps (s.seamTry k f) := .ite (.modPort h) (.ite (.seamOut h) (.ite (.seamOut h) (.modPort h)))
theorem sendSeam {home f u} (h : s0.Keeps s) (e : s.sendSeam home f = Option.some u) : s0.Keeps u := by
  unfold State.sendSeam at e
  split at e
  · cases e
  · exact Option.some.inj e ▸ .seamTry (.ite (.raise (.modPort h)) (.ite (.modPort h) h))
theorem seamDrain {k} (h : s0.Keeps s) : s0.Keeps (s.seamDrain k) := .foldl (.modPort h) fun _ _ h1 => .seamTry h1
theorem answer {v ftype arg0 arg1 n payload handle} (h : s0.Keeps s) : s0.Keeps (s.answer v ftype arg0 arg1 n payload handle) :=
  .getD (fun _ e => .sendSeam h e) (.resultSent h)
theorem toAnswer {k} (h : s0.Keeps s) : s0.Keeps (s.toAnswer k) := .modQ h
theorem answerEnd {k st} (h : s0.Keeps s) : s0.Keeps (s.answerEnd k st) := by
  unfold State.answerEnd
  dsimp only
  split
  · exact .answer (.toAnswer h)
  · exact h
theorem unrecovered {c st} (h : s0.Keeps s) : s0.Keeps (s.unrecovered c st) := .raise (.oInc h)
theorem endSlot {k st} (h : s0.Keeps s) : s0.Keeps (s.endSlot k st) :=
  .ite (.answerEnd h) (.ite (.freeQuery h) (.ite (.unrecovered (.completeEmpty h)) (.completeEmpty h)))
theorem idxDone {c status} (h : s0.Keeps s) : s0.Keeps (s.idxDone c status) := by
  unfold State.idxDone
  dsimp only
  split
  · exact .coSet h
  · exact .getD (fun _ e => .sendSeam (.modCtx (.coSet h)) e) (.modCtx (.coSet h))

/-! ### Index.lean -/

theorem readRoot {hx c} (h : s0.Keeps s) : s0.Keeps (s.readRoot hx c) := .startJob (.modHnd h)
theorem pinTake {hx} (h : s0.Keeps s) : s0.Keeps (s.pinTake hx).1 := .residCheck (.modHnd h)
theorem startCopy {hx c phase} (h : s0.Keeps s) : s0.Keeps (s.startCopy hx c phase) := .pinCopy (.readRoot (.setPin (.pinTake (.modHnd h))))
theorem idxCmd {c code} (h : s0.Keeps s) : s0.Keeps (s.idxCmd c code).2 :=
  .iteSnd h (.iteSnd (.idxDone h) (.iteSnd (.idxDone h) (.iteSnd (.iteSnd (.idxDone h) (.iteSnd (.idxDone h) (.startJob (.modHnd
    (.coSet h))))) (.iteSnd (.iteSnd (.idxDone h) (.idxDone (.modHnd (.pinTrim (.foldl (.modTile h) fun _ _ h1 => .completeEmpty h1)))))
    (.iteSnd (.iteSnd (.idxDone h) (.modHnd (.coSet h))) (.iteSnd (.idxDone h) (.iteSnd (.idxDone h) (.startCopy (.lcSweep (.foldl
    (.coSet h) fun _ _ h1 => .ncInvalidate h1))))))))))
theorem idxImage {c hx j} (h : s0.Keeps s) : s0.Keeps (s.idxImage c hx j) :=
  .ite (.idxDone (.modHnd h)) (.ite (.idxDone (.readRoot (.residCheck (.modHnd (.modHnd h))))) (.startCopy (.modHnd (.modHnd h))))
theorem idxProgress {hx} (h : s0.Keeps s) : s0.Keeps (s.idxProgress hx).1 :=
  .iteFst h (.iteFst (.idxDone (.residCheck (.modHnd h))) (.iteFst (.idxDone (.residCheck (.modTile (.modHnd h)))) (.modHnd h)))
theorem rootRead {hx id j} (h : s0.Keeps s) : s0.Keeps (s.rootRead hx id j) := .ite h (.modHnd h)
theorem refitHeld {hx} (h : s0.Keeps s) : s0.Keeps (s.refitHeld hx) := .ite (.idxDone (.modHnd h)) h
theorem pinExtend (h : s0.Keeps s) : s0.Keeps s.pinExtend := by
  unfold State.pinExtend
  dsimp only
  split
  · exact h
  · refine .pinCopy (.modHnd ?_)
    split
    · exact h
    · exact .foldl h fun _ _ h1 => .modHnd h1
theorem takeUnits {n} (h : s0.Keeps s) : s0.Keeps (State.takeUnits n s) := by
  induction n generalizing s with
  | zero => exact h
  | succ n ih =>
    unfold State.takeUnits
    split
    · exact h
    · exact ih (.pinTrim h)

/-! ### Power.lean -/

theorem sendPeer {q} (h : s0.Keeps s) : s0.Keeps (s.sendPeer q) := .ite h (.sendRing h)
theorem askStore {seg data} (h : s0.Keeps s) : s0.Keeps (s.askStore seg data) := .sendPeer (.modRing h)
theorem askVreg {mv} (h : s0.Keeps s) : s0.Keeps (s.askVreg mv) := .sendPeer (.modRing h)
theorem resendPeers (h : s0.Keeps s) : s0.Keeps s.resendPeers := by
  unfold State.resendPeers
  dsimp only
  split
  · refine .sendPeer (.modRing ?_)
    split
    · exact .sendPeer (.modRing h)
    · exact h
  · split
    · exact .sendPeer (.modRing h)
    · exact h
theorem storeNext (h : s0.Keeps s) : s0.Keeps s.storeNext := by
  unfold State.storeNext
  split
  · exact .askStore (.modRing h)
  · exact h
theorem logWrite {segs jhead} (h : s0.Keeps s) : s0.Keeps (s.logWrite segs jhead) := .ite h (.storeNext (.modRing (.modPwr h)))
theorem logJournal {kind segs} (h : s0.Keeps s) : s0.Keeps (s.logJournal kind segs) := .logWrite (.draw h)
theorem logWithdrawal {b} (h : s0.Keeps s) : s0.Keeps (s.logWithdrawal b) := .logJournal h
theorem setMstatus (h : s0.Keeps s) : s0.Keeps s.setMstatus := .oSet h
theorem marginChanged (h : s0.Keeps s) : s0.Keeps s.marginChanged := .stateEvent (.logJournal (.setMstatus h))
theorem planStep {fuel} (h : s0.Keeps s) : s0.Keeps (State.planStep fuel s) := by
  induction fuel generalizing s with
  | zero => exact h
  | succ f ih =>
    have freq : ∀ nf, s0.Keeps (State.planStep f (((s.oSet 0x6000 7 nf).modPwr (fun p => { p with plan := max 500 (800 - 25 * nf) })).marginChanged.raise 0x5700 2
        ((s.oSet 0x6000 7 nf).modPwr (fun p => { p with plan := max 500 (800 - 25 * nf) })).pwr.plan)) :=
      fun nf => ih (.raise (.marginChanged (.modPwr (.oSet h))))
    exact .ite h (.ite (.askVreg h) (.ite (.ite (freq _) h) (.ite (.ite (freq _) h) (.ite (.askVreg h) h))))
theorem plan (h : s0.Keeps s) : s0.Keeps s.plan := .planStep h
theorem replan (h : s0.Keeps s) : s0.Keeps s.replan := .ite (.plan h) h
theorem reguard (h : s0.Keeps s) : s0.Keeps s.reguard := .ite (.setMstatus h) (.stateEvent (.raise (.setMstatus (.oSet h))))
theorem storeFail {offset} (h : s0.Keeps s) : s0.Keeps (s.storeFail offset) := .reguard (.raise (.modRing h))
theorem probeLog {birth} (h : s0.Keeps s) : s0.Keeps (s.probeLog birth) := .ite h (.logJournal h)
theorem probe {su first birth} (h : s0.Keeps s) : s0.Keeps (s.probe su first birth) :=
  .ite (.ite (.plan (.setMstatus (.modPwr (.oSet (.oSet (.foldl h fun _ _ h1 => .oSet (.ite (.oSet (.modPwr (.ite (.probeLog (.raise
    (.modPwr h1))) h1))) (.modPwr (.ite (.probeLog (.raise (.modPwr h1))) h1))))))))) (.setMstatus (.modPwr (.oSet (.oSet (.foldl h
    fun _ _ h1 => .oSet (.ite (.oSet (.modPwr (.ite (.probeLog (.raise (.modPwr h1))) h1))) (.modPwr (.ite (.probeLog (.raise
    (.modPwr h1))) h1))))))))) (.ite (.ite (.setMstatus (.oSet (.modPwr (.oSet (.oSet (.foldl h fun _ _ h1 => .oSet (.ite (.oSet (.modPwr
    (.ite (.probeLog (.raise (.modPwr h1))) h1))) (.modPwr (.ite (.probeLog (.raise (.modPwr h1))) h1))))))))) (.marginChanged (.oSet
    (.modPwr (.oSet (.oSet (.foldl h fun _ _ h1 => .oSet (.ite (.oSet (.modPwr (.ite (.probeLog (.raise (.modPwr h1))) h1))) (.modPwr
    (.ite (.probeLog (.raise (.modPwr h1))) h1)))))))))) (.plan (.ite (.setMstatus (.oSet (.modPwr (.oSet (.oSet (.foldl h
    fun _ _ h1 => .oSet (.ite (.oSet (.modPwr (.ite (.probeLog (.raise (.modPwr h1))) h1))) (.modPwr (.ite (.probeLog (.raise
    (.modPwr h1))) h1))))))))) (.marginChanged (.oSet (.modPwr (.oSet (.oSet (.foldl h fun _ _ h1 => .oSet (.ite (.oSet (.modPwr (.ite
    (.probeLog (.raise (.modPwr h1))) h1))) (.modPwr (.ite (.probeLog (.raise (.modPwr h1))) h1))))))))))))
theorem closeBypass (h : s0.Keeps s) : s0.Keeps s.closeBypass := .modRing h
theorem ringClear (h : s0.Keeps s) : s0.Keeps s.ringClear := .modRing (.oSet (.oSet h))
theorem ringReset (h : s0.Keeps s) : s0.Keeps s.ringReset := .raise (.oSet (.ringClear (.closeBypass h)))
theorem newChallenge (h : s0.Keeps s) : s0.Keeps s.newChallenge := .setChallenge (.draw h)
theorem loseMain (h : s0.Keeps s) : s0.Keeps s.loseMain := by
  refine h.trans ⟨rfl, fun c => ?_⟩
  rw [canon_iff] at c ⊢
  obtain ⟨c0, -, -, -, -, -, -, -, c8, -⟩ := c
  have rs : tcanon {} s.loseMain.rs = true := by
    simp only [tcanon, Bool.and_eq_true, List.all_eq_true] at c8 ⊢
    refine ⟨tsorted_map _ (fun _ => rfl) (tsorted_filter _ c8.1), fun e he => ?_⟩
    obtain ⟨_, -, rfl⟩ := List.mem_map.mp he
    exact (by decide : decide (({ retired := true } : Entry) ≠ {}) = true)
  exact ⟨obj_canon_filter _ c0, rfl, rfl, rfl, rfl, rfl, rfl, rfl, rs, rfl, rfl, rfl⟩
theorem toHold (h : s0.Keeps s) : s0.Keeps s.toHold := .ite (.loseMain h) (.enter (.oSet (.oSet (.oSet (.oSet (.loseMain h))))))
theorem startDrain {what cmd} (h : s0.Keeps s) : s0.Keeps (s.startDrain what cmd) := .enter (.modPwr h)
theorem leaveDrain (h : s0.Keeps s) : s0.Keeps s.leaveDrain := .enter (.modPwr (.ite (.oSet h) h))
theorem wakeEvent (h : s0.Keeps s) : s0.Keeps s.wakeEvent := .ite (.leaveDrain h) (.ite (.modPwr h) h)
theorem powerCmd {code} (h : s0.Keeps s) : s0.Keeps (s.powerCmd code).2 :=
  .iteSnd h (.iteSnd (.iteSnd (.startDrain (.oSet h)) (.iteSnd (.oSet h) (.oSet h))) (.iteSnd (.iteSnd (.modPwr (.oSet h)) (.iteSnd
    (.wakeEvent (.oSet h)) (.iteSnd (.oSet h) (.oSet h)))) (.iteSnd (.iteSnd (.iteSnd (.startDrain (.oSet h)) (.oSet h)) (.iteSnd (.iteSnd
    (.modPwr (.oSet h)) (.oSet h)) (.oSet h))) (.oSet h))))
theorem holdDone (h : s0.Keeps s) : s0.Keeps s.holdDone := .ite (.toHold h) h
theorem quiesce (h : s0.Keeps s) : s0.Keeps s.quiesce := .ite (.ite (.modPwr h) (.holdDone (.logWrite (.modPwr (.lcSweep h))))) h
theorem sleepEntry (h : s0.Keeps s) : s0.Keeps s.sleepEntry := .ite (.enter (.began (.oSet (.modPwr (.ite (.oSet h) h))))) h
theorem wakeDone (h : s0.Keeps s) : s0.Keeps s.wakeDone :=
  .ite (.ite (.startDrain (.modPwr (.enter (.oSet (.oInc (.modPwr h)))))) (.plan (.ite (.oSet (.enter (.oSet (.oInc (.modPwr h)))))
    (.enter (.oSet (.oInc (.modPwr h))))))) h
theorem wakeBob {b} (h : s0.Keeps s) : s0.Keeps (s.wakeBob b) := by
  unfold State.wakeBob
  split
  · exact .modBob h
  · exact .modBob h
  · exact .ite (.modBob h) h
theorem gateBob {b} (h : s0.Keeps s) : s0.Keeps (s.gateBob b) := .oInc (.modBob (.filterRsEng (.foldl h fun _ _ h1 => .lockDrop h1)))
theorem consolidate (h : s0.Keeps s) : s0.Keeps s.consolidate := by
  refine .ite h (.ite (.foldl h fun _ _ h1 => .ite (.wakeBob h1) h1) (.ite ?_ (.ite ?_ h)))
  · split
    · exact .ite (.modBob h) h
    · exact h
  · split
    · exact .wakeBob h
    · exact h
theorem thermal {tj} (h : s0.Keeps s) : s0.Keeps (s.thermal tj) :=
  .ite (.ite (.oSet h) (.ite (.raise (.modPwr (.ite (.raise (.modPwr (.oSet h))) (.ite (.modPwr (.oSet h)) (.oSet h))))) (.ite (.modPwr
    (.ite (.raise (.modPwr (.oSet h))) (.ite (.modPwr (.oSet h)) (.oSet h)))) (.ite (.raise (.modPwr (.oSet h))) (.ite (.modPwr (.oSet h))
    (.oSet h)))))) h
theorem clkStep (h : s0.Keeps s) : s0.Keeps s.clkStep := .ite (.plan (.oSet h)) h

/-! ### Start.lean -/

theorem stagePart (h : s0.Keeps s) : s0.Keeps s.stagePart := .oSet (.oSet (.oSet (.oSet (.oSet h))))
theorem startFail {step detail} (h : s0.Keeps s) : s0.Keeps (s.startFail step detail) := by
  unfold State.startFail
  split
  · exact h
  · exact .loseMain (.ite (.logJournal (.raise (.oSet (.oSet (.ite (.oSet h) h))))) (.raise (.oSet (.oSet (.ite (.oSet h) h)))))
theorem startRun {g} (h : s0.Keeps s) : s0.Keeps (s.startRun g) :=
  .plan (.ite (.enter (.modPwr (.oSet (.oSet (.oSet (.foldl h fun _ _ h1 => .ite (.modBob h1) h1)))))) (.logWrite (.enter (.modPwr (.oSet
    (.oSet (.oSet (.foldl h fun _ _ h1 => .ite (.modBob h1) h1))))))))
theorem start10 {g} (h : s0.Keeps s) : s0.Keeps (s.start10 g) :=
  .ite (.startFail (.foldl (.stagePart (.setPart h)) fun _ _ h1 => .logWithdrawal (.oSet h1))) (.startRun (.foldl (.stagePart
    (.setPart h)) fun _ _ h1 => .logWithdrawal (.oSet h1)))
theorem start9 {g} (h : s0.Keeps s) : s0.Keeps (s.start9 g) :=
  .ite (.start10 h) (.ite (.startFail h) (.start10 (.ite (.foldl (.logWrite (.probe (.oSet h))) fun _ _ h1 => .logJournal h1) (.logWrite
    (.probe (.oSet h))))))
theorem portFail {p m} (h : s0.Keeps s) : s0.Keeps (s.portFail p m) :=
  .foldl (.foldl (.drainAfter (.foldl (.modPort (.ite (.raise (.oSet (.oSet (.modPort (.raise h))))) (.oSet (.modPort (.raise h)))))
    fun _ _ h1 => .failReq h1)) fun _ _ h1 => .send h1) fun _ _ h1 => .getD (fun _ e => .sendSeam h1 e) (.resultSent h1)
theorem advertise {sp} (h : s0.Keeps s) : s0.Keeps (s.advertise sp) := .foldl h fun _ _ h1 => .setOut h1
theorem start8 {g} (h : s0.Keeps s) : s0.Keeps (s.start8 g) := by
  refine .ite (.startFail (.foldl h fun _ _ h1 => ?_)) (.start9 (.modPwr (.foldl (.foldl h fun _ _ h1 => ?_) fun _ _ h1 => .ite
      (.advertise h1) h1)))
  · split
    · exact .began (.oSet h1)
    · exact .raise (.began (.oSet h1))
    · exact .portFail h1
  · split
    · exact .began (.oSet h1)
    · exact .raise (.began (.oSet h1))
    · exact .portFail h1
theorem start6 {g} (h : s0.Keeps s) : s0.Keeps (s.start6 g) := by
  have h1 : s0.Keeps (if g.warm then s else ({ s with rs := [] }.oSet 0x4330 0x0A 0).modTile (fun t =>
      { t with retired := t.retired ++ g.env.badLines.filter (fun l => !t.retired.contains l),
               wayErrs := [], lostUnits := 0, lostSlots := [], lostChunks := 0, chunkOld := [], lostPages := 0, pageOld := [], lcOff := [] })) :=
    .ite h (.modTile (.oSet (.clearRs h)))
  exact .ite (.startFail (.oSet (.oSet (.ite h1 (.oSet (.oSet h1)))))) (.start8 (.oSet (.oSet (.ite h1 (.oSet (.oSet h1))))))
theorem start5b {g} (h : s0.Keeps s) : s0.Keeps (s.start5b g) := by
  unfold State.start5b
  dsimp only
  split
  · exact .startFail (.setMstatus (.modPwr (.oSet h)))
  · exact .start6 (.setMstatus (.modPwr (.oSet h)))
theorem vregFail {mv} (h : s0.Keeps s) : s0.Keeps (s.vregFail mv) := .modPwr (.raise (.modRing h))
theorem start5 {g} (h : s0.Keeps s) : s0.Keeps (s.start5 g) :=
  .ite (.start5b (.oSet (.modPwr (.reguard (.modPwr h))))) (.askVreg (.modPwr (.reguard (.modPwr h))))
theorem useLog (h : s0.Keeps s) : s0.Keeps s.useLog :=
  .ite (.modTile (.foldl (.oSet (.oSet (.oSet (.oSet (.modPwr (.oSet (.oSet (.oSet h)))))))) fun _ _ h1 => .oSet h1)) (.modTile (.modPwr
    (.oSet (.oSet (.oSet (.oSet h))))))
theorem start4 {g} (h : s0.Keeps s) : s0.Keeps (s.start4 g) :=
  .ite (.start5 h) (.ite (.start5 (.useLog (.storeFail (.modRing h)))) (.askStore (.modPwr (.modRing h))))
theorem start1 {g} (h : s0.Keeps s) : s0.Keeps (s.start1 g) := by
  refine .ite (.startFail h) (.ite (.modPwr h) ?_)
  split
  · exact .startFail h
  · dsimp only
    split
    · exact .startFail (.ite h (.oSet (.oSet (.oSet h))))
    · exact .start4 (.ite h (.oSet (.oSet (.oSet h))))
theorem startBegin {askedWarm env commanded} (h : s0.Keeps s) : s0.Keeps (s.startBegin askedWarm env commanded) :=
  .start1 (.modPwr (.began (.oSet (.filterObj h))))
theorem startCmd {code env} (h : s0.Keeps s) : s0.Keeps (s.startCmd code env).2 :=
  .iteSnd h (.iteSnd (.oSet h) (.iteSnd (.oSet h) (.startBegin h)))
theorem autoStart {env} (h : s0.Keeps s) : s0.Keeps (s.autoStart env) := .ite (.startBegin h) h
theorem vddOn (h : s0.Keeps s) : s0.Keeps s.vddOn := .ite h (.stateEvent (.raise (.newChallenge (h.trans ⟨rfl, fun _ => rfl⟩))))
theorem vddOff (h : s0.Keeps s) : s0.Keeps s.vddOff := h.trans ⟨rfl, fun _ => rfl⟩
theorem pwrokFall (h : s0.Keeps s) : s0.Keeps s.pwrokFall :=
  .ite (.modPwr h) (.toHold (.newChallenge (.ringReset (.ite (.oSet (.modPwr h)) (.modPwr h)))))
theorem rstAssert (h : s0.Keeps s) : s0.Keeps s.rstAssert :=
  .ite (.modPwr h) (.toHold (.newChallenge (.ringClear (.closeBypass (.ite (.oSet (.modPwr h)) (.modPwr h))))))
theorem rstDeassert {env} (h : s0.Keeps s) : s0.Keeps (s.rstDeassert env) := .ite (.autoStart (.modPwr h)) (.modPwr h)
theorem pwrokRise {env} (h : s0.Keeps s) : s0.Keeps (s.pwrokRise env) := .ite (.autoStart (.modPwr h)) (.modPwr h)
theorem resetPulse (h : s0.Keeps s) : s0.Keeps s.resetPulse := .ite (.rstDeassert (.setFree (.rstAssert h))) (.rstAssert h)
theorem storeAnswer {q ok data} (h : s0.Keeps s) : s0.Keeps (s.storeAnswer q ok data) := by
  unfold State.storeAnswer
  dsimp only
  split
  · exact .ite (.ite (.ite (.start5 (.useLog (.modPwr (.modRing h)))) (.askStore (.modPwr (.modPwr (.modRing h))))) (.start5 (.useLog
        (.storeFail (.modRing h))))) (.ite (.holdDone (.storeNext (.modRing h))) (.holdDone (.storeFail (.modRing h))))
  · exact .ite (.holdDone (.storeNext (.modRing h))) (.holdDone (.plan (.storeFail (.modRing h))))
theorem vregAnswer {q ok} (h : s0.Keeps s) : s0.Keeps (s.vregAnswer q ok) := by
  refine .ite (.raise (.modPwr (.oSet (.modRing h)))) ?_
  dsimp only
  split
  · exact .start5b (.oSet (.vregFail h))
  · exact .plan (.vregFail h)
theorem settled (h : s0.Keeps s) : s0.Keeps s.settled := by
  refine .ite ?_ h
  dsimp only
  split
  · exact .ite (.start5b (.oSet (.modPwr h))) (.oSet (.modPwr h))
  · exact .plan (.marginChanged (.oSet (.modPwr h)))
theorem peerResp {f} (h : s0.Keeps s) : s0.Keeps (s.peerResp f) := by
  unfold State.peerResp
  split
  · refine .ite (.storeAnswer h) ?_
    split
    · exact .ite (.vregAnswer h) h
    · exact h
  · exact .ite (.vregAnswer h) h
  · exact h
theorem peerTimeout {svc} (h : s0.Keeps s) : s0.Keeps (s.peerTimeout svc) := by
  unfold State.peerTimeout
  dsimp only
  split
  · split
    · exact h
    · exact .ite (.sendPeer (.modRing (.oInc h))) (.storeAnswer (.oInc h))
  · split
    · exact h
    · exact .ite (.sendPeer (.modRing (.oInc h))) (.vregAnswer (.oInc h))
theorem probeReading {su} (h : s0.Keeps s) : s0.Keeps (s.probeReading su) := .ite (.probe (.oAdd h)) h
theorem logUpdate (h : s0.Keeps s) : s0.Keeps s.logUpdate := .ite (.logWrite h) h
theorem tapSet {n} (h : s0.Keeps s) : s0.Keeps (s.tapSet n) := by
  unfold State.tapSet
  dsimp only
  split
  · exact .ite (.start1 (.modPwr h)) (.modPwr h)
  · exact .modPwr h

/-! ### Maint.lean -/

theorem shiftGo {p} (h : s0.Keeps s) : s0.Keeps (s.shiftGo p) := .lcFlush (.modTile (.takeUnits h))
theorem partCmd {code} (h : s0.Keeps s) : s0.Keeps (s.partCmd code).2 :=
  .iteSnd h (.iteSnd (.iteSnd (.oSet h) (.iteSnd (.oSet h) (.lcFlush (.modTile (.oSet h))))) (.iteSnd (.iteSnd (.oSet h) (.iteSnd
    (.oSet h) (.iteSnd (.modTile (.oSet h)) (.shiftGo (.oSet h))))) (.oSet h)))
theorem clearRegions (h : s0.Keeps s) : s0.Keeps s.clearRegions := by
  refine h.trans ⟨rfl, fun c => ?_⟩
  rw [canon_iff] at c ⊢
  obtain ⟨c0, c1, c2, c3, c4, c5, -, -, c8⟩ := c
  exact ⟨c0, c1, tcanon_map_filter _ (fun _ => rfl) c2, tcanon_map_filter _ (fun _ => rfl) c3, c4, c5, rfl, rfl, c8⟩
theorem partDone (h : s0.Keeps s) : s0.Keeps s.partDone := by
  unfold State.partDone
  split
  · exact .ite h (.logJournal (.raise (.oSet (.stagePart (.modTile (.ite (.clearRegions (.setLcPart h)) (.setLcPart h)))))))
  · split
    · exact .ite h (.shiftGo h)
    · exact h
theorem partAuto (h : s0.Keeps s) : s0.Keeps s.partAuto :=
  .ite h (.ite (.modPwr h) (.ite (.ite (.raise (.modPwr (.partCmd (.oSet (.oSet (.modPwr h)))))) (.partCmd (.oSet (.oSet (.modPwr h)))))
    (.ite (.ite (.raise (.modPwr (.partCmd (.oSet (.oSet (.modPwr h)))))) (.partCmd (.oSet (.oSet (.modPwr h))))) (.modPwr h))))
theorem mtBegin {count fills} (h : s0.Keeps s) : s0.Keeps (s.mtBegin count fills) := .modTile (.oSet (.oSet h))
theorem modMaint {f} (h : s0.Keeps s) : s0.Keeps (s.modMaint f) := .modTile h
theorem mtSweep {wb inv} (h : s0.Keeps s) : s0.Keeps (s.mtSweep wb inv).1 := by
  have bobs : s0.Keeps (if inv && s.mtTarget != 1 then
      s.mtBobs.foldl (fun (acc : State × Nat) b =>
        let r := acc.1.ncInvalidate b (fun k w => s.mtHits k w.way w.port w.line)
        (r.1, acc.2 + r.2)) (s, 0)
      else (s, 0)).1 := by
    split
    · exact .foldlFst h fun _ _ h1 => .ncInvalidate h1
    · exact h
  refine .iteFst ?_ bobs
  dsimp only at bobs ⊢
  exact .lcSweep bobs
theorem lockLine {b c x va u ok} (h : s0.Keeps s) (e : s.lockLine b c x va = Option.some (u, ok)) : s0.Keeps u := by
  have h1 : s0.Keeps (if (s.bobOf b).clock = 1 then s.wakeBob b else s) := .ite (.wakeBob h) h
  unfold State.lockLine at e
  dsimp only at e
  generalize (if (s.bobOf b).clock = 1 then s.wakeBob b else s) = v at e h1
  repeat' split at e
  all_goals cases e
  · exact h
  · exact .windowFault h1
  · exact h1
  · exact .modNc h1
  · exact .oInc h1
  · exact .ncFill h1
  · exact .ncFill h1
  · exact .oInc h1
theorem lockWork {c todo} (h : s0.Keeps s) : s0.Keeps (s.lockWork c todo).1 := by
  refine .foldlFst h fun u e h1 => ?_
  split
  · exact .ite h1 (.wakeBob h1)
  · exact .ite (.oSet (.lockLine h1 ‹_›)) (.lockLine h1 ‹_›)
theorem lockVisit {m v} (h : s0.Keeps s) : s0.Keeps (s.lockVisit m v) := by
  unfold State.lockVisit
  split
  · exact h
  · exact .ite (.modMaint h) (.modMaint (.lockWork h))
theorem lockNext {fuel} (h : s0.Keeps s) : s0.Keeps (State.lockNext fuel s) := by
  induction fuel generalizing s with
  | zero => exact h
  | succ f ih =>
    unfold State.lockNext
    split
    · exact h
    · refine .ite h ?_
      split
      · exact h
      · dsimp only
        split
        · exact ih (.modMaint h)
        · exact .ite (ih (.modMaint h)) (.ite (ih (.lockVisit h)) (.startJob (.modMaint h)))
theorem lockRead {j} (h : s0.Keeps s) : s0.Keeps (s.lockRead j) := by
  unfold State.lockRead
  split
  · exact h
  · exact .ite h (.lockNext (.ite (.lockVisit h) (.modMaint h)))
theorem mtCmd {code} (h : s0.Keeps s) : s0.Keeps (s.mtCmd code).2 := by
  refine .iteSnd h (.iteSnd (.oSet h) (.iteSnd (.oSet h) ?_))
  dsimp only
  split
  · exact .mtBegin (.mtSweep h)
  · exact .mtBegin (.mtSweep h)
  · exact .mtBegin (.mtSweep h)
  · exact .modMaint (.lockWork (.mtBegin h))
  · exact .mtBegin (.foldlFst h fun _ _ h1 => .foldlFst h1 fun _ _ h2 => .foldlFst h2 fun _ _ h3 => .iteFst (.modNc h3) h3)
  · exact .lockNext (.modMaint (.mtBegin h))
theorem maintDone (h : s0.Keeps s) : s0.Keeps s.maintDone := by
  unfold State.maintDone
  split
  · exact h
  · dsimp only
    split
    · exact .lockNext (.modMaint (.lockWork h))
    · exact .ite (.lockNext (.modMaint (.lockWork h))) (.raise (.oSet (.oSet (.modTile (.lockNext (.modMaint (.lockWork h)))))))
theorem cacheCtl {v} (h : s0.Keeps s) : s0.Keeps (s.cacheCtl v).2 := .iteSnd h (.oSet h)
theorem lockWays {n} (h : s0.Keeps s) : s0.Keeps (s.lockWays n) := .foldl (.oSet h) fun _ _ h1 => .setNc h1

/-! ### Pleater.lean -/

theorem bell {c st v} (h : s0.Keeps s) : s0.Keeps (s.bell c st v) := .ite (.raise h) (.ite h (.ite (.modSt h) (.raise h)))
theorem headStep {c st fuel} (h : s0.Keeps s) : s0.Keeps (State.headStep c st fuel s) := by
  induction fuel generalizing s with
  | zero => exact h
  | succ f ih => exact .ite h (.ite h (ih (.modSt h)))
theorem advanceHead {c st} (h : s0.Keeps s) : s0.Keeps (s.advanceHead c st) := .ite (.headStep h) (.modSt h)
theorem entryDone {c st} (h : s0.Keeps s) : s0.Keeps (s.entryDone c st) := .advanceHead (.modSt h)
theorem modBin {i f} (h : s0.Keeps s) : s0.Keeps (s.modBin i f) := .modTile h
theorem toEscape {k} (h : s0.Keeps s) : s0.Keeps (s.toEscape k) := .ite (.raise (.oInc (.modQ (.modBin h)))) (.oInc (.modQ (.modBin h)))
theorem toBin {k} (h : s0.Keeps s) : s0.Keeps (s.toBin k) := .ite (.ite (.modQ (.modBin h)) (.oInc (.modQ (.modBin h)))) (.toEscape h)
theorem insert {k src} (h : s0.Keeps s) : s0.Keeps (s.insert k src) := by
  refine .ite (.modTile (.modQ (.ite (.oInc h) h))) (.ite (.modTile (.modQ (.ite (.oInc h) h))) (.ite ?_ (.toBin (.modQ (.modQ (.tick
      (.ite (.oInc h) h)))))))
  split
  · exact .toBin (.modQ (.modQ (.tick (.ite (.oInc h) h))))
  · exact .startJob (.modQ (.modQ (.tick (.ite (.oInc h) h))))
theorem binKeyed {k} (h : s0.Keeps s) : s0.Keeps (s.binKeyed k) := .ite (.modTile h) (.toBin (.modQ h))
theorem keyRead {k uid j} (h : s0.Keeps s) : s0.Keeps (s.keyRead k uid j) := .ite (.binKeyed (.modQ h)) h
theorem keyRetry (h : s0.Keeps s) : s0.Keeps s.keyRetry := .foldl (.ite h (.modTile h)) fun _ _ h1 => .binKeyed h1
theorem unchunk {ks} (h : s0.Keeps s) : s0.Keeps (s.unchunk ks) := .ite h (.modTile h)
theorem unbin {k} (h : s0.Keeps s) : s0.Keeps (s.unbin k) := .modTile (.foldl (.unchunk h) fun _ _ h1 => .modBin h1)
theorem interval (h : s0.Keeps s) : s0.Keeps s.interval :=
  .ite h (.ite (.modTile (.iteSnd (.draw h) h)) (.ite (.oInc (.modTile (.iteSnd (.draw h) h))) (.modTile (.modTile (.iteSnd (.draw h) h)))))
theorem schemeDecision (h : s0.Keeps s) : s0.Keeps s.schemeDecision := by
  unfold State.schemeDecision
  split
  · exact h
  · dsimp only
    repeat' split
    all_goals exact .oSet (.modTile h)

/-! ### Admit.lean -/

theorem refuse {r status cnt n} (h : s0.Keeps s) : s0.Keeps (s.refuse r status cnt n) := .ite (.unrecovered (.slotless h)) (.slotless h)
theorem checkFault {c st status} (h : s0.Keeps s) : s0.Keeps (s.checkFault c st status) := .ite (.windowFault h) h
theorem takeCharged {r n} (h : s0.Keeps s) : s0.Keeps (State.takeCharged r n s).1 := by
  induction n generalizing s with
  | zero => exact h
  | succ n ih => exact ih (.modQ h)
theorem allocate {r desc n traceAddr traceCap bell plain} (h : s0.Keeps s) :
    s0.Keeps (s.allocate r desc n traceAddr traceCap bell plain).1 :=
  .modTile (.oInc (.modQ (.takeCharged (.modQ (.tick (.iteSnd (.draw h) h))))))
theorem admitPlain {c st e} (h : s0.Keeps s) : s0.Keeps (s.admitPlain c st e) := by
  unfold State.admitPlain
  dsimp only
  split
  · exact .entryDone (.refuse (.checkFault h))
  · exact .ite h (.entryDone (.insert (.allocate h)))
theorem genBegin {c st} (h : s0.Keeps s) : s0.Keeps (s.genBegin c st) := by
  refine .ite h ?_
  split
  · exact h
  · refine .ite h (.ite (.entryDone (.refuse h)) (.ite h ?_))
    split
    · exact .entryDone (.refuse (.checkFault h))
    · exact .ite (.startJob (.modSt h)) (.modSt h)
theorem shotRead {c st j} (h : s0.Keeps s) : s0.Keeps (s.shotRead c st j) := by
  unfold State.shotRead
  split
  · exact h
  · exact .ite h (.ite (.entryDone (.refuse h)) (.ite (.entryDone (.refuse h)) (.ite (.entryDone (.refuse h)) (.modSt h))))
theorem genStep {c st g} (h : s0.Keeps s) : s0.Keeps (s.genStep c st g) := by
  refine .ite h (.ite (.ite (.modSt (.tick (.refuse h))) (.entryDone (.refuse h))) ?_)
  split
  · exact .ite (.modSt (.tick (.refuse (.checkFault h)))) (.entryDone (.refuse (.checkFault h)))
  · exact .ite h (.ite (.modSt (.tick (.insert (.allocate h)))) (.entryDone (.insert (.allocate h))))
theorem admission {c st} (h : s0.Keeps s) : s0.Keeps (s.admission c st) := by
  refine .ite h ?_
  split
  · exact .genStep h
  · split
    · exact h
    · split
      · exact .entryDone (.ite (.unrecovered (.slotlessRec h)) (.slotlessRec h))
      · exact .ite h (.ite (.entryDone (.refuse h)) (.ite h (.admitPlain h)))
theorem generate (h : s0.Keeps s) : s0.Keeps s.generate := by
  refine .ite h ?_
  dsimp only
  split
  · exact h
  · exact .admission (.modTile h)
theorem fetch (h : s0.Keeps s) : s0.Keeps s.fetch := by
  unfold State.fetch
  split
  · exact h
  · exact .foldl (.modSt (.modTile h)) fun _ _ h1 => .startJob h1
theorem fetched {c st ep bell first cnt j} (h : s0.Keeps s) : s0.Keeps (s.fetched c st ep bell first cnt j) :=
  .ite (.modSt (.tick (.began (.began h)))) (.ite h (.modSt (.tick (.began (.began h)))))
theorem contStart {k} (h : s0.Keeps s) : s0.Keeps (s.contStart k) := .ite (.startJob (.modQ h)) h
theorem contBuilt {k uid j} (h : s0.Keeps s) : s0.Keeps (s.contBuilt k uid j) := by
  refine .ite h (.foldl (.modTile h) fun _ _ h1 => ?_)
  dsimp only
  split
  · exact .endSlot (.quotaCheck (.modQ (.tick h1)))
  · split
    · exact .completeEmpty (.checkFault (.quotaCheck (.modQ (.tick h1))))
    · exact .oInc (.insert (.quotaCheck (.modQ (.tick h1))))

/-! ### Release.lean -/

theorem load {k b e} (h : s0.Keeps s) : s0.Keeps (s.load k b e) :=
  .ite (.ite (.raise (.oInc (.oInc (.oInc (.ite (.ite (.modBob (.modQ (.modEnt (.tick h)))) (.setFree (.modBob (.modQ (.modEnt
    (.tick h)))))) (.oInc (.ite (.modBob (.modQ (.modEnt (.tick h)))) (.setFree (.modBob (.modQ (.modEnt (.tick h)))))))))))) (.oInc
    (.oInc (.ite (.ite (.modBob (.modQ (.modEnt (.tick h)))) (.setFree (.modBob (.modQ (.modEnt (.tick h)))))) (.oInc (.ite (.modBob
    (.modQ (.modEnt (.tick h)))) (.setFree (.modBob (.modQ (.modEnt (.tick h))))))))))) (.oInc (.ite (.ite (.modBob (.modQ (.modEnt
    (.tick h)))) (.setFree (.modBob (.modQ (.modEnt (.tick h)))))) (.oInc (.ite (.modBob (.modQ (.modEnt (.tick h)))) (.setFree (.modBob
    (.modQ (.modEnt (.tick h)))))))))
theorem ripen {i} (h : s0.Keeps s) : s0.Keeps (s.ripen i) := .ite h (.modBin h)
theorem tookPlaces {cs c n} (h : s0.Keeps s) : s0.Keeps (s.tookPlaces cs c n) := .ite h (.modTile h)
theorem sendBatch {i b ks} (h : s0.Keeps s) : s0.Keeps (s.sendBatch i b ks) := by
  refine .oInc (.foldl (.modBin (.unchunk h)) fun _ _ h1 => ?_)
  split
  · exact .load h1
  · exact .toBin h1
theorem release (h : s0.Keeps s) : s0.Keeps s.release := by
  refine .ite h ?_
  dsimp only
  split
  · exact h
  · split
    · exact h
    · refine .ite (.endSlot (.modBin (.unchunk h))) ?_
      split
      · exact h
      · exact .ite (.ite h (.tookPlaces (.sendBatch h))) (.modBin (.wakeBob h))
theorem cl0Load (h : s0.Keeps s) : s0.Keeps (s.cl0Load).1 := by
  unfold State.cl0Load
  split
  · exact h
  · refine .iteFst h (.iteFst (.endSlot (.modTile h)) ?_)
    split
    · split
      · exact .load (.modTile h)
      · exact h
    · refine .iteFst h ?_
      split
      · exact .wakeBob h
      · split
        · exact .wakeBob h
        · exact h
theorem spillClear {c wasFull} (h : s0.Keeps s) : s0.Keeps (s.spillClear c wasFull) := .ite (.oSet h) h
theorem spillFault {c} (h : s0.Keeps s) : s0.Keeps (s.spillFault c) := by
  refine .foldl (.raise (.spillClear (.modCtx h))) fun _ _ h1 => ?_
  split
  · exact .ite (.modTile (.modQ h1)) (.endSlot h1)
  · exact .toEscape (.modQ h1)
theorem spillOne {k} (h : s0.Keeps s) : s0.Keeps (s.spillOne k) := by
  unfold State.spillOne
  dsimp only
  split
  · exact .spillFault (.windowFault (.ite (.raise (.oInc (.modCtx (.modQ (.unbin h))))) (.oInc (.modCtx (.modQ (.unbin h))))))
  · exact .ite (.lcPiece (.ite (.raise (.oInc (.modCtx (.modQ (.unbin h))))) (.oInc (.modCtx (.modQ (.unbin h)))))) (.writeOut (.ite
        (.raise (.oInc (.modCtx (.modQ (.unbin h))))) (.oInc (.modCtx (.modQ (.unbin h))))))
theorem spillWhole {l k} (h : s0.Keeps s) : s0.Keeps (s.spillWhole l k) := by
  refine .ite ?_ h
  split
  · exact .ite (.lcWholeLine h) h
  · exact h
theorem spill (h : s0.Keeps s) : s0.Keeps s.spill := by
  refine .ite (.modTile h) ?_
  dsimp only
  split
  · exact .modTile h
  · exact .foldl (.modTile h) fun _ _ h1 => .ite (.spillOne (.spillWhole h1)) h1
theorem reload_go {c k} (h : s0.Keeps s) : s0.Keeps (State.reload.go s c k) := .startJob (.modCtx h)
theorem reload (h : s0.Keeps s) : s0.Keeps s.reload := by
  unfold State.reload
  dsimp only
  split
  · exact .startJob (.modCtx h)
  · exact .ite (.startJob (.modCtx h)) h
  · exact h
theorem reloaded {c k uid j} (h : s0.Keeps s) : s0.Keeps (s.reloaded c k uid j).1 := by
  refine .iteFst (.modCtx h) (.iteFst (.spillFault (.modCtx h)) (.iteFst (.modCtx h) ?_))
  dsimp only
  split
  · exact .modQ (.spillClear (.oInc (.modCtx h)))
  · exact .toBin (.modQ (.spillClear (.oInc (.modCtx h))))

/-! ### Hem0.lean -/

theorem rbStop {c st} (h : s0.Keeps s) : s0.Keeps (s.rbStop c st) := .ite h (.raise (.modSt h))
theorem rbWait {c st load found} (h : s0.Keeps s) : s0.Keeps (s.rbWait c st load found) := .ite h (.ite (.modSt h) (.ite (.modSt h) h))
theorem pageIn {c st} (h : s0.Keeps s) : s0.Keeps (s.pageIn c st) :=
  .ite (.rbStop (.foldlFst h fun _ _ h1 => .iteFst h1 (.iteFst h1 (.iteFst (.modSt h1) h1)))) (.rbWait (.foldlFst h
    fun _ _ h1 => .iteFst h1 (.iteFst h1 (.iteFst (.modSt h1) h1))))
theorem traceOut {k l} (h : s0.Keeps s) : s0.Keeps (s.traceOut k l) := by
  unfold State.traceOut
  split
  · exact h
  · exact .modQ (.foldl h fun _ _ h1 => .ite (.oInc (.modQ (.traceWrite h1))) h1)
theorem sendRecs {k l} (h : s0.Keeps s) : s0.Keeps (s.sendRecs k l) := by
  unfold State.sendRecs
  dsimp only
  split
  · exact h
  · exact .modQ (.foldl h fun _ _ h1 => .answer h1)
theorem releaseOut {k recs samples} (h : s0.Keeps s) : s0.Keeps (s.releaseOut k recs samples) := by
  unfold State.releaseOut
  dsimp only
  split
  · split
    · exact .modQ (.sendRecs (.ite (.modQ h) h))
    · exact .sendRecs (.ite (.modQ h) h)
  · exact .traceOut (.releaseRecs (.ite (.modQ h) h))

/-! ### Walk.lean -/

theorem leave {b e} (h : s0.Keeps s) : s0.Keeps (s.leave b e) := .modEnt h
theorem failEntry {b e st} (h : s0.Keeps s) : s0.Keeps (s.failEntry b e st) := .modEnt h
theorem setItem {b e it} (h : s0.Keeps s) : s0.Keeps (s.setItem b e it) := .modEnt h
theorem endWalk {b e} (h : s0.Keeps s) : s0.Keeps (s.endWalk b e) := by
  refine .ite (.modEnt h) ?_
  split
  · exact .ite (.modEnt (.modEnt h)) (.modEnt h)
  · exact .modEnt h
theorem walkNext {b e} (h : s0.Keeps s) : s0.Keeps (s.walkNext b e) := by
  unfold State.walkNext
  dsimp only
  split
  · exact .setItem (.oAdd (.modEnt h))
  · exact .ite (.endWalk (.oAdd (.modEnt h))) (.oInc (.setItem (.modEnt (.oAdd (.modEnt h)))))
theorem finishAt {b e lvl} (h : s0.Keeps s) : s0.Keeps (s.finishAt b e lvl) := .ite (.endWalk (.modEnt h)) (.walkNext (.modEnt h))
theorem descend {b e lvl l} (h : s0.Keeps s) : s0.Keeps (s.descend b e lvl l) := by
  unfold State.descend
  dsimp only
  split
  · exact .finishAt h
  · exact .setItem (.oAdd (.modEnt h))
theorem visitBox {b e v} (h : s0.Keeps s) : s0.Keeps (s.visitBox b e v) := by
  unfold State.visitBox
  dsimp only
  split
  · exact h
  · exact .ite (.descend (.oInc (.modEnt h))) (.failEntry (.oInc (.modEnt h)))
theorem visitInst {b e v} (h : s0.Keeps s) : s0.Keeps (s.visitInst b e v) := by
  unfold State.visitInst
  dsimp only
  split
  · exact h
  · refine .ite (.failEntry (.oInc (.modEnt h))) ?_
    split
    · exact .descend (.modEnt (.oInc (.modEnt h)))
    · exact .finishAt (.oInc (.modEnt h))
theorem entRead {b e a n} (h : s0.Keeps s) : s0.Keeps (s.entRead b e a n).2 := by
  unfold State.entRead
  dsimp only
  split
  · exact .modEnt (.snd ‹_› (.ncRead (.oAdd h)))
  · exact .ncRead (.oAdd h)
theorem entReads {b e a} (h : s0.Keeps s) : s0.Keeps (State.entReads b e a s).2.2 := by
  induction a generalizing s with
  | nil => exact h
  | cons x r ih =>
    obtain ⟨a, n⟩ := x
    unfold State.entReads
    split
    · exact .snd ‹_› (.entRead h)
    · have h1 := Keeps.snd ‹_› (.entRead h)
      split
      · exact .thd ‹_› (ih h1)
      · exact .thd ‹_› (ih h1)
theorem itemRead {b e a n} (h : s0.Keeps s) : s0.Keeps (s.itemRead b e a n).2 := by
  unfold State.itemRead
  dsimp only
  split
  · exact .ite (.oInc (.snd ‹_› (.entRead (.modEnt h)))) (.snd ‹_› (.entRead (.modEnt h)))
  · exact .ite (.oInc (.snd ‹_› (.entRead (.modEnt h)))) (.snd ‹_› (.entRead (.modEnt h)))
theorem parkBack {b e trail next} (h : s0.Keeps s) : s0.Keeps (s.parkBack b e trail next) := by
  unfold State.parkBack
  dsimp only
  split
  · exact h
  · exact .leave (.releaseOut (.modQ h))
theorem toRemote {b e home root lvl} (h : s0.Keeps s) : s0.Keeps (s.toRemote b e home root lvl) := by
  unfold State.toRemote
  dsimp only
  split
  · exact h
  · exact .ite (.failEntry h) (.ite (.rbStop h) (.modQ (.parkBack h)))
theorem tryItem {b e fuel} (h : s0.Keeps s) : s0.Keeps (State.tryItem b e fuel s).1 := by
  induction fuel generalizing s with
  | zero => exact h
  | succ f ih =>
    unfold State.tryItem
    dsimp only
    split
    · exact h
    · split
      · exact .failEntry h
      split
      · exact h
      split
      · exact .snd ‹_› (.itemRead h)
      · exact .failEntry (.snd ‹_› (.itemRead h))
      have h1 := Keeps.snd ‹_› (.itemRead h)
      split
      · split
        · exact .failEntry h1
        · split
          · exact ih (.setItem h1)
          · exact .toRemote h1
      split
      · exact h1
      split
      · exact h1
      split
      · exact .modEnt h1
      split
      · exact h1
      · refine .modEnt ?_
        split
        · exact .modQ h1
        · exact h1
      · exact h1
theorem firstReady {b a} (h : s0.Keeps s) : s0.Keeps (State.firstReady b a s).1 := by
  induction a generalizing s with
  | nil => exact h
  | cons e r ih =>
    unfold State.firstReady
    split
    · exact .fst ‹_› (.tryItem h)
    · exact ih (.fst ‹_› (.tryItem h))
theorem pick {b n} (h : s0.Keeps s) : s0.Keeps (s.pick b n).1 := .iteFst (.firstReady h) h
theorem pickOf {b n p} (h : s0.Keeps s) : s0.Keeps (s.pickOf b n p).1 := by
  unfold State.pickOf
  split
  · split
    · exact .fst ‹_› (.pick h)
    · exact .fst ‹_› (.pick h)
  · exact .pick h
theorem handoff {b e v} (h : s0.Keeps s) : s0.Keeps (s.handoff b e v) := by
  unfold State.handoff
  dsimp only
  split
  · exact h
  · exact .oInc (.modEnt (.tick (.began (.ite (.began h) (.ite (.began h) h)))))

/-! ### Isect.lean -/

theorem endKilled {b e k st} (h : s0.Keeps s) : s0.Keeps (s.endKilled b e k st) := by
  refine .ite ?_ (.failEntry h)
  dsimp only
  split
  · exact .answerEnd (.leave h)
  · exact .freeQuery (.leave h)
theorem boundary {b e} (h : s0.Keeps s) : s0.Keeps (s.boundary b e) := by
  unfold State.boundary
  split
  · exact h
  · split
    · exact .ite (.endKilled h) h
    · exact h
theorem takeLoc {b e l} (h : s0.Keeps s) : s0.Keeps (s.takeLoc b e l) := by
  unfold State.takeLoc
  dsimp only
  split
  · exact .modEnt h
  · exact .modQ (.modEnt h)
theorem leafDone {b e l} (h : s0.Keeps s) : s0.Keeps (s.leafDone b e l) :=
  .boundary (.ite (.endWalk (.modEnt (.takeLoc h))) (.finishAt (.modEnt (.takeLoc h))))
theorem leafFault {b e st} (h : s0.Keeps s) : s0.Keeps (s.leafFault b e st) := .boundary (.failEntry h)
theorem leafStop {b e} (h : s0.Keeps s) : s0.Keeps (s.leafStop b e) := .boundary (.modEnt h)
theorem leafKeep {b e hx} (h : s0.Keeps s) : s0.Keeps (s.leafKeep b e hx) := .modEnt h
theorem rayPrim {b e ty addr v m i l} (h : s0.Keeps s) : s0.Keeps (s.rayPrim b e ty addr v m i l).2 := by
  unfold State.rayPrim
  dsimp only
  split
  · exact h
  · refine .iteSnd h (.iteSnd h (.iteSnd ?_ ?_))
    · split
      · split
        · exact h
        · exact h
        · exact h
      · split
        · split
          · exact .snd ‹_› (.entRead h)
          · exact .snd ‹_› (.entRead h)
          · exact .snd ‹_› (.entRead h)
        · exact .snd ‹_› (.entRead h)
        · exact .snd ‹_› (.entRead h)
    · split
      · exact h
      · exact h
      · exact h
theorem primLoop {b e ty addr v m fuel i a} (h : s0.Keeps s) : s0.Keeps (State.primLoop b e ty addr v m fuel i a s).2 := by
  induction fuel generalizing s i a with
  | zero => exact h
  | succ f ih =>
    unfold State.primLoop
    dsimp only
    split
    · exact h
    split
    · split
      · exact ih (.snd ‹_› (.rayPrim h))
      · exact .snd ‹_› (.rayPrim h)
    · exact ih h
theorem blockRun {b e hx ty addr v m} (h : s0.Keeps s) : s0.Keeps (s.blockRun b e hx ty addr v m) := by
  refine .ite (.leafDone h) ?_
  split
  · exact .leafDone (.snd ‹_› (.primLoop h))
  · exact .ite (.leafKeep (.snd ‹_› (.primLoop h))) (.leafKeep (.snd ‹_› (.primLoop h)))
  · exact .leafFault (.snd ‹_› (.primLoop h))
  · exact .leafKeep (.snd ‹_› (.primLoop h))
theorem blockStart {b e hx ty addr v} (h : s0.Keeps s) : s0.Keeps (s.blockStart b e hx ty addr v) :=
  .ite (.leafFault h) (.blockRun (.ite (.ite (.oAdd h) h) (.oAdd (.ite (.oAdd h) h))))
theorem blockRead {b e ty addr} (h : s0.Keeps s) : s0.Keeps (s.blockRead b e ty addr).2 := by
  unfold State.blockRead
  split
  · exact .iteSnd (.entRead (.snd ‹_› (.entRead h))) (.snd ‹_› (.entRead h))
  · exact .entRead h
theorem isectOne {b e} (h : s0.Keeps s) : s0.Keeps (s.isectOne b e).1 := by
  unfold State.isectOne
  dsimp only
  split
  · refine .iteFst (.ite h (.modEnt h)) ?_
    split
    · exact .blockRun (.ite h (.modEnt h))
    · split
      · exact .iteFst (.blockStart (.snd ‹_› (.blockRead (.ite h (.modEnt h))))) (.leafFault (.snd ‹_› (.blockRead (.ite h (.modEnt h)))))
      · exact .snd ‹_› (.blockRead (.ite h (.modEnt h)))
      · exact .leafFault (.snd ‹_› (.blockRead (.ite h (.modEnt h))))
  · exact .ite h (.modEnt h)
theorem serve {one a} (hone : ∀ u x, s0.Keeps u → s0.Keeps (one u x).1) (h : s0.Keeps s) : s0.Keeps (State.serve one a s) := by
  induction a generalizing s with
  | nil => exact h
  | cons e r ih =>
    unfold State.serve
    split
    · exact .fst ‹_› (hone _ _ h)
    · exact ih (.fst ‹_› (hone _ _ h))
theorem isectResult {b} (h : s0.Keeps s) : s0.Keeps (s.isectResult b) := .ite (.serve (fun _ _ h1 => .isectOne h1) h) h

/-! ### Metric.lean -/

theorem vecGet {b e} (h : s0.Keeps s) : s0.Keeps (s.vecGet b e).2 := by
  unfold State.vecGet
  dsimp only
  split
  · exact h
  · refine .iteSnd h (.iteSnd h ?_)
    split
    · split
      · exact .modEnt h
      · exact .leafFault h
    · exact .startJob (.modEnt h)
theorem vecIn {k uid j} (h : s0.Keeps s) : s0.Keeps (s.vecIn k uid j).1 := by
  unfold State.vecIn
  split
  · refine .iteFst h (.iteFst (.leafFault h) (.iteFst h ?_))
    dsimp only
    split
    · exact .modEnt h
    · exact .leafFault h
  · exact h
theorem metOne {b e it} (h : s0.Keeps s) : s0.Keeps (s.metOne b e it).1 := by
  unfold State.metOne
  dsimp only
  split
  · exact .snd ‹_› (.entRead h)
  · exact .leafFault (.snd ‹_› (.entRead h))
  · refine .iteFst (.leafFault (.snd ‹_› (.entRead h))) ?_
    split
    · exact .leafFault (.thd ‹_› (.entReads (.vecGet (.snd ‹_› (.entRead h)))))
    · exact .thd ‹_› (.entReads (.vecGet (.snd ‹_› (.entRead h))))
    · split
      · exact .thd ‹_› (.entReads (.vecGet (.snd ‹_› (.entRead h))))
      · split
        · exact .leafFault (.thd ‹_› (.entReads (.vecGet (.snd ‹_› (.entRead h)))))
        · exact .boundary (.descend (.modEnt (.oAdd (.oInc (.thd ‹_› (.entReads (.vecGet (.snd ‹_› (.entRead h)))))))))
theorem tabStep_go {b e q m fuel} (h : s0.Keeps s) : s0.Keeps (State.tabStep.go b e q m fuel s).1 := by
  induction fuel generalizing s with
  | zero => exact h
  | succ f ih =>
    unfold State.tabStep.go
    dsimp only
    split
    · exact h
    split
    · exact .snd ‹_› (.entRead h)
    · exact .leafFault (.snd ‹_› (.entRead h))
    have h1 := Keeps.snd ‹_› (.entRead h)
    split
    · exact .leafFault h1
    · exact ih (.ite (.oInc (.modEnt h1)) (.modEnt h1))
theorem tabStep {b e q} (h : s0.Keeps s) : s0.Keeps (s.tabStep b e q).1 := by
  unfold State.tabStep
  dsimp only
  split
  · exact h
  split
  · exact .modEnt h
  · exact .tabStep_go (.modEnt h)
theorem vecOne {b e it hd} (h : s0.Keeps s) : s0.Keeps (s.vecOne b e it hd).1 := by
  unfold State.vecOne
  dsimp only
  split
  · exact .snd ‹_› (.entRead h)
  · exact .leafFault (.snd ‹_› (.entRead h))
  · refine .iteFst (.leafFault (.snd ‹_› (.entRead h))) ?_
    split
    · exact .vecGet (.snd ‹_› (.entRead h))
    · refine .iteFst (.iteFst (.tabStep (.vecGet (.snd ‹_› (.entRead h)))) (.vecGet (.snd ‹_› (.entRead h)))) ?_
      split
      · exact .leafFault (.thd ‹_› (.entReads (.iteFst (.tabStep (.vecGet (.snd ‹_› (.entRead h)))) (.vecGet (.snd ‹_› (.entRead h))))))
      · exact .thd ‹_› (.entReads (.iteFst (.tabStep (.vecGet (.snd ‹_› (.entRead h)))) (.vecGet (.snd ‹_› (.entRead h)))))
      · split
        · exact .leafFault (.thd ‹_› (.entReads (.iteFst (.tabStep (.vecGet (.snd ‹_› (.entRead h)))) (.vecGet (.snd ‹_› (.entRead h))))))
        · exact .leafDone (.ite (.oInc (.modEnt (.oAdd (.ite (.oAdd (.ite (.setFree (.thd ‹_› (.entReads (.iteFst (.tabStep (.vecGet
              (.snd ‹_› (.entRead h)))) (.vecGet (.snd ‹_› (.entRead h))))))) (.thd ‹_› (.entReads (.iteFst (.tabStep (.vecGet (.snd ‹_›
              (.entRead h)))) (.vecGet (.snd ‹_› (.entRead h)))))))) (.oAdd (.ite (.setFree (.thd ‹_› (.entReads (.iteFst (.tabStep
              (.vecGet (.snd ‹_› (.entRead h)))) (.vecGet (.snd ‹_› (.entRead h))))))) (.thd ‹_› (.entReads (.iteFst (.tabStep (.vecGet
              (.snd ‹_› (.entRead h)))) (.vecGet (.snd ‹_› (.entRead h)))))))))))) (.modEnt (.oAdd (.ite (.oAdd (.ite (.setFree (.thd ‹_›
              (.entReads (.iteFst (.tabStep (.vecGet (.snd ‹_› (.entRead h)))) (.vecGet (.snd ‹_› (.entRead h))))))) (.thd ‹_› (.entReads
              (.iteFst (.tabStep (.vecGet (.snd ‹_› (.entRead h)))) (.vecGet (.snd ‹_› (.entRead h)))))))) (.oAdd (.ite (.setFree
              (.thd ‹_› (.entReads (.iteFst (.tabStep (.vecGet (.snd ‹_› (.entRead h)))) (.vecGet (.snd ‹_› (.entRead h))))))) (.thd ‹_›
              (.entReads (.iteFst (.tabStep (.vecGet (.snd ‹_› (.entRead h)))) (.vecGet (.snd ‹_› (.entRead h))))))))))))

/-! ### Net.lean -/

theorem weightAsk {b e} (h : s0.Keeps s) : s0.Keeps (s.weightAsk b e) := by
  unfold State.weightAsk
  dsimp only
  split
  · exact h
  · split
    · exact h
    · refine .ite h ?_
      split
      · exact .modBob h
      · split
        · exact h
        · exact .modBob h
theorem weightFill_put {b w z} (h : s0.Keeps s) : s0.Keeps (State.weightFill.put b w z s) := .modBob h
theorem weightFill_go {b a} (h : s0.Keeps s) : s0.Keeps (State.weightFill.go b a s) := by
  induction a generalizing s with
  | nil => exact h
  | cons w r ih =>
    unfold State.weightFill.go
    split
    · exact .weightFill_put (.snd ‹_› (.ncRead h))
    · exact ih (.weightFill_put (.snd ‹_› (.ncRead h)))
    have h1 := Keeps.snd ‹_› (.ncRead h)
    refine .ite (.weightFill_put h1) ?_
    split
    · exact .weightFill_put (.snd ‹_› (.ncRead h1))
    · exact ih (.weightFill_put (.snd ‹_› (.ncRead h1)))
    · exact .oInc (.weightFill_put (.snd ‹_› (.ncRead h1)))
theorem weightFill {b} (h : s0.Keeps s) : s0.Keeps (s.weightFill b) := .ite (.weightFill_go h) h
theorem bankPending {b} (h : s0.Keeps s) : s0.Keeps (s.bankPending b) := by
  have go : ∀ i : Option Nat, s0.Keeps (match i with
      | Option.some i =>
        if bit (s.bobOf b).pendBanks i then s
        else (s.occupants b).foldl (fun (t : State) x => match s.slotOf b x.2 with
            | Option.some w => if w.bank = i then t.modEnt b x.1 (fun y => { y with op := y.op.map (fun h => { h with wbank := Option.some i }) }) else t
            | none => t) (s.modBob b (fun v => { v with pendBanks := v.pendBanks + 2 ^ i }))
      | none => s) := by
    intro i
    split
    · refine .ite h (.foldl (.modBob h) fun _ _ h1 => ?_)
      split
      · exact .ite (.modEnt h1) h1
      · exact h1
    · exact h
  exact .ite (.ite (go _) (.ite (go _) h)) h
theorem roleChange {b bank} (h : s0.Keeps s) : s0.Keeps (s.roleChange b bank) := .ite (.oInc (.modBob h)) h
theorem netRay {b e hd v} (h : s0.Keeps s) : s0.Keeps (s.netRay b e hd v) := by
  unfold State.netRay
  dsimp only
  split
  · exact .leafDone (.oAdd (.oAdd (.oAdd (.oInc h))))
  · refine .ite (.leafDone (.oAdd (.oAdd (.oAdd (.oInc h))))) (.ite (.leafDone (.oAdd (.oAdd (.oAdd (.oInc h))))) ?_)
    split
    · exact .leafDone (.oAdd (.oAdd (.oAdd (.oInc h))))
    · exact .leafDone (.oAdd (.oAdd (.oAdd (.oInc h))))
    · exact .leafKeep (.oAdd (.oAdd (.oAdd (.oInc h))))
theorem netOne {b e it hd} (h : s0.Keeps s) : s0.Keeps (s.netOne b e it hd).1 := by
  unfold State.netOne
  dsimp only
  split
  · exact .snd ‹_› (.entRead h)
  · exact .leafFault (.snd ‹_› (.entRead h))
  · refine .iteFst (.leafFault (.snd ‹_› (.entRead h))) (.iteFst (.leafDone (.oInc (.oInc (.snd ‹_› (.entRead h))))) ?_)
    split
    · exact .leafFault (.weightAsk (.snd ‹_› (.entRead h)))
    · split
      · exact .modEnt (.weightAsk (.snd ‹_› (.entRead h)))
      · exact .iteFst (.leafFault (.modBob (.weightAsk (.snd ‹_› (.entRead h))))) (.iteFst (.leafDone (.oInc (.oAdd (.oInc (.oInc (.modBob
            (.weightAsk (.snd ‹_› (.entRead h))))))))) (.iteFst (.netRay (.modBob (.weightAsk (.snd ‹_› (.entRead h))))) (.modBob
            (.weightAsk (.snd ‹_› (.entRead h))))))
theorem netTaken {b e} (h : s0.Keeps s) : s0.Keeps (s.netTaken b e) := by
  unfold State.netTaken
  split
  · refine .ite ?_ h
    dsimp only
    split
    · refine .ite (.snd ‹_› (.entRead ?_)) (.leafFault (.snd ‹_› (.entRead ?_)))
      · split
        · exact .ite h (.modBob h)
        · exact h
      · split
        · exact .ite h (.modBob h)
        · exact h
    · refine .snd ‹_› (.entRead ?_)
      split
      · exact .ite h (.modBob h)
      · exact h
  · exact h
theorem arrayOne {b e} (h : s0.Keeps s) : s0.Keeps (s.arrayOne b e).1 := by
  unfold State.arrayOne
  dsimp only
  split
  · exact .iteFst h (.iteFst (.metOne (.modEnt h)) (.iteFst (.vecOne (.modEnt h)) (.netOne (.modEnt h))))
  · exact h
theorem arrayResult {b} (h : s0.Keeps s) : s0.Keeps (s.arrayResult b) := .ite (.serve (fun _ _ h1 => .arrayOne h1) h) h

/-! ### Suspect.lean -/

theorem freeEng {b g} (h : s0.Keeps s) : s0.Keeps (s.freeEng b g) := .modEng h
theorem cutOp {b e} (h : s0.Keeps s) : s0.Keeps (s.cutOp b e) := by
  unfold State.cutOp
  split
  · exact .freeEng (.ite (.oInc h) h)
  · exact h
theorem stopOp {b e} (h : s0.Keeps s) : s0.Keeps (s.stopOp b e) := .ite (.leafStop (.cutOp h)) h
theorem requeue {b g} (h : s0.Keeps s) : s0.Keeps (s.requeue b g) := by
  unfold State.requeue
  dsimp only
  split
  · exact h
  · exact .freeEng (.modEnt h)
theorem mismatch {b kind num first} (h : s0.Keeps s) : s0.Keeps (s.mismatch b kind num first) :=
  .ite (.modTile (.raise (.oInc h))) (.oInc h)
theorem withdraw {b} (h : s0.Keeps s) : s0.Keeps (s.withdraw b) := .ite h (.foldl (.modBob h) fun _ _ h1 => .stopOp h1)
theorem withdrawArray {b} (h : s0.Keeps s) : s0.Keeps (s.withdrawArray b) :=
  .ite h (.foldl (.raise (.logWithdrawal (.oSet h))) fun _ _ h1 => .stopOp h1)
theorem withdrawEngine {b g} (h : s0.Keeps s) : s0.Keeps (s.withdrawEngine b g) :=
  .ite h (.ite (.withdraw (.requeue (.logWithdrawal (.oSet h)))) (.requeue (.logWithdrawal (.oSet h))))
theorem suspect {b kind num} (h : s0.Keeps s) : s0.Keeps (s.suspect b kind num) :=
  .ite h (.ite (.withdrawArray (.raise (.oInc h))) (.ite (.withdrawEngine (.raise (.oInc h))) (.withdraw (.raise (.oInc h)))))
theorem checked {chk b kind num apply} (happly : ∀ u, s0.Keeps u → s0.Keeps (apply u)) (h : s0.Keeps s) :
    s0.Keeps (s.checked chk b kind num apply) := by
  unfold State.checked
  split
  · exact happly _ h
  · exact .ite (.suspect (happly _ (.mismatch h))) (happly _ (.mismatch h))
  · exact .suspect (.mismatch (.mismatch h))
  · exact h
theorem wayOff {b k i} (h : s0.Keeps s) : s0.Keeps (s.wayOff b k i) :=
  .ite h (.ite (.withdraw (.logJournal (.modTile (.raise h)))) (.logJournal (.modTile (.raise h))))
theorem wayError {b port line sec tag} (h : s0.Keeps s) : s0.Keeps (s.wayError b port line sec tag) := by
  unfold State.wayError
  dsimp only
  split
  · exact h
  · exact .ite (.wayOff (.ite (.lockDrop (.ite (.ite (.modNc (.oweLine (.oInc (.modTile h)))) (.modNc (.oInc (.modTile h)))) (.ite (.modNc
        (.oInc (.modTile h))) (.modNc (.oInc (.modTile h)))))) (.ite (.ite (.modNc (.oweLine (.oInc (.modTile h)))) (.modNc (.oInc
        (.modTile h)))) (.ite (.modNc (.oInc (.modTile h))) (.modNc (.oInc (.modTile h))))))) (.ite (.lockDrop (.ite (.ite (.modNc
        (.oweLine (.oInc (.modTile h)))) (.modNc (.oInc (.modTile h)))) (.ite (.modNc (.oInc (.modTile h))) (.modNc (.oInc
        (.modTile h)))))) (.ite (.ite (.modNc (.oweLine (.oInc (.modTile h)))) (.modNc (.oInc (.modTile h)))) (.ite (.modNc (.oInc
        (.modTile h))) (.modNc (.oInc (.modTile h))))))
theorem slotError {b e} (h : s0.Keeps s) : s0.Keeps (s.slotError b e) := by
  unfold State.slotError
  split
  · exact .ite (.oInc (.modBob h)) h
  · exact h
theorem readError {b e tag} (h : s0.Keeps s) : s0.Keeps (s.readError b e tag) := by
  unfold State.readError
  dsimp only
  split
  · exact h
  · refine .ite (.slotError h) ?_
    split
    · exact .wayError h
    · exact h

/-! ### Baste.lean -/

theorem bstFail {b g what} (h : s0.Keeps s) : s0.Keeps (s.bstFail b g what) := by
  unfold State.bstFail
  dsimp only
  split
  · exact .leafFault (.freeEng (.raise (.oInc h)))
  · exact .freeEng (.raise (.oInc h))
theorem bstSet {b g e kind hx n w} (h : s0.Keeps s) : s0.Keeps (s.bstSet b g e kind hx n w) := .modEng h
theorem bstAgain {b g} (h : s0.Keeps s) : s0.Keeps (s.bstAgain b g) := by
  unfold State.bstAgain
  dsimp only
  split
  · exact h
  · split
    · exact .bstSet h
    · exact h
theorem bstStart {b g e kind hx} (h : s0.Keeps s) : s0.Keeps (s.bstStart b g e kind hx) := by
  unfold State.bstStart
  dsimp only
  split
  · exact .bstFail h
  · exact .bstSet (.ite (.oInc (.ite (.oInc (.began (.oInc h))) (.began (.oInc h)))) (.ite (.oInc (.began (.oInc h))) (.began (.oInc h))))
theorem bstDone {b g e l} (h : s0.Keeps s) : s0.Keeps (s.bstDone b g e l) := .leafDone (.freeEng h)
theorem bstNext {b g} (h : s0.Keeps s) : s0.Keeps (s.bstNext b g) := by
  unfold State.bstNext
  split
  · exact h
  · dsimp only
    split
    · refine .ite (.bstStart h) (.ite h (.ite (.ite (.bstDone h) (.bstStart h)) (.ite (.bstDone h) ?_)))
      split
      · exact .ite (.bstStart (.blockRun (.modEnt h))) (.blockRun (.modEnt h))
      · exact .freeEng (.blockRun (.modEnt h))
    · exact .freeEng h
theorem bstOver {b g e hx} (h : s0.Keeps s) : s0.Keeps (s.bstOver b g e hx) := .bstNext (.modEng (.modEnt h))
theorem bstEnd {b g} (h : s0.Keeps s) : s0.Keeps (s.bstEnd b g) := by
  unfold State.bstEnd
  dsimp only
  split
  · exact h
  · split
    · exact h
    · refine .ite (.bstFail h) (.ite ?_ (.ite (.bstOver h) (.ite (.bstOver h) (.ite (.bstFail h) (.ite (.bstDone h) (.ite
          (.bstOver h) ?_))))))
      · split
        · exact .bstOver h
        · exact .bstOver h
      · split
        · exact .bstOver h
        · exact .bstOver h
        · exact .bstOver h
theorem bstTrap {b g cause tpc trem insn} (h : s0.Keeps s) : s0.Keeps (s.bstTrap b g cause tpc trem insn) :=
  .ite (.bstFail h) (.ite (.raise (.oInc (.modEng (.oInc h)))) (.modEng (.oInc h)))
theorem bstGo {b g en w pc rep dz} (h : s0.Keeps s) : s0.Keeps (s.bstGo b g en w pc rep dz) :=
  .ite (.bstTrap (.modEng (.oInc h))) (.ite (.bstTrap (.modEng (.oInc h))) (.modEng (.oInc h)))
theorem bstApply {b g w r} (h : s0.Keeps s) : s0.Keeps (s.bstApply b g w r) := by
  unfold State.bstApply
  dsimp only
  split
  · exact .bstGo h
  · exact .bstGo h
  · exact .bstTrap h
  · exact .bstTrap (.modEng (.oInc h))
  · exact .bstGo h
  · exact .bstEnd (.oInc h)
  · exact .bstFail (.oInc h)
  · exact .ite (.bstFail (.oInc h)) (.bstGo h)
theorem bstInstr {b g chk opcode op} (h : s0.Keeps s) : s0.Keeps (s.bstInstr b g chk opcode op) := by
  unfold State.bstInstr
  split
  · exact h
  · exact .ite h (.checked (fun _ h1 => .ite (.bstTrap h1) (.bstApply h1)) h)
theorem bstIllegal {b g} (h : s0.Keeps s) : s0.Keeps (s.bstIllegal b g) := by
  unfold State.bstIllegal
  split
  · exact h
  · exact .ite h (.bstTrap h)
theorem bstBudget {b g} (h : s0.Keeps s) : s0.Keeps (s.bstBudget b g) := .ite (.bstTrap h) h
theorem bstFill {b g} (h : s0.Keeps s) : s0.Keeps (State.bstFill b s g).1 := by
  unfold State.bstFill
  split
  · exact h
  · dsimp only
    split
    · refine .iteFst h (.iteFst (.bstNext h) ?_)
      split
      · exact .snd ‹_› (.blockRead (.modEnt h))
      · exact .leafFault (.freeEng (.snd ‹_› (.blockRead (.modEnt h))))
      · exact .iteFst (.leafFault (.freeEng (.snd ‹_› (.blockRead (.modEnt h))))) (.bstNext (.modEnt (.snd ‹_› (.blockRead (.modEnt h)))))
    · exact .freeEng h
theorem bstTake {b g e} (h : s0.Keeps s) : s0.Keeps (s.bstTake b g e) := by
  unfold State.bstTake
  dsimp only
  split
  · exact h
  · exact .ite (.leafStop h) (.bstFill (.modEng (.modEnt h)))
theorem basteHandoff_goOn {b a} (h : s0.Keeps s) : s0.Keeps (State.basteHandoff.goOn b a s).1 := by
  induction a generalizing s with
  | nil => exact h
  | cons g r ih =>
    unfold State.basteHandoff.goOn
    split
    · exact .fst ‹_› (.bstFill h)
    · exact ih (.fst ‹_› (.bstFill h))
theorem basteHandoff {b} (h : s0.Keeps s) : s0.Keeps (s.basteHandoff b) := by
  refine .ite ?_ h
  split
  · exact .fst ‹_› (.basteHandoff_goOn h)
  · have h1 := Keeps.fst ‹_› (.basteHandoff_goOn h)
    refine .ite h1 ?_
    split
    · exact .bstTake h1
    · exact h1
theorem imgFail {status} (h : s0.Keeps s) : s0.Keeps (s.imgFail status) := .raise (.oSet (.modTile h))
theorem imgLoad {code} (h : s0.Keeps s) : s0.Keeps (s.imgLoad code).2 :=
  .iteSnd h (.iteSnd (.oSet h) (.iteSnd (.modTile (.oSet h)) (.imgFail h)))
theorem imgWrite (h : s0.Keeps s) : s0.Keeps s.imgWrite := .ite (.startJob (.modTile h)) h
theorem imgHeader {j} (h : s0.Keeps s) : s0.Keeps (s.imgHeader j) := .ite h (.ite (.imgFail h) (.ite (.imgFail h) (.startJob (.modTile h))))
theorem imgBody {j} (h : s0.Keeps s) : s0.Keeps (s.imgBody j) :=
  .ite h (.ite (.imgFail h) (.ite (.imgFail h) (.raise (.oSet (.oSet (.modTile (.setCodeConstEctrlInit h)))))))

/-! ### Finish.lean -/

theorem finishingWalk {b e} (h : s0.Keeps s) : s0.Keeps (s.finishingWalk b e) := by
  unfold State.finishingWalk
  dsimp only
  split
  · exact h
  · exact .ite (.oInc (.setItem (.modQ (.modEnt h)))) h
theorem dropRecords {k} (h : s0.Keeps s) : s0.Keeps (s.dropRecords k) := .modSt h
theorem detach {k} (h : s0.Keeps s) : s0.Keeps (s.detach k) := by
  unfold State.detach
  split
  · exact .leave (.cutOp h)
  · exact .unbin h
  · exact .unbin h
  · exact h
theorem loss {k} (h : s0.Keeps s) : s0.Keeps (s.loss k) :=
  .ite h (.ite (.modQ (.dropRecords (.detach h))) (.endSlot (.dropRecords (.detach h))))
theorem recover {k} (h : s0.Keeps s) : s0.Keeps (s.recover k) := by
  unfold State.recover
  dsimp only
  split
  · exact .endSlot (.oInc h)
  · exact .ite (.loss (.oInc h)) (.insert (.oInc h))
theorem recoverEnt {b e} (h : s0.Keeps s) : s0.Keeps (s.recoverEnt b e) := by
  unfold State.recoverEnt
  split
  · exact .recover (.modQ (.leave (.cutOp h)))
  · exact h
theorem entError {b e} (h : s0.Keeps s) : s0.Keeps (s.entError b e) := .recoverEnt (.modEnt (.raise h))
theorem storeError {chk b e go} (hgo : ∀ u, s0.Keeps u → s0.Keeps (go u)) (h : s0.Keeps s) : s0.Keeps (s.storeError chk b e go) := by
  unfold State.storeError
  split
  · exact .readError h
  · exact .readError h
  · exact .entError h
  · exact hgo _ h
theorem askVictim (h : s0.Keeps s) : s0.Keeps s.askVictim := by
  refine .ite h ?_
  split
  · exact h
  · split
    · exact .modEnt h
    · exact h
theorem cl0Release (h : s0.Keeps s) : s0.Keeps s.cl0Release := by
  unfold State.cl0Release
  split
  · exact .fst ‹_› (.cl0Load h)
  · exact .askVictim (.fst ‹_› (.cl0Load h))
theorem cl0Into {b e} (h : s0.Keeps s) : s0.Keeps (s.cl0Into b e) := by
  unfold State.cl0Into
  split
  · exact h
  · exact .ite (.load (.modTile h)) h
theorem pendDue {b e} (h : s0.Keeps s) : s0.Keeps (s.pendDue b e).2 := by
  unfold State.pendDue
  dsimp only
  split
  · exact h
  · refine .iteSnd h ?_
    split
    · exact .snd ‹_› (.entRead h)
    · exact .snd ‹_› (.entRead h)
theorem queryPark {b e bad} (h : s0.Keeps s) : s0.Keeps (s.queryPark b e bad) := by
  unfold State.queryPark
  dsimp only
  split
  · exact h
  · exact .ite h (.ite (.iteSnd h (.iteSnd h (.iteSnd h (.pendDue h)))) (.ite (.entError (.iteSnd h (.iteSnd h (.iteSnd h (.pendDue h)))))
        (.ite (.failEntry h) (.ite (.rbStop (.modEnt (.iteSnd h (.iteSnd h (.iteSnd h (.pendDue h)))))) (.ite (.cl0Into (.oInc (.insert
        (.ite (.oInc (.modQ (.parkBack (.iteSnd h (.iteSnd h (.iteSnd h (.pendDue h))))))) (.parkBack (.iteSnd h (.iteSnd h (.iteSnd h
        (.pendDue h))))))))) (.ite (.oInc (.insert (.ite (.oInc (.modQ (.parkBack (.iteSnd h (.iteSnd h (.iteSnd h (.pendDue h)))))))
        (.parkBack (.iteSnd h (.iteSnd h (.iteSnd h (.pendDue h)))))))) (.insert (.ite (.oInc (.modQ (.parkBack (.iteSnd h (.iteSnd h
        (.iteSnd h (.pendDue h))))))) (.parkBack (.iteSnd h (.iteSnd h (.iteSnd h (.pendDue h)))))))))))))
theorem revert {b e} (h : s0.Keeps s) : s0.Keeps (s.revert b e) := by
  unfold State.revert
  dsimp only
  split
  · exact h
  · exact .ite (.recoverEnt (.oInc h)) h
theorem answerDone {x k v} (h : s0.Keeps s) : s0.Keeps (s.answerDone x k v) := .answer (.toAnswer h)
theorem completion {b e} (h : s0.Keeps s) : s0.Keeps (s.completion b e) := by
  unfold State.completion
  dsimp only
  split
  · exact h
  · refine .ite h (.ite (.rbStop h) ?_)
    split
    · exact .endSlot (.leave (.releaseOut (.modQ h)))
    · split
      · exact .answerDone (.leave (.releaseOut (.modQ h)))
      · exact .toHem (.traceFlags (.openVal (.leave (.releaseOut (.modQ h)))))

/-! ### Hem.lean -/

theorem rconsWrite {c st v} (h : s0.Keeps s) : s0.Keeps (s.rconsWrite c st v) := .ite (.modSt h) (.raise h)
theorem scredWrite {c st v} (h : s0.Keeps s) : s0.Keeps (s.scredWrite c st v) := .ite (.modSt h) (.raise h)
theorem setResBit {c st i v} (h : s0.Keeps s) : s0.Keeps (s.setResBit c st i v) := .coSet h
theorem deliver {c st i n last} (h : s0.Keeps s) : s0.Keeps (s.deliver c st i n last) :=
  .ite (.ite (.modQ h) h) (.ite (.advanceHead (.ite (.modTile (.oInc (.ite (.freeQuery (.ite (.modQ h) h)) (.ite (.modQ h) h)))) (.ite
    (.freeQuery (.ite (.modQ h) h)) (.ite (.modQ h) h)))) (.ite (.modTile (.oInc (.ite (.freeQuery (.ite (.modQ h) h)) (.ite
    (.modQ h) h)))) (.ite (.freeQuery (.ite (.modQ h) h)) (.ite (.modQ h) h))))
theorem hemWrite {c st a n data rel wp} (h : s0.Keeps s) : s0.Keeps (s.hemWrite c st a n data rel wp) := .oAdd (.writeOut h)
theorem ringPut {c st p r} (h : s0.Keeps s) : s0.Keeps (s.ringPut c st p r) := .hemWrite h
theorem ringEntryWrite {c st} (h : s0.Keeps s) : s0.Keeps (s.ringEntryWrite c st) := by
  refine .ite h ?_
  split
  · dsimp only
    split
    · exact .ringPut (.modSt h)
    · exact .modSt h
  · split
    · exact h
    · split
      · exact .modSt h
      · exact .ite (.modQ (.modSt h)) (.ite (.ringPut (.oInc (.modSt (.modSt h)))) h)
theorem prodStep {c st fuel} (h : s0.Keeps s) : s0.Keeps (State.prodStep c st fuel s) := by
  induction fuel generalizing s with
  | zero => exact h
  | succ f ih =>
    refine .ite ?_ h
    split
    · exact ih (.deliver (.modSt h))
    · exact h
theorem ringWrote {c st ep p bad} (h : s0.Keeps s) : s0.Keeps (s.ringWrote c st ep p bad) :=
  .ite h (.ite (.ite (.modSt h) (.raise (.oInc (.setResBit (.modSt h))))) (.prodStep (.modSt h)))
theorem rfaultClear {c st} (h : s0.Keeps s) : s0.Keeps (s.rfaultClear c st) := .ite (.modSt (.setResBit h)) h
theorem resWb {c st} (h : s0.Keeps s) : s0.Keeps (s.resWb c st) := .ite (.hemWrite (.modSt h)) h
theorem headWb {c st} (h : s0.Keeps s) : s0.Keeps (s.headWb c st) := .ite (.writeOut (.modSt h)) h
theorem fillFails {c st num} (h : s0.Keeps s) : s0.Keeps (s.fillFails c st num) := by
  unfold State.fillFails
  dsimp only
  split
  · exact h
  · exact .ite (.modSt h) (.raise (.oAdd (.setResBit (.modSt h))))
theorem fillClose {c st f} (h : s0.Keeps s) : s0.Keeps (s.fillClose c st f) :=
  .hemWrite (.foldl (.modSt h) fun _ _ h1 => .oAdd (.writeOut h1))
theorem slotFillOpen {c st} (h : s0.Keeps s) : s0.Keeps (s.slotFillOpen c st) :=
  .ite (.ite (.startJob (.modSt h)) (.fillFails (.modSt h))) h
theorem slotHeader {c st ep j} (h : s0.Keeps s) : s0.Keeps (s.slotHeader c st ep j) := by
  unfold State.slotHeader
  dsimp only
  split
  · exact h
  · refine .ite h (.ite (.fillFails h) (.ite (.modSt h) (.fillClose ?_)))
    split
    · exact .modSt h
    · exact h
theorem fillStep {c st fuel} (h : s0.Keeps s) : s0.Keeps (State.fillStep c st fuel s) := by
  induction fuel generalizing s with
  | zero => exact h
  | succ n ih =>
    unfold State.fillStep
    split
    · exact h
    · refine .ite h (.ite (.fillClose h) ?_)
      split
      · exact .ite h (.ite (ih (.modSt h)) (ih (.modSt h)))
      · exact .ite (.fillClose h) h
theorem flushFill {c st} (h : s0.Keeps s) : s0.Keeps (s.flushFill c st) := by
  unfold State.flushFill
  split
  · exact .ite (.fillClose h) h
  · exact h
theorem flagStep {c st} (h : s0.Keeps s) : s0.Keeps (s.flagStep c st) := .foldl h fun _ _ h1 => .hemWrite (.modSt h1)
theorem rowWrote {c st ep num bad} (h : s0.Keeps s) : s0.Keeps (s.rowWrote c st ep num bad) := .ite h (.ite (.fillFails h) (.modSt h))
theorem flagWrote {c st ep num bad} (h : s0.Keeps s) : s0.Keeps (s.flagWrote c st ep num bad) := by
  refine .ite h (.ite (.fillFails h) ?_)
  split
  · exact h
  · exact .foldl (.oAdd (.oInc (.modSt h))) fun _ _ h1 => .deliver h1
theorem hemStep (h : s0.Keeps s) : s0.Keeps s.hemStep := .foldl h fun _ _ h1 => .ite (.pageIn h1) (.flagStep (.fillStep (.pageIn h1)))
theorem redirClear {c st} (h : s0.Keeps s) : s0.Keeps (s.redirClear c st) := .ite (.setResBit h) h

/-! ### Bodkin.lean -/

theorem bdkStops {c} (h : s0.Keeps s) : s0.Keeps (s.bdkStops c) :=
  .ite (.raise (.ite (.raise (.modCtx h)) (.modCtx h))) (.ite (.raise (.modCtx h)) (.modCtx h))
theorem bdkCycle {phase lim} (h : s0.Keeps s) : s0.Keeps (s.bdkCycle phase lim) := .ite (.setClkFTile h) (.setTile h)
theorem bdkAfter {phase} (h : s0.Keeps s) : s0.Keeps (s.bdkAfter phase) := .setClkFTile h
theorem makeReady {t} (h : s0.Keeps s) : s0.Keeps (s.makeReady t) := .modThr (.began (.began (.setExpct h)))
theorem freeFlow {x} (h : s0.Keeps s) : s0.Keeps (s.freeFlow x) := .ite (.modTile h) h
theorem matchOp {e status} (h : s0.Keeps s) : s0.Keeps (s.matchOp e status) :=
  .ite (.makeReady (.oInc (.modThr (.setExpct h)))) (.oInc (.modThr (.setExpct h)))
theorem applyOp {p u} (h : s0.Keeps s) (e : s.applyOp p = Option.some u) : s0.Keeps u := by
  unfold State.applyOp at e
  split at e
  · exact Option.some.inj e ▸ .matchOp h
  · split at e
    · exact Option.some.inj e ▸ .oInc (.setOrphan h)
    · cases e
theorem retryPosts {c} (h : s0.Keeps s) : s0.Keeps (s.retryPosts c) := by
  refine .bdkStops (.foldl (.modTile h) fun _ _ h1 => .ite (.modTile h1) ?_)
  split
  · exact .applyOp h1 ‹_›
  · exact .modTile h1
theorem operand (h : s0.Keeps s) : s0.Keeps s.operand := by
  unfold State.operand
  split
  · exact h
  · refine .ite h (.ite (.oInc (.modTile (.bdkCycle h))) ?_)
    split
    · exact .bdkStops (.applyOp (.modTile (.bdkCycle h)) ‹_›)
    · exact .bdkStops (.modTile (.began (.modTile (.bdkCycle h))))
theorem spawnThr {c w} (h : s0.Keeps s) : s0.Keeps (s.spawnThr c w) :=
  .ite (.makeReady (.oInc (.modThr (.tick h)))) (.oInc (.modThr (.tick h)))
theorem expectThr {c w} (h : s0.Keeps s) : s0.Keeps (s.expectThr c w) := by
  refine .retryPosts (.foldl (.modThr (.setExpct (.tick h))) fun _ _ h1 => .ite ?_ h1)
  split
  · exact .ite (.matchOp (.setOrphan h1)) h1
  · exact h1
theorem ackThr {w} (h : s0.Keeps s) : s0.Keeps (s.ackThr w) :=
  .ite (.ite (.makeReady (.modThr (.tick (.freeFlow (.oInc h))))) (.modThr (.tick (.freeFlow (.oInc h))))) (.modThr (.freeFlow (.oInc h)))
theorem cancelThr {w} (h : s0.Keeps s) : s0.Keeps (s.cancelThr w) := .oInc (.modThr (.setExpct h))
theorem postOp {c w} (h : s0.Keeps s) : s0.Keeps (s.postOp c w) := .modTile (.oInc h)
theorem discardOps {c w} (h : s0.Keeps s) : s0.Keeps (s.discardOps c w) := .retryPosts (.oAdd (.setOrphan h))
theorem bdkEffect {c w} (h : s0.Keeps s) : s0.Keeps (s.bdkEffect c w) := by
  unfold State.bdkEffect
  split
  · exact .spawnThr h
  · exact .expectThr h
  · exact .ackThr h
  · exact .cancelThr h
  · exact .postOp h
  · exact .discardOps h
theorem bdkInfo {c w} (h : s0.Keeps s) : s0.Keeps (s.bdkInfo c w).2 := .iteSnd h (.draw h)
theorem bdkThread {w} (h : s0.Keeps s) : s0.Keeps (s.bdkThread w).2 := .iteSnd h (.draw h)
theorem bdkReply {c w rcode info} (h : s0.Keeps s) : s0.Keeps (s.bdkReply c w rcode info) := .writeOut (.modCtx (.bdkThread h))
theorem bdkRseq {c a n} (h : s0.Keeps s) : s0.Keeps (s.bdkRseq c a n) := .writeOut h
theorem bdkApply {c is} (h : s0.Keeps s) : s0.Keeps (s.bdkApply c is) := by
  unfold State.bdkApply
  dsimp only
  split
  · exact h
  · exact .ite h (.ite (.ite h (.raise (.modCtx h))) (.ite h (.ite (.bdkReply (.bdkInfo (.coSet (.modCtx (.modTile (.bdkCycle h))))))
        (.ite (.bdkReply (.ite (.bdkStops (.bdkEffect (.coSet (.modCtx (.modTile (.bdkCycle h)))))) (.iteSnd (.bdkInfo (.coSet (.modCtx
        (.modTile (.bdkCycle h))))) (.bdkInfo (.bdkStops (.bdkEffect (.coSet (.modCtx (.modTile (.bdkCycle h)))))))))) (.bdkStops
        (.bdkEffect (.coSet (.modCtx (.modTile (.bdkCycle h))))))))))
theorem bdkPush {c w} (h : s0.Keeps s) : s0.Keeps (s.bdkPush c w) := .ite h (.ite (.modCtx h) (.raise h))
theorem bcredWrite {c v} (h : s0.Keeps s) : s0.Keeps (s.bcredWrite c v) := .ite (.modCtx h) (.raise h)
theorem dcredWrite {e v} (h : s0.Keeps s) : s0.Keeps (s.dcredWrite e v) := .ite (.modEp h) (.raise h)
theorem dispatchTo {t x e affine} (h : s0.Keeps s) : s0.Keeps (s.dispatchTo t x e affine) :=
  .send (.send (.bdkStops (.oInc (.ite (.oInc (.modThr (.modEp h))) (.setCursor (.oInc (.modThr (.modEp h))))))))
theorem dispatchOne (h : s0.Keeps s) : s0.Keeps s.dispatchOne := by
  refine .ite h ?_
  split
  · exact .dispatchTo (.bdkCycle h)
  · exact .dispatchTo (.bdkAfter h)
  · exact h
theorem dispatchFault {e t d} (h : s0.Keeps s) : s0.Keeps (s.dispatchFault e t d) :=
  .ite (.bdkStops (.modThr (.freeFlow (.ite h (.modEp (.oInc (.raise (.oSet h)))))))) (.ite h (.modEp (.oInc (.raise (.oSet h)))))
theorem affWait {t} (h : s0.Keeps s) : s0.Keeps (s.affWait t) := .ite (.modThr h) h
theorem ageLimit {t} (h : s0.Keeps s) : s0.Keeps (s.ageLimit t) := .ite (.modThr h) h
theorem ackLate {t} (h : s0.Keeps s) : s0.Keeps (s.ackLate t) := .ite (.raise (.modThr h)) h
theorem bdkCtrl {c v} (h : s0.Keeps s) : s0.Keeps (s.bdkCtrl c v).2 := .iteSnd h (.iteSnd (.coSet h) (.iteSnd h (.modCtx (.coSet h))))
theorem bdkObject {c sub v} (h : s0.Keeps s) : s0.Keeps (s.bdkObject c sub v).2 := by
  unfold State.bdkObject
  dsimp only
  split
  · exact .iteSnd (.coSet h) h
  · exact .iteSnd (.coSet h) h
  · exact .iteSnd (.coSet h) h
  · exact .iteSnd (.coSet h) h
  · exact .iteSnd h (.coSet h)
  · exact .iteSnd h (.coSet h)
  · exact .iteSnd h (.bdkStops (.coSet h))
  · exact .iteSnd (.coSet h) h
  · exact .iteSnd (.coSet h) h
theorem endpointCtrl {e v} (h : s0.Keeps s) : s0.Keeps (s.endpointCtrl e v).2 := .iteSnd h (.iteSnd h (.ite (.modEp (.oSet h)) (.oSet h)))

/-! ### Depend.lean -/

theorem reissue {k} (h : s0.Keeps s) : s0.Keeps (s.reissue k) := by
  refine .ite h ?_
  split
  · exact .endSlot h
  · exact h
  · exact .startJob (.raise (.oInc (.modQ (.ite (.tick h) (.modQ (.tick h))))))
theorem readmit {k r bad traceAddr traceCap} (h : s0.Keeps s) : s0.Keeps (s.readmit k r bad traceAddr traceCap) := by
  unfold State.readmit
  split
  · exact .endSlot h
  · exact .endSlot (.checkFault h)
  · exact .insert (.modQ (.iteSnd (.draw h) h))
theorem regenerate {k desc shot} (h : s0.Keeps s) : s0.Keeps (s.regenerate k desc shot) := .readmit h
theorem redescRead {k uid j} (h : s0.Keeps s) : s0.Keeps (s.redescRead k uid j) :=
  .ite h (.ite (.endSlot h) (.ite (.loss h) (.ite (.ite (.startJob h) (.regenerate h)) (.readmit h))))
theorem reshotRead {k uid desc j} (h : s0.Keeps s) : s0.Keeps (s.reshotRead k uid desc j) :=
  .ite h (.ite (.endSlot h) (.ite (.loss h) (.ite (.endSlot h) (.regenerate h))))
theorem mendRetry {n} (h : s0.Keeps s) : s0.Keeps (s.mendRetry n) := by
  unfold State.mendRetry
  split
  · exact h
  · refine .ite h ?_
    dsimp only
    split
    · exact .send (.oInc (.modTile h))
    · exact .send (.oInc (.modTile h))
theorem ncFailed {b port line} (h : s0.Keeps s) : s0.Keeps (s.ncFailed b port line) := by
  refine .foldl h fun _ _ h1 => ?_
  split
  · exact .loss h1
  · exact h1
theorem withdrawn {b} (h : s0.Keeps s) : s0.Keeps (s.withdrawn b) := .logWithdrawal (.oSet (.modBob (.gateBob h)))
theorem withdrawDone {b} (h : s0.Keeps s) : s0.Keeps (s.withdrawDone b) := .ite (.raise (.oInc (.withdrawn h))) h
theorem cutoff {b} (h : s0.Keeps s) : s0.Keeps (s.cutoff b) := .ite (.raise (.oInc (.withdrawn (.foldl h fun _ _ h1 => .recoverEnt h1)))) h
theorem mismatchInterval (h : s0.Keeps s) : s0.Keeps s.mismatchInterval := .modTile h
theorem readmitCmd {code} (h : s0.Keeps s) : s0.Keeps (s.readmitCmd code).2 := .iteSnd (.oSet h) (.iteSnd (.oSet h) (.logWrite (.oSet h)))
theorem unitLost {v} (h : s0.Keeps s) : s0.Keeps (s.unitLost v) := by
  refine .ite h ?_
  split
  · exact .pinTrim (.modTile h)
  · exact .modTile h
theorem slotLost {k} (h : s0.Keeps s) : s0.Keeps (s.slotLost k) := by
  unfold State.slotLost
  dsimp only
  split
  · exact .ite (.loss h) h
  · exact .ite h (.modQ h)
  · exact .loss h
theorem parkLost {v bad} (h : s0.Keeps s) : s0.Keeps (s.parkLost v bad) :=
  .ite h (.ite (.foldl (.modTile h) fun _ _ h1 => .slotLost h1) (.modTile h))
theorem lossOf {k} (h : s0.Keeps s) : s0.Keeps (s.lossOf k) := by
  unfold State.lossOf
  split
  · exact .slotLost h
  · exact .loss h
theorem extLost {v bad} (h : s0.Keeps s) : s0.Keeps (s.extLost v bad) := by
  refine .ite ?_ h
  split
  · exact .lossOf h
  · exact h
theorem tableLost {v bad} (h : s0.Keeps s) : s0.Keeps (s.tableLost v bad) := .ite (.foldl h fun _ _ h1 => .lossOf h1) h
theorem chunkLost {v bad} (h : s0.Keeps s) : s0.Keeps (s.chunkLost v bad) :=
  .ite h (.ite (.foldl (.modTile h) fun _ _ h1 => .toEscape (.modQ (.modQ (.unbin h1)))) (.ite (.modTile h) (.modTile h)))
theorem pageLost {v bad} (h : s0.Keeps s) : s0.Keeps (s.pageLost v bad) := by
  refine .ite h ?_
  dsimp only
  split
  · exact .ite (.modTile h) (.ite (.loss (.modQ (.modSt (.modTile h)))) (.modTile h))
  · exact .modTile h
theorem dirtyLost {cs} (h : s0.Keeps s) : s0.Keeps (s.dirtyLost cs) := .foldl (.raise (.oInc h)) fun _ _ h1 => .spillFault h1
theorem wayLost {v line bad} (h : s0.Keeps s) : s0.Keeps (s.wayLost v line bad) := by
  refine .ite h ?_
  dsimp only
  split
  · exact .modTile h
  · exact .ite (.dirtyLost (.modLc (.modTile h))) (.ite (.modLc (.evictLine (.modTile h))) (.ite (.raise (.oInc (.modLc (.modTile h))))
        (.modLc (.modTile h))))
theorem wayTagError (h : s0.Keeps s) : s0.Keeps s.wayTagError := by
  refine .ite h ?_
  split
  · exact .draw h
  · exact .ite (.dirtyLost (.modLc (.draw h))) (.modLc (.draw h))
theorem lineLost {line bad} (h : s0.Keeps s) : s0.Keeps (s.lineLost line bad) := by
  unfold State.lineLost
  dsimp only
  split
  · exact .extLost (.draw h)
  · exact .tableLost (.draw h)
  · exact .unitLost (.ite (.oInc (.draw h)) (.draw h))
  · exact .parkLost (.draw h)
  · exact .chunkLost (.draw h)
  · exact .pageLost (.draw h)
  · exact .wayLost (.draw h)
  · exact .draw h
theorem retire {line bad} (h : s0.Keeps s) : s0.Keeps (s.retire line bad) := .ite h (.lineLost (.logJournal (.raise (.oSet (.modTile h)))))
theorem scrub {k o} (h : s0.Keeps s) : s0.Keeps (s.scrub k o) := by
  refine .ite h ?_
  dsimp only
  split
  · exact h
  · split
    · exact .ite (.oInc (.modTile h)) (.modTile h)
    · exact .ite (.retire (.logWrite (.oInc (.modTile (.ite (.oInc (.modTile h)) (.modTile h)))))) (.logWrite (.oInc (.modTile (.ite
          (.oInc (.modTile h)) (.modTile h)))))
    · exact .retire (.ite (.oInc (.modTile h)) (.modTile h))
    · exact .wayTagError (.ite (.oInc (.modTile h)) (.modTile h))

/-! ### Migrate.lean -/

theorem migStale {sp f} (h : s0.Keeps s) : s0.Keeps (s.migStale sp f) := .raise (.oInc h)
theorem seamCredits {sp f} (h : s0.Keeps s) : s0.Keeps (s.seamCredits sp f) := .seamDrain (.modPort h)
theorem seamIn {sp f k} (hk : ∀ u, s0.Keeps u → s0.Keeps (k u)) (h : s0.Keeps s) : s0.Keeps (s.seamIn sp f k) :=
  .ite h (.ite (.migStale (.seamCredits h)) (hk _ (.seamCredits h)))
theorem sendVec {home migid rw bytes n} (h : s0.Keeps s) : s0.Keeps (s.sendVec home migid rw bytes n) :=
  .foldl h fun _ _ h1 => .getD (fun _ e => .sendSeam h1 e) h1
theorem migOut {e} (h : s0.Keeps s) : s0.Keeps (s.migOut e) := by
  unfold State.migOut
  dsimp only
  split
  · exact h
  · exact .ite h (.oInc (.getD (fun _ e => .sendSeam (.ite (.sendVec h) h) e) (.ite (.sendVec h) h)))
theorem migAgain {e} (h : s0.Keeps s) : s0.Keeps (s.migAgain e) := .migOut (.modMig h)
theorem migFree {e} (h : s0.Keeps s) : s0.Keeps (s.migFree e) := .modMig h
theorem migFault {e} (h : s0.Keeps s) : s0.Keeps (s.migFault e) := .endSlot (.modQ (.migFree h))
theorem migStart {k} (h : s0.Keeps s) : s0.Keeps (s.migStart k) := by
  unfold State.migStart
  dsimp only
  split
  · exact h
  · split
    · exact h
    · exact .ite (.rbStop h) (.migOut (.modMig h))
theorem migrateSend {k} (h : s0.Keeps s) : s0.Keeps (s.migrateSend k) := .ite h (.ite (.startJob h) (.migStart h))
theorem migVecRead {k uid j} (h : s0.Keeps s) : s0.Keeps (s.migVecRead k uid j) :=
  .ite h (.ite (.endSlot (.modQ h)) (.ite (.loss h) (.migStart (.modQ h))))
theorem migRetry {e} (h : s0.Keeps s) : s0.Keeps (s.migRetry e) := .ite (.migAgain (.modMig (.oInc (.ite (.oInc h) h)))) (.migFault h)
theorem migTimeout {e} (h : s0.Keeps s) : s0.Keeps (s.migTimeout e) := .ite h (.ite (.ite (.migFree h) (.modMig h)) (.ite h (.migRetry h)))
theorem migBackoff {e} (h : s0.Keeps s) : s0.Keeps (s.migBackoff e) := .ite (.migAgain (.oInc h)) h
theorem applyResult {sp e f} (h : s0.Keeps s) : s0.Keeps (s.applyResult sp e f) := by
  unfold State.applyResult
  dsimp only
  split
  · exact h
  · exact .ite (.migFault (.raise (.releaseOut (.modMig h)))) (.ite (.migAgain (.modMig (.oInc (.modQ (.releaseOut (.modMig h))))))
        (.insert (.modQ (.migFree (.ite (.modQ (.setFree (.modQ (.modQ (.releaseOut (.modMig h)))))) (.modQ (.modQ (.releaseOut
        (.modMig h)))))))))
theorem migCheck {sp e} (h : s0.Keeps s) : s0.Keeps (s.migCheck sp e) := by
  unfold State.migCheck
  dsimp only
  split
  · exact .ite (.applyResult h) h
  · exact h
theorem resultIn {sp f} (h : s0.Keeps s) : s0.Keeps (s.resultIn sp f) :=
  .ite (.migStale h) (.ite (.migFree h) (.ite (.modMig h) (.ite h (.migCheck (.modMig h)))))
theorem recsIn {sp f} (h : s0.Keeps s) : s0.Keeps (s.recsIn sp f) := .ite (.migStale h) (.ite h (.migCheck (.modMig h)))
theorem migOrphan {k} (h : s0.Keeps s) : s0.Keeps (s.migOrphan k) := by
  unfold State.migOrphan
  split
  · exact .modMig h
  · exact h
theorem migvecIn {f} (h : s0.Keeps s) : s0.Keeps (s.migvecIn f) := .modTile h
theorem migrateIn {sp f} (h : s0.Keeps s) : s0.Keeps (s.migrateIn sp f) :=
  .ite (.answer (.modTile h)) (.ite (.answer (.modTile h)) (.ite (.answer (.oInc (.modTile h))) (.oInc (.insert (.modQ (.tick
    (.modTile h)))))))
theorem maintAck {tile migid st} (h : s0.Keeps s) : s0.Keeps (s.maintAck tile migid st) := .getD (fun _ e => .sendSeam h e) h
theorem maintIn {f} (h : s0.Keeps s) : s0.Keeps (s.maintIn f) := by
  refine .ite (.maintAck h) ?_
  split
  · exact .ite (.maintAck h) (.ite (.maintAck (.modCtx (.idxCmd (.modCtx h)))) (.idxCmd (.modCtx h)))
  · exact .ite (.maintAck (.coSet h)) (.maintAck h)
  · exact .maintAck (.coSet h)
  · exact .maintAck (.coSet h)
  · exact .maintAck h

/-! ### Ports.lean -/

theorem sectorIn {p r sec v last} (h : s0.Keeps s) : s0.Keeps (s.sectorIn p r sec v last) :=
  .foldl (.ite (.lcSector (.foldl h fun _ _ h1 => .jobSector h1)) (.foldl h fun _ _ h1 => .jobSector h1)) fun _ _ h1 => .ncSectorIn h1
theorem cpldIn {p hdr data} (h : s0.Keeps s) : s0.Keeps (s.cpldIn p hdr data) := by
  refine .ite h (.ite (.raise h) ?_)
  dsimp only
  split
  · exact .raise h
  · exact .ite (.raise h) (.drainAfter (.ite (.failReq (.ite (.modPort h) (.sectorIn (.oAdd (.modPort h))))) (.ite (.modPort h) (.sectorIn
        (.oAdd (.modPort h))))))
theorem cplIn {p hdr} (h : s0.Keeps s) : s0.Keeps (s.cplIn p hdr) := by
  refine .ite h (.ite (.raise h) ?_)
  dsimp only
  split
  · exact .raise h
  · refine .drainAfter (.ite ?_ (.failReq (.modPort h)))
    split
    · exact .setDue (.modPort h)
    · exact .modPort h
theorem cplTimeout {p wr tag} (h : s0.Keeps s) : s0.Keeps (s.cplTimeout p wr tag) := by
  refine .ite h ?_
  split
  · exact h
  · exact .drainAfter (.failReq (.raise (.modPort h)))
theorem laneFault {p m} (h : s0.Keeps s) : s0.Keeps (s.laneFault p m) := .ite h (.ite (.modPort h) (.ite (.portFail h) h))
theorem retrainDone {p} (h : s0.Keeps s) : s0.Keeps (s.retrainDone p) :=
  .ite (.ite (.drainPort (.raise (.modPort (.oSet h)))) (.seamDrain (.raise (.modPort (.oSet h))))) h
theorem retrainTimeout {p m} (h : s0.Keeps s) : s0.Keeps (s.retrainTimeout p m) := .ite (.portFail h) h
theorem lcFailed {port line} (h : s0.Keeps s) : s0.Keeps (s.lcFailed port line) := by
  unfold State.lcFailed
  dsimp only
  split
  · exact h
  · exact .ite (.foldl (.modLc h) fun _ _ h1 => .spillFault h1) (.modLc h)
theorem lcBacked {port line bad} (h : s0.Keeps s) : s0.Keeps (s.lcBacked port line bad) :=
  .ite (.foldl (.modTile h) fun _ _ h1 => .spillFault h1) (.oInc (.modTile h))
theorem ncFillFailed {b port line} (h : s0.Keeps s) : s0.Keeps (s.ncFillFailed b port line) := by
  refine .ncFailed ?_
  split
  · exact .modBob (.modNc h)
  · exact h
theorem hwr {hp i apply} (happly : ∀ u, s0.Keeps u → s0.Keeps (apply u)) (h : s0.Keeps s) : s0.Keeps (s.hwr hp i apply) :=
  .ite h (.ite (.ite (.wakeEvent (.setHeld (.modPort h))) h) (.ite (happly _ (.oInc (.wakeEvent h))) h))
theorem seamRx {sp i apply} (happly : ∀ u, s0.Keeps u → s0.Keeps (apply u)) (h : s0.Keeps s) : s0.Keeps (s.seamRx sp i apply) :=
  .ite h (.ite (.wakeEvent (.setHeld h)) (.ite (happly _ (.wakeEvent h)) h))

/-! ### Control.lean -/

theorem contextEnable {c v} (h : s0.Keeps s) : s0.Keeps (s.contextEnable c v).2 := .iteSnd h (.iteSnd h (.iteSnd h (.coSet h)))
theorem quotaWrite {c o v} (h : s0.Keeps s) : s0.Keeps (s.quotaWrite c o v).2 :=
  .iteSnd (.iteSnd h (.quotaCheck (.modCtx (.coSet h)))) (.iteSnd (.iteSnd h (.quotaCheck (.modCtx (.coSet h)))) (.iteSnd h (.coSet h)))
theorem streamReset {c st} (h : s0.Keeps s) : s0.Keeps (s.streamReset c st) := .setResBit (.setResBit (.modSt h))
theorem streamEnable {c st v} (h : s0.Keeps s) : s0.Keeps (s.streamEnable c st v).2 :=
  .iteSnd h (.iteSnd h (.iteSnd h (.ite (.streamReset (.coSet h)) (.coSet h))))
theorem dlvWrite {c o st v} (h : s0.Keeps s) : s0.Keeps (s.dlvWrite c o st v).2 :=
  .iteSnd (.iteSnd h (.ite (.rfaultClear (.ite (.redirClear (.coSet h)) (.coSet h))) (.ite (.redirClear (.coSet h)) (.coSet h))))
    (.iteSnd h (.iteSnd h (.coSet h)))
theorem rbWrite {sub v} (h : s0.Keeps s) : s0.Keeps (s.rbWrite sub v).2 := .iteSnd (.iteSnd h (.oSet h)) (.iteSnd h (.oSet h))
theorem cancelSlot {k} (h : s0.Keeps s) : s0.Keeps (s.cancelSlot k) := by
  unfold State.cancelSlot
  split
  · exact .endSlot (.unbin h)
  · exact .endSlot (.unbin h)
  · exact .endSlot h
  · exact .endSlot (.modQ (.migOrphan h))
  · exact .modQ h
  · exact .modQ h
  · exact .ite (.stopOp (.boundary (.modQ h))) (.boundary (.modQ h))
  · exact h
  · exact h
  · exact h
theorem cancel {c mask} (h : s0.Keeps s) : s0.Keeps (s.cancel c mask) :=
  .foldl h fun _ _ h1 => .foldl (.modSt h1) fun _ _ h2 => .cancelSlot h2
theorem abortSlot {k} (h : s0.Keeps s) : s0.Keeps (s.abortSlot k) := by
  unfold State.abortSlot
  dsimp only
  split
  · exact h
  · exact .ite (.modQ h) (.ite (.answerEnd (.leave (.stopOp h))) (.freeQuery (.leave (.stopOp h))))
  · exact .ite (.answerEnd (.unbin h)) (.freeQuery (.unbin h))
  · exact .ite (.answerEnd (.unbin h)) (.freeQuery (.unbin h))
  · exact .modQ h
  · exact .ite (.answerEnd (.migOrphan h)) (.freeQuery (.migOrphan h))
  · exact .ite h (.ite (.answerEnd h) (.freeQuery h))
  · exact .ite (.answerEnd h) (.freeQuery h)
  · exact .ite (.answerEnd h) (.freeQuery h)
  · exact .ite (.answerEnd h) (.freeQuery h)
theorem abortStream {c st} (h : s0.Keeps s) : s0.Keeps (s.abortStream c st) := .modSt (.coSet h)
theorem abortFrames (h : s0.Keeps s) : s0.Keeps s.abortFrames := .foldl h fun _ _ h1 => .modPort h1
theorem abortLines {c} (h : s0.Keeps s) : s0.Keeps (s.abortLines c) := .ite h (.lcSweep (.modTile h))
theorem abortRetries {c} (h : s0.Keeps s) : s0.Keeps (s.abortRetries c) := .foldl (.modTile h) fun _ _ h1 => .send h1
theorem abortCtx {c} (h : s0.Keeps s) : s0.Keeps (s.abortCtx c) :=
  .abortRetries (.abortLines (.abortFrames (.modTile (.foldl (.foldl (.modCtx (.coSet (.coSet h))) fun _ _ h1 => .abortStream h1)
    fun _ _ h1 => .abortSlot h1))))
theorem abortDone {c} (h : s0.Keeps s) : s0.Keeps (s.abortDone c) :=
  .foldl (.modCtx (.modTile (.oAdd (.filterThr h)))) fun _ _ h1 => .modSt h1
theorem abortFinish {us} (h : s0.Keeps s) : s0.Keeps (s.abortFinish us) :=
  .modPwr (.oSet (.oSet (.oSet (.foldl h fun _ _ h1 => .abortDone h1))))
theorem releaseDone {c} (h : s0.Keeps s) : s0.Keeps (s.releaseDone c) := .ite (.modCtx (.oSet h)) h
theorem abortBegin {code} (h : s0.Keeps s) : s0.Keeps (s.abortBegin code) :=
  .ite (.foldl (.abortFinish (.foldl (.modPwr (.oSet h)) fun _ _ h1 => .abortCtx h1)) fun _ _ h1 => .releaseDone h1) (.foldl (.modPwr
    (.oSet h)) fun _ _ h1 => .abortCtx h1)
theorem abortCmd {code} (h : s0.Keeps s) : s0.Keeps (s.abortCmd code).2 :=
  .iteSnd h (.iteSnd (.oSet h) (.iteSnd (.oSet h) (.iteSnd (.wakeEvent (.modPwr (.oSet h))) (.abortBegin (.wakeEvent h)))))
theorem abortComplete {us} (h : s0.Keeps s) : s0.Keeps (s.abortComplete us) := .ite (.abortFinish h) h
theorem abortAfterWake (h : s0.Keeps s) : s0.Keeps s.abortAfterWake := .ite (.abortBegin (.modPwr h)) h

/-! ### Dict.lean -/

theorem deny {src} (h : s0.Keeps s) : s0.Keeps (s.deny src) := .ite h (.raise (.modRing h))
theorem freeObj {size} (h : s0.Keeps s) : s0.Keeps (s.freeObj size).2 := .draw h
theorem dictRead {row idx sub} (h : s0.Keeps s) : s0.Keeps (s.dictRead row idx sub).2 := by
  refine .iteSnd h (.iteSnd (.iteSnd h (.freeObj h)) ?_)
  split
  · exact h
  · exact .iteSnd h (.iteSnd h h)
theorem causeClear {leaf mask} (h : s0.Keeps s) : s0.Keeps (s.causeClear leaf mask) :=
  .ite (.modRing (.foldl h fun _ _ h1 => .ite (.oSet (.oSet h1)) h1)) (.foldl h fun _ _ h1 => .ite (.oSet (.oSet h1)) h1)
theorem evtAck {eseq} (h : s0.Keeps s) : s0.Keeps (s.evtAck eseq) := by
  unfold State.evtAck
  split
  · exact .modRing (.oSet h)
  · exact h
theorem winWrite {c sub v} (h : s0.Keeps s) : s0.Keeps (s.winWrite c sub v).2 := .iteSnd (.iteSnd h (.oSet h)) (.iteSnd h (.oSet h))
theorem ctxWrite {c o sub v} (h : s0.Keeps s) : s0.Keeps (s.ctxWrite c o sub v).2 :=
  .iteSnd (.contextEnable h) (.iteSnd (.quotaWrite h) (.iteSnd (.iteSnd h (.cancel h)) (.iteSnd (.idxCmd h) (.iteSnd (.iteSnd
    (.coSet h) h) (.iteSnd (.iteSnd (.modCtx (.coSet h)) h) (.iteSnd (.dlvWrite h) (.iteSnd (.iteSnd (.bdkCtrl h) (.bdkObject h)) (.iteSnd
    (.iteSnd h (.iteSnd (.streamEnable h) (.coSet h))) (.coSet h)))))))))
theorem stage {code} (h : s0.Keeps s) : s0.Keeps (s.stage code).2 := by
  unfold State.stage
  split
  · exact .oSet h
  · exact .iteSnd (.oSet (.oSet h)) (.oSet h)
theorem mapWrite {src idx sub v} (h : s0.Keeps s) : s0.Keeps (s.mapWrite src idx sub v).2 := .iteSnd h (.iteSnd h (.iteSnd h (.oSet h)))
theorem cmdWrite {idx sub v} (h : s0.Keeps s) : s0.Keeps (s.cmdWrite idx sub v).2 := by
  unfold State.cmdWrite
  split
  · exact .iteSnd (.modRing h) h
  · exact .powerCmd h
  · exact .partCmd h
  · exact .imgLoad h
  · exact .readmitCmd h
  · exact .startCmd (.setFree h)
  · exact .iteSnd (.modRing (.oSet h)) (.oSet h)
  · exact .abortCmd h
  · exact .mtCmd h
  · exact .stage h
theorem objWrite {src row idx sub v} (h : s0.Keeps s) : s0.Keeps (s.objWrite src row idx sub v).2 := by
  have ack : s0.Keeps (match src with | .ring a => if a = s.o 0x1120 1 then s.evtAck v else s.oSet idx sub v | _ => s.oSet idx sub v) := by
    split
    · exact .ite (.evtAck h) (.oSet h)
    · exact .oSet h
  refine .iteSnd h (.iteSnd (.ctxWrite h) (.iteSnd (.cmdWrite h) (.iteSnd (.causeClear h) (.iteSnd (.winWrite h) (.iteSnd ?_ (.iteSnd (.mapWrite h)
    (.iteSnd (.cacheCtl h) (.iteSnd (.rbWrite h) (.iteSnd h (.iteSnd ack (.iteSnd (.replan (.reguard (.oSet h))) (.iteSnd (.replan (.setMstatus (.oSet h)))
    (.iteSnd (.lockWays h) (.oSet h))))))))))))))
  exact .iteSnd (.endpointCtrl h) (.iteSnd h (.oSet h))
theorem domainCommit {src idx v len} (h : s0.Keeps s) : s0.Keeps (s.domainCommit src idx v len).2 :=
  .iteSnd (.iteSnd (.newChallenge (.oSet h)) (.newChallenge (.raise h))) (.iteSnd (.iteSnd (.oSet h) h) (.modRing h))
theorem domainSeg {src idx sub size off len v last} (h : s0.Keeps s) : s0.Keeps (s.domainSeg src idx sub size off len v last).2 := by
  unfold State.domainSeg
  dsimp only
  split
  · exact .iteSnd h (.iteSnd (.ite (.newChallenge (.modRing h)) (.modRing h)) (.iteSnd (.domainCommit (.modRing h)) (.modRing
        (.modRing h))))
  · exact .iteSnd (.ite (.newChallenge h) h) (.iteSnd (.domainCommit (.modRing h)) (.modRing (.modRing h)))
theorem domainTimeout {idx sub} (h : s0.Keeps s) : s0.Keeps (s.domainTimeout idx sub) := .modRing h
theorem access {src idx sub} (h : s0.Keeps s) : s0.Keeps (s.access src idx sub).2 := by
  refine .iteSnd (.iteSnd h h) ?_
  split
  · exact .iteSnd (.deny h) h
  · exact .iteSnd (.deny h) (.iteSnd h h)
theorem readReq {src idx sub off len} (h : s0.Keeps s) : s0.Keeps (s.readReq src idx sub off len).2.2 := by
  unfold State.readReq
  dsimp only
  split
  · exact .access h
  · split
    · split
      · exact h
      · exact h
    · split
      · exact h
      · split
        · split
          · exact h
          · exact .dictRead h
        · split
          · split
            · exact h
            · exact .dictRead h
          · split
            · exact h
            · exact .dictRead h
theorem writeReq {src idx sub off len v last} (h : s0.Keeps s) : s0.Keeps (s.writeReq src idx sub off len v last).2 := by
  refine .iteSnd (.access h) ?_
  split
  · exact .iteSnd h h
  · split
    · exact .iteSnd h (.domainSeg h)
    · exact .iteSnd h h
    · exact .iteSnd h (.objWrite h)
theorem afterReq (h : s0.Keeps s) : s0.Keeps s.afterReq := by
  unfold State.afterReq
  dsimp only
  split
  · exact .ringReset (.modRing h)
  · exact .resetPulse (.modRing h)
  · exact h
theorem operWrite {idx sub len v} (h : s0.Keeps s) : s0.Keeps (s.operWrite idx sub len v) := .ite h (.afterReq (.writeReq h))

/-! ### Ring.lean -/

theorem frameDiscard {why} (h : s0.Keeps s) : s0.Keeps (s.frameDiscard why) := by
  refine .ite h ?_
  split
  · exact .oInc h
  · exact .oInc h
theorem frameIn {f own} (hown : ∀ k, own = Option.some k → ∀ u, s0.Keeps u → s0.Keeps (k u)) (h : s0.Keeps s) :
    s0.Keeps (s.frameIn f own) := by
  refine .ite h ?_
  split
  · exact .frameDiscard h
  · refine .ite h (.ite ?_ (.relayRing h))
    split
    · exact hown _ rfl _ (.oInc h)
    · exact .ite (.relayRing (.oInc h)) (.oInc h)
theorem enum {f} (h : s0.Keeps s) : s0.Keeps (s.enum f) :=
  .ite (.relayRing (.oSet (.modRing (.oSet (.oSet h))))) (.resendPeers (.sendHeld (.relayRing (.oSet (.modRing (.oSet (.oSet h)))))))
theorem members {f} (h : s0.Keeps s) : s0.Keeps (s.members f) := .ite (.relayRing (.oSet h)) (.relayRing h)
theorem serveRing {f} (h : s0.Keeps s) : s0.Keeps (s.serveRing f) := by
  refine .afterReq (.modRing (.sendRing ?_))
  split
  · exact .readReq h
  · exact .writeReq h
theorem serveMail {hp} (h : s0.Keeps s) : s0.Keeps (s.serveMail hp) := by
  unfold State.serveMail
  dsimp only
  split
  · exact h
  · exact .ite (.afterReq (.modPort (.access h))) (.ite (.afterReq (.modPort h)) (.ite (.afterReq (.modPort (.writeReq h))) (.ite
        (.afterReq (.modPort (.readReq h))) (.afterReq (.modPort (.readReq h))))))
theorem serveQueue {fuel} (h : s0.Keeps s) : s0.Keeps (State.serveQueue fuel s) := by
  induction fuel generalizing s with
  | zero => exact h
  | succ n ih =>
    unfold State.serveQueue
    split
    · exact h
    · refine .ite (ih ?_) h
      split
      · exact .serveRing (.modRing h)
      · exact .serveMail (.modRing h)
theorem tailor (h : s0.Keeps s) : s0.Keeps s.tailor := .serveQueue h
theorem ringRequest {f} (h : s0.Keeps s) : s0.Keeps (s.ringRequest f) := by
  unfold State.ringRequest
  split
  · exact .sendRing (.oInc h)
  · exact .ite (.sendRing (.oInc h)) (.tailor (.modRing h))
theorem mbCmd {hp op index sub} (h : s0.Keeps s) : s0.Keeps (s.mbCmd hp op index sub) :=
  .ite h (.ite (.tailor (.modRing (.modPort h))) (.modPort h))
theorem regWrite {hp a v u} (h : s0.Keeps s) (e : s.regWrite hp a v = Option.some u) : s0.Keeps u := by
  unfold State.regWrite at e
  dsimp only at e
  repeat' split at e
  all_goals cases e
  · exact .bell h
  · exact .rconsWrite h
  · exact .scredWrite h
  · exact .bcredWrite h
  · exact .dcredWrite h
  · exact .mbCmd h
  · exact h
  · exact h
  · exact .modPort h
theorem windowWrite {hp off data mask u} (h : s0.Keeps s) (e : s.windowWrite hp off data mask = Option.some u) : s0.Keeps u := by
  unfold State.windowWrite at e
  dsimp only at e
  split at e
  · exact Option.some.inj e ▸ .ite h (.modPort h)
  · split at e
    · exact .regWrite h e
    · split at e
      · exact Option.some.inj e ▸ .bdkPush h
      · cases e
    · cases e
theorem announce (h : s0.Keeps s) : s0.Keeps s.announce := .ite (.setFree (.sendRing h)) h
theorem bypassGo (h : s0.Keeps s) : s0.Keeps s.bypassGo := .ite (.announce (.oSet (.modRing h))) h
theorem evtResend (h : s0.Keeps s) : s0.Keeps s.evtResend := .ite (.sendHeld h) h

/-! ### Settle.lean -/

theorem idxGo {hx} (h : s0.Keeps s) : s0.Keeps (s.idxGo hx) := .foldl (.idxProgress h) fun _ _ h1 => .insert h1
theorem reloadGo {c k uid j} (h : s0.Keeps s) : s0.Keeps (s.reloadGo c k uid j) := by
  unfold State.reloadGo
  split
  · exact .ite (.loss (.modQ (.fst ‹_› (.reloaded h)))) (.endSlot (.fst ‹_› (.reloaded h)))
  · exact .fst ‹_› (.reloaded h)
theorem jobDone {j} (h : s0.Keeps s) : s0.Keeps (s.jobDone j) := by
  unfold State.jobDone
  split
  · exact .fetched h
  · exact .shotRead h
  · exact .contBuilt h
  · exact .idxImage h
  · exact .rootRead h
  · exact .pinCopied h
  · exact .imgHeader h
  · exact .imgBody h
  · exact .slotHeader h
  · exact .reloadGo h
  · exact .keyRead h
  · split
    · exact .fst ‹_› (.vecIn h)
    · exact .loss (.fst ‹_› (.vecIn h))
  · exact .migVecRead h
  · exact .redescRead h
  · exact .reshotRead h
  · exact .lockRead h
theorem traceFault {c st} (h : s0.Keeps s) : s0.Keeps (s.traceFault c st) :=
  .ite (.raise (.setResBit h)) (.ite h (.raise (.oInc (.setResBit h))))
theorem writeDone {w bad} (h : s0.Keeps s) : s0.Keeps (s.writeDone w bad) := by
  unfold State.writeDone
  split
  · exact h
  · exact h
  · exact h
  · exact .ite h (.bdkRseq h)
  · exact .ringWrote h
  · exact .rowWrote h
  · exact .flagWrote h
  · exact .ite (.traceFault h) h
  · exact .ite (.dispatchFault h) h
  · exact .ite (.dispatchFault h) h
  · exact .ite (.spillFault h) h
  · exact .lcBacked h
theorem dueOne {d} (h : s0.Keeps s) : s0.Keeps (s.dueOne d) := by
  unfold State.dueOne
  split
  · exact .jobDone h
  · exact .writeDone h
  · exact .ncFillFailed h
  · exact .lcFailed h
theorem dueAll {fuel} (h : s0.Keeps s) : s0.Keeps (State.dueAll fuel s) := by
  induction fuel generalizing s with
  | zero => exact h
  | succ n ih =>
    unfold State.dueAll
    split
    · exact h
    · exact ih (.dueOne (.setDue h))
theorem lossAll (h : s0.Keeps s) : s0.Keeps s.lossAll := .foldl (.ite h (.modTile h)) fun _ _ h1 => .ite (.loss h1) h1
theorem idxAll (h : s0.Keeps s) : s0.Keeps s.idxAll := .foldl h fun _ _ h1 => .idxGo h1
theorem settle (h : s0.Keeps s) : s0.Keeps s.settle :=
  .ite (.dueAll (.hemStep (.keyRetry (.lossAll (.idxAll (.lcRetry (.dueAll h))))))) (.tailor (.dueAll (.hemStep (.keyRetry (.lossAll
    (.idxAll (.lcRetry (.dueAll h))))))))
theorem applyIn {i} (h : s0.Keeps s) : s0.Keeps (s.applyIn i) := by
  unfold State.applyIn
  split
  · exact .bell h
  · exact .rconsWrite h
  · exact .scredWrite h
  · exact .bcredWrite h
  · exact .dcredWrite h
  · exact .bdkPush h
  · exact .bdkPush h
  · exact .bdkPush h
  · exact .bdkPush h
  · exact .bdkPush h
  · exact .bdkPush h
  · exact .bdkPush h
  · exact .mbCmd h
  · exact .mbCmd h
  · exact .mbCmd h
  · split
    · exact .windowWrite h ‹_›
    · exact .raise h
  · exact .seamIn (fun _ h1 => .migrateIn h1) h
  · exact .seamIn (fun _ h1 => .migvecIn h1) h
  · exact .seamIn (fun _ h1 => .resultIn h1) h
  · exact .seamIn (fun _ h1 => .recsIn h1) h
  · exact .seamIn (fun _ h1 => .maintIn h1) h
  · exact .seamIn (fun _ h1 => h1) h
  · exact .seamIn (fun _ h1 => h1) h
  · exact h
theorem hwrIn {i} (h : s0.Keeps s) : s0.Keeps (s.hwrIn i) := by
  unfold State.hwrIn
  split
  · exact .hwr (fun _ h1 => .applyIn h1) h
  · exact h
theorem wakeGo (h : s0.Keeps s) : s0.Keeps s.wakeGo := by
  refine .ite (.abortAfterWake (.foldl (.wakeDone (.setHeld h)) fun _ _ h1 => .applyIn ?_)) h
  split
  · exact .modPort (.oInc h1)
  · exact h1

/-! ### Bst.lean -/

theorem bstOne {b g chk opcode op} (h : s0.Keeps s) : s0.Keeps (s.bstOne b g chk opcode op) := by
  unfold State.bstOne
  split
  · exact .entError h
  · exact .bstAgain h
  · exact .bstAgain h
  · exact .bstInstr h
theorem bstStep {b g chk opcode op} (h : s0.Keeps s) : s0.Keeps (s.bstStep b g chk opcode op) := .ite (.bstOne h) (.settle (.bstOne h))

/-! ### HostCmds.lean -/

theorem bdkRow {i c w is} (h : s0.Keeps s) : s0.Keeps (s.bdkRow i c w is) := by
  refine .bdkApply ?_
  split
  · exact .hwrIn h
  · exact h
theorem seamRow {sp i} (h : s0.Keeps s) : s0.Keeps (s.seamRow sp i) := .seamRx (fun _ h1 => .applyIn h1) h
theorem ringRow {f ftype own} (hown : ∀ k, own = Option.some k → ∀ u, s0.Keeps u → s0.Keeps (k u)) (h : s0.Keeps s) : s0.Keeps (s.ringRow f ftype own) :=
  .ite (.frameIn hown h) h

/-! ### Needle.lean -/

theorem needleOp {b n chk kind ty apply} (happly : ∀ u x1 x2, s0.Keeps u → s0.Keeps (apply u x1 x2)) (h : s0.Keeps s) :
    s0.Keeps (s.needleOp b n chk kind ty apply) := by
  unfold State.needleOp
  split
  · exact .fst ‹_› (.pickOf h)
  · exact .storeError (fun _ h1 => .checked (fun _ h2 => happly _ _ _ h2) h1) (.fst ‹_› (.pickOf h))
theorem recomputed {b e chk} (h : s0.Keeps s) : s0.Keeps (s.recomputed b e chk) := .ite (.ite (.oInc (.oInc h)) (.oInc h)) h
theorem unitOp {b unit chk kind apply} (happly : ∀ u, s0.Keeps u → s0.Keeps (apply u)) (h : s0.Keeps s) :
    s0.Keeps (s.unitOp b unit chk kind apply) := by
  unfold State.unitOp
  split
  · exact h
  · exact .storeError (fun _ h1 => .checked (fun _ h2 => happly _ h2) (.ite (.recomputed h1) h1)) h

/-! ### PowerCmds.lean -/

theorem tapRow {n} (h : s0.Keeps s) : s0.Keeps (s.tapRow n) := .ite (.tapSet h) h

/-! ### TileCmds.lean -/

theorem ctxObj {c o sub len v} (h : s0.Keeps s) : s0.Keeps (s.ctxObj c o sub len v) := .ite (.operWrite h) h
theorem mtRow {op} (h : s0.Keeps s) : s0.Keeps (s.mtRow op) := .ite (.operWrite h) h
theorem resBit {c st i} (h : s0.Keeps s) : s0.Keeps (s.resBit c st i) := .ite (.ctxObj h) h

/-! ### UnitCmds.lean -/

theorem cycle (h : s0.Keeps s) : s0.Keeps s.cycle := .setClkF h

/-! ## What the tile does with a frame that is its own -/

variable {c : Prop} [Decidable c] {f : State → State}

theorem ownSome (h : ∀ u, s0.Keeps u → s0.Keeps (f u)) : ∀ k, Option.some f = Option.some k → ∀ u, s0.Keeps u → s0.Keeps (k u) := by
  rintro k ⟨⟩
  exact h
theorem ownNone : ∀ k : State → State, none = Option.some k → ∀ u, s0.Keeps u → s0.Keeps (k u) := by
  rintro k ⟨⟩
theorem ownIf (h : ∀ u, s0.Keeps u → s0.Keeps (f u)) :
    ∀ k, (if c then Option.some f else none) = Option.some k → ∀ u, s0.Keeps u → s0.Keeps (k u) := by
  split
  · exact ownSome h
  · exact ownNone
theorem ownIfNot (h : ∀ u, s0.Keeps u → s0.Keeps (f u)) :
    ∀ k, (if c then none else Option.some f) = Option.some k → ∀ u, s0.Keeps u → s0.Keeps (k u) := by
  split
  · exact ownNone
  · exact ownSome h

end State.Keeps

/-- Every command answers a next state, with the queue as it was and the stores in canonical form where they were. -/
theorem exec_keeps (i : Instr) (s : State) : ∃ t, exec i s = .next t ∧ s.Keeps t := by
  have h : s.Keeps s := .refl s
  cases i with
  | objectWrite w =>
    cases w with
    | dict _ _ _ _ => exact ⟨_, rfl, .settle (.operWrite h)⟩
    | window _ _ _ _ => exact ⟨_, rfl, .settle (.hwrIn h)⟩
  | bstNop | bstLoad | bstStore | bstLoadhi | bstLoadx | bstStorex | bstLoady | bstStorey | bstLoadct | bstStorect | bstMovax | bstMovxa | bstMovay
  | bstMovya | bstMovact | bstMovcta | bstAddx | bstAddy | bstAddct | bstAdd | bstAddcy | bstSub | bstSubcy | bstCmp | bstAnd | bstOr | bstXor
  | bstMul | bstMulh | bstMulhu | bstDiv | bstDivu | bstRem | bstRemu | bstNeg | bstShl | bstShr | bstSar | bstRol | bstRor | bstMin | bstMax
  | bstAbs | bstNot | bstFadd | bstFsub | bstFmul | bstFdiv | bstFsqrt | bstFcmp | bstFmin | bstFmax | bstFneg | bstFabs | bstFtoi | bstItof | bstBr
  | bstCall | bstRet | bstDbnz | bstRep | bstEnd | bstFault | bstRtt | bstTrap | bstClf => exact ⟨_, rfl, .bstStep h⟩
  | unlock | ringRst | sleep | wake | hold | resetCmd | abortContext | abortAll | imgLoad | apply | shift | readmit | stage | cacheEnable =>
    exact ⟨_, rfl, .settle (.operWrite h)⟩
  | doorbell | rcons | scred | bcred | dcred | mbRead | mbWrite | mbReservedOp => exact ⟨_, rfl, .settle (.hwrIn h)⟩
  | cancel | idxLoad | drop | refitBegin | refitEnd | contextEnable | bdkEnable | quotaWrite => exact ⟨_, rfl, .settle (.ctxObj h)⟩
  | spawn | expect | ack | bdkCancel | post | discard | bdkReservedCode => exact ⟨_, rfl, .settle (.bdkRow h)⟩
  | migrate | migvec | result | recs | maint | maintAck | credit => exact ⟨_, rfl, .settle (.seamRow h)⟩
  | clean | invalidate | cleanInvalidate | lock | lockIndex | mtUnlock => exact ⟨_, rfl, .settle (.mtRow h)⟩
  | tapExtest | tapClamp | tapHighz => exact ⟨_, rfl, .tapRow h⟩
  | needleClockStop | bobbinClockStop => exact ⟨_, rfl, .ite (.modBob h) h⟩
  | bobbinWake | clockStoppedWake => exact ⟨_, rfl, .settle (.ite (.modBob h) h)⟩
  | coldStart | warmStart => exact ⟨_, rfl, .ite h (.settle (.startCmd h))⟩
  | tapIdcode | tapSamplePreload => exact ⟨_, rfl, .settle (.ite (.tapSet (.modPwr h)) h)⟩
  | redir | rfault => exact ⟨_, rfl, .settle (.resBit h)⟩
  | cpld => exact ⟨_, rfl, .settle (.cpldIn h)⟩
  | cpl => exact ⟨_, rfl, .settle (.cplIn h)⟩
  | cplTimeout => exact ⟨_, rfl, .settle (.cplTimeout h)⟩
  | laneFault => exact ⟨_, rfl, .settle (.laneFault h)⟩
  | retrainDone => exact ⟨_, rfl, .settle (.retrainDone h)⟩
  | retrainTimeout => exact ⟨_, rfl, .settle (.retrainTimeout h)⟩
  | migrateSend => exact ⟨_, rfl, .settle (.migrateSend h)⟩
  | migTimeout => exact ⟨_, rfl, .settle (.migTimeout h)⟩
  | migBackoff => exact ⟨_, rfl, .settle (.migBackoff h)⟩
  | ringEnum => exact ⟨_, rfl, .settle (.ringRow (State.Keeps.ownIf fun _ => .enum) h)⟩
  | ringRead => exact ⟨_, rfl, .settle (.ringRow (State.Keeps.ownIfNot fun _ => .ringRequest) h)⟩
  | ringWrite => exact ⟨_, rfl, .settle (.ite h (.ringRow (State.Keeps.ownIfNot fun _ => .ringRequest) h))⟩
  | ringMembers => exact ⟨_, rfl, .settle (.ite (.ringRow (State.Keeps.ownSome fun _ => .members) h) h)⟩
  | ringResp => exact ⟨_, rfl, .settle (.ringRow (State.Keeps.ownIfNot fun _ => .peerResp) h)⟩
  | frameDiscard => exact ⟨_, rfl, .frameDiscard h⟩
  | announce => exact ⟨_, rfl, .announce h⟩
  | evtResend => exact ⟨_, rfl, .evtResend h⟩
  | evtAck => exact ⟨_, rfl, .ite h (.evtAck h)⟩
  | ringReset => exact ⟨_, rfl, .ite (.ringReset h) h⟩
  | bypassOpen => exact ⟨_, rfl, .bypassGo h⟩
  | domainWriteTimeout => exact ⟨_, rfl, .domainTimeout h⟩
  | peerTimeout => exact ⟨_, rfl, .settle (.peerTimeout h)⟩
  | relay => exact ⟨_, rfl, .ite h (.frameIn State.Keeps.ownNone h)⟩
  | autoSleep => exact ⟨_, rfl, .ite (.startDrain h) h⟩
  | quiesceDone => exact ⟨_, rfl, .settle (.quiesce h)⟩
  | sleepEntry => exact ⟨_, rfl, .sleepEntry h⟩
  | wakeDone => exact ⟨_, rfl, .settle (.wakeGo h)⟩
  | idleGating => exact ⟨_, rfl, .ite (.gateBob h) h⟩
  | consolidation => exact ⟨_, rfl, .consolidate h⟩
  | bobbinGate => exact ⟨_, rfl, .ite (.ite (.gateBob h) (.modBob h)) h⟩
  | thermalReading => exact ⟨_, rfl, .thermal h⟩
  | probeReading => exact ⟨_, rfl, .settle (.probeReading h)⟩
  | vsettle => exact ⟨_, rfl, .settle (.settled h)⟩
  | clkAStep => exact ⟨_, rfl, .settle (.clkStep h)⟩
  | logUpdate => exact ⟨_, rfl, .logUpdate h⟩
  | partAuto => exact ⟨_, rfl, .settle (.partAuto h)⟩
  | interval => exact ⟨_, rfl, .interval h⟩
  | schemeDecision => exact ⟨_, rfl, .schemeDecision h⟩
  | vddWOn => exact ⟨_, rfl, .vddOn h⟩
  | vddWOff => exact ⟨_, rfl, .vddOff h⟩
  | pwrokRise => exact ⟨_, rfl, .settle (.pwrokRise h)⟩
  | pwrokFall => exact ⟨_, rfl, .pwrokFall h⟩
  | rstNAssert => exact ⟨_, rfl, .rstAssert h⟩
  | rstNDeassert => exact ⟨_, rfl, .settle (.rstDeassert h)⟩
  | abortComplete => exact ⟨_, rfl, .settle (.abortComplete h)⟩
  | releaseDone => exact ⟨_, rfl, .settle (.releaseDone h)⟩
  | tapBypass => exact ⟨_, rfl, .settle (.tapRow h)⟩
  | causeClear => exact ⟨_, rfl, .ite h (.settle (.operWrite h))⟩
  | refitHeld => exact ⟨_, rfl, .settle (.refitHeld h)⟩
  | pinExtend => exact ⟨_, rfl, .settle (.ite (.pinExtend h) h)⟩
  | imgWrite => exact ⟨_, rfl, .settle (.imgWrite h)⟩
  | partDone => exact ⟨_, rfl, .settle (.partDone h)⟩
  | maintDone => exact ⟨_, rfl, .settle (.ite (.maintDone h) h)⟩
  | streamEnable => exact ⟨_, rfl, .settle (.ite (.ctxObj h) h)⟩
  | endpointEnable => exact ⟨_, rfl, .settle (.ite (.operWrite h) h)⟩
  | fetch => exact ⟨_, rfl, .settle (.fetch h)⟩
  | admission => exact ⟨_, rfl, .settle (.admission h)⟩
  | genBegin => exact ⟨_, rfl, .settle (.genBegin h)⟩
  | generate => exact ⟨_, rfl, .settle (.generate h)⟩
  | contBuild => exact ⟨_, rfl, .settle (.contStart h)⟩
  | binRipe => exact ⟨_, rfl, .ripen h⟩
  | release => exact ⟨_, rfl, .settle (.release h)⟩
  | cl0Release => exact ⟨_, rfl, .settle (.cl0Release h)⟩
  | boxVisit => exact ⟨_, rfl, .settle (.needleOp (fun _ _ _ h1 => .visitBox h1) h)⟩
  | instanceVisit => exact ⟨_, rfl, .settle (.needleOp (fun _ _ _ h1 => .visitInst h1) h)⟩
  | leafHandoff => exact ⟨_, rfl, .settle (.needleOp (fun _ _ _ h1 => .netTaken (.handoff h1)) h)⟩
  | metricVisit => exact ⟨_, rfl, .settle (.needleOp (fun _ _ _ h1 => .handoff h1) h)⟩
  | intersectorResult => exact ⟨_, rfl, .settle (.unitOp (fun _ h1 => .isectResult h1) h)⟩
  | leafArrayResult => exact ⟨_, rfl, .settle (.unitOp (fun _ h1 => .arrayResult h1) h)⟩
  | weightFill => exact ⟨_, rfl, .settle (.weightFill h)⟩
  | bankPending => exact ⟨_, rfl, .bankPending h⟩
  | roleChange => exact ⟨_, rfl, .roleChange h⟩
  | finishingWalk => exact ⟨_, rfl, .settle (.finishingWalk h)⟩
  | queryPark => exact ⟨_, rfl, .settle (.queryPark h)⟩
  | completion => exact ⟨_, rfl, .settle (.completion h)⟩
  | ringEntryWrite => exact ⟨_, rfl, .settle (.ringEntryWrite h)⟩
  | slotFillOpen => exact ⟨_, rfl, .settle (.slotFillOpen h)⟩
  | flush => exact ⟨_, rfl, .settle (.flushFill h)⟩
  | headWb => exact ⟨_, rfl, .settle (.headWb h)⟩
  | resWb => exact ⟨_, rfl, .settle (.resWb h)⟩
  | operand => exact ⟨_, rfl, .settle (.operand h)⟩
  | dispatch => exact ⟨_, rfl, .settle (.dispatchOne h)⟩
  | affWait => exact ⟨_, rfl, .affWait h⟩
  | ageLimit => exact ⟨_, rfl, .ageLimit h⟩
  | ackLate => exact ⟨_, rfl, .ackLate h⟩
  | spill => exact ⟨_, rfl, .settle (.spill h)⟩
  | reload => exact ⟨_, rfl, .settle (.reload h)⟩
  | revert => exact ⟨_, rfl, .settle (.revert h)⟩
  | reissue => exact ⟨_, rfl, .settle (.reissue h)⟩
  | mendRetry => exact ⟨_, rfl, .settle (.mendRetry h)⟩
  | withdrawDone => exact ⟨_, rfl, .settle (.withdrawDone h)⟩
  | cutoff => exact ⟨_, rfl, .settle (.cutoff h)⟩
  | mismatchInterval => exact ⟨_, rfl, .mismatchInterval h⟩
  | scrub => exact ⟨_, rfl, .settle (.scrub h)⟩
  | basteHandoff => exact ⟨_, rfl, .settle (.basteHandoff h)⟩
  | budget => exact ⟨_, rfl, .settle (.bstBudget h)⟩
  | illegal => exact ⟨_, rfl, .settle (.bstIllegal h)⟩

/-- A step takes the front command off the queue, and keeps the stores in canonical form. -/
theorem step_keeps {s t : State} (h : step s = .next t) : t.pending = s.pending.tail ∧ (s.canon = true → t.canon = true) := by
  unfold step at h
  split at h
  · next e =>
    cases h
    exact ⟨by rw [e]; exact e, id⟩
  · next i rest e =>
    obtain ⟨u, hu, hp, hc⟩ := exec_keeps i { s with pending := rest }
    cases hu.symm.trans h
    exact ⟨by rw [hp, e]; rfl, hc⟩

/-! ## The queue, the run and the stores -/

/-- Settles O1: the definition of a step. -/
theorem stepRunsFrontCommand : Obligations.StepRunsFrontCommand := by
  unfold Obligations.StepRunsFrontCommand
  intro s i rest h
  rw [step, h]

/-- Settles O2: every operation of the tile leaves the queue alone. -/
theorem queueIsFirstInFirstOut : Obligations.QueueIsFirstInFirstOut := by
  unfold Obligations.QueueIsFirstInFirstOut
  intro s t
  refine ⟨fun h => ?_, fun h => (step_keeps h).1⟩
  unfold step
  split
  · rfl
  · next e => cases h.symm.trans e

/-- Every state has a next one. -/
theorem step_next (s : State) : ∃ t, step s = .next t := by
  unfold step
  split
  · exact ⟨_, rfl⟩
  · next i rest _ =>
    obtain ⟨t, ht, -⟩ := exec_keeps i { s with pending := rest }
    exact ⟨t, ht⟩

/-- A machine in which every state has a next one runs on. -/
theorem run_next {M : Host.Core} (hM : ∀ s, ∃ t, M.step s = .next t) (k : Nat) (s : M.State) : ∃ t, M.run k s = .next t := by
  induction k generalizing s with
  | zero => exact ⟨s, rfl⟩
  | succ k ih =>
    obtain ⟨u, hu⟩ := hM s
    obtain ⟨t, ht⟩ := ih u
    refine ⟨t, ?_⟩
    simp only [Host.Core.run, hu, ht]

/-- Settles O3: every command has a next state, so that a run of any length has one. -/
theorem everySequenceRuns : Obligations.EverySequenceRuns := by
  unfold Obligations.EverySequenceRuns
  exact ⟨fun i s => (exec_keeps i s).imp fun _ h => h.1, fun s k => run_next (M := core) step_next k s⟩

/-- Settles O6: every operation of the tile keeps the stores in canonical form. -/
theorem storesStayCanonical : Obligations.StoresStayCanonical := by
  unfold Obligations.StoresStayCanonical
  exact fun s t hc h => (step_keeps h).2 hc
end Sys2Proof.Machine
end

section
/-! Where nothing waits to follow a command, nothing follows; the state after reset; the test port. -/

namespace Sys2Proof.Machine

/-! ## What holds of every entry of a table -/

/-- What holds of every entry and of the default holds of what every key reads as. -/
theorem tget_of_all {α : Type} {P : α → Prop} {d : α} {t : Tbl α} (ht : ∀ e ∈ t, P e.2) (hd : P d) (k : Nat) : P (tget d t k) := by
  induction t with
  | nil => exact hd
  | cons e r ih =>
    obtain ⟨k', v⟩ := e
    unfold tget
    split
    · exact ht (k', v) List.mem_cons_self
    · exact ih fun e he => ht e (List.mem_cons_of_mem _ he)

/-- A walk over a list each step of which leaves the state leaves the state. -/
theorem foldl_eq_self {σ α : Type} {f : σ → α → σ} {s : σ} {l : List α} (h : ∀ x ∈ l, f s x = s) : l.foldl f s = s := by
  induction l with
  | nil => rfl
  | cons x l ih =>
    rw [List.foldl_cons, h x List.mem_cons_self]
    exact ih fun y hy => h y (List.mem_cons_of_mem _ hy)

/-! ## Nothing waits -/

/-- A stream with no record to place, no fill open or to close, and no wait for pages. -/
def StreamSt.idle (x : StreamSt) : Prop := x.hem = [] ∧ x.open_ = none ∧ x.closing = [] ∧ x.rbFull = false

/-- The parts of a state in which nothing waits to follow. -/
structure State.Still (s : State) : Prop where
  due : s.due = []
  lcWait : s.tile.lcWait = []
  goes : ∀ e ∈ s.hnd, e.2.goes = false
  lossWait : s.tile.lossWait = []
  keyWait : s.tile.keyWait = []
  idle : ∀ e ∈ s.strm, e.2.idle
  queue : s.ring.queue = []
  after : s.ring.after = 0

theorem State.still_iff (s : State) : s.still = true ↔ s.Still := by
  simp only [State.still, Bool.and_eq_true, List.isEmpty_iff, List.all_eq_true, Bool.not_eq_true', beq_iff_eq, Option.isNone_iff_eq_none]
  constructor
  · rintro ⟨⟨⟨⟨⟨⟨⟨due, lcWait⟩, goes⟩, lossWait⟩, keyWait⟩, idle⟩, queue⟩, after⟩
    refine ⟨due, lcWait, goes, lossWait, keyWait, fun e he => ?_, queue, after⟩
    obtain ⟨⟨⟨hem, opened⟩, closing⟩, full⟩ := idle e he
    exact ⟨hem, opened, closing, full⟩
  · rintro ⟨due, lcWait, goes, lossWait, keyWait, idle, queue, after⟩
    refine ⟨⟨⟨⟨⟨⟨⟨due, lcWait⟩, goes⟩, lossWait⟩, keyWait⟩, fun e he => ?_⟩, queue⟩, after⟩
    obtain ⟨hem, opened, closing, full⟩ := idle e he
    exact ⟨⟨⟨hem, opened⟩, closing⟩, full⟩

namespace State.Still

variable {s : State}

theorem dueAll (h : s.Still) (n : Nat) : State.dueAll n s = s := by
  cases n with
  | zero => rfl
  | succ n =>
    unfold State.dueAll
    rw [h.due]

theorem lcRetry (h : s.Still) : s.lcRetry = s := by
  simp only [State.lcRetry, h.lcWait, List.isEmpty_nil, if_true]

theorem idxAll (h : s.Still) : s.idxAll = s := by
  have none_goes : s.hnd.filter (fun e => e.2.goes) = [] :=
    List.filter_eq_nil_iff.mpr fun e he => by rw [h.goes e he]; exact Bool.false_ne_true
  simp only [State.idxAll, none_goes, List.map_nil, List.foldl_nil]

theorem lossAll (h : s.Still) : s.lossAll = s := by
  simp only [State.lossAll, h.lossWait, List.isEmpty_nil, if_true, List.foldl_nil]

theorem keyRetry (h : s.Still) : s.keyRetry = s := by
  simp only [State.keyRetry, h.keyWait, List.isEmpty_nil, if_true, List.foldl_nil]

theorem st_idle (h : s.Still) (c st : Nat) : (s.st c st).idle := tget_of_all h.idle ⟨rfl, rfl, rfl, rfl⟩ _

end State.Still

/-- The Hem does nothing for a stream that holds nothing. -/
theorem State.hemStep_idle (s : State) (h : ∀ c st, (s.st c st).idle) : s.hemStep = s := by
  refine foldl_eq_self fun i _ => ?_
  obtain ⟨hem, opened, closing, full⟩ := h (i / 8) (i % 8)
  have page : s.pageIn (i / 8) (i % 8) = s := by
    simp only [State.pageIn, hem, List.foldl_nil, State.rbWait, full, Bool.not_false, Bool.false_eq_true, if_true, if_false]
  have fill : ∀ n, State.fillStep (i / 8) (i % 8) n s = s := by
    intro n
    cases n with
    | zero => rfl
    | succ n =>
      unfold State.fillStep
      rw [opened]
  have flag : s.flagStep (i / 8) (i % 8) = s := by
    simp only [State.flagStep, closing, List.filter_nil, List.foldl_nil]
  simp only [page, fill, flag]
  split
  · rfl
  · rfl

/-- Where nothing waits to follow, nothing follows. -/
theorem State.Still.settle {s : State} (h : s.Still) : s.settle = s := by
  simp only [State.settle, h.dueAll, h.lcRetry, h.idxAll, h.lossAll, h.keyRetry, s.hemStep_idle h.st_idle, h.queue, List.isEmpty_nil, if_true]

/-- Without a reset that an answered request has asked for, nothing follows the answer. -/
theorem State.afterReq_of_zero {s : State} (h : s.ring.after = 0) : s.afterReq = s := by
  simp only [State.afterReq, h]

theorem State.Still.afterReq {s : State} (h : s.Still) : s.afterReq = s := State.afterReq_of_zero h.after

/-- Settles O7: each part of what follows a command is nothing where the store it looks at is empty. -/
theorem stillStatesStay : Obligations.StillStatesStay := by
  unfold Obligations.StillStatesStay
  intro s h
  have still := s.still_iff.mp h
  exact ⟨still.settle, still.afterReq⟩

/-! ## The state after reset -/

/-- A register that no entry lists reads its reset value. -/
theorem State.reset_o (i j : Nat) : State.reset.o i j = objReset (okey i j) := rfl

theorem objReset_okey {i j : Nat} {row : ObjRow} (hj : j < 256) (h : objRow? i j = some row) : objReset (okey i j) = row.reset := by
  have hi : (i * 256 + j) / 256 = i := by omega
  have hs : (i * 256 + j) % 256 = j := by omega
  simp only [objReset, okey, hi, hs, h]

/-- Settles O4: the state after reset is a literal, and a register without an entry reads its reset value. -/
theorem resetValues : Obligations.ResetValues := by
  unfold Obligations.ResetValues
  refine ⟨by decide, rfl, rfl, rfl, by decide, rfl, rfl, rfl, by decide, by decide, fun index sub row h => ?_, ?_⟩
  · exact (State.reset_o _ _).trans (objReset_okey sub.isLt h)
  · decide

/-! ## The test port -/

/-- Without a start that waits for it, a test instruction becomes the current one and nothing else changes (R486). -/
theorem State.tapSet_of_start {s : State} (h : s.pwr.start = none ∨ ∃ g, s.pwr.start = some g ∧ g.wait ≠ 1) (n : Nat) :
    s.tapSet n = s.modPwr (fun p => { p with tap := n }) := by
  have hs : (s.modPwr (fun p => { p with tap := n })).pwr.start = s.pwr.start := rfl
  rcases h with h | ⟨g, h, hw⟩
  · simp only [State.tapSet, hs, h]
  · simp only [State.tapSet, hs, h, hw, false_and, if_false]

/-- What changes the power state alone leaves nothing to follow. -/
theorem State.Still.modPwr {s : State} (h : s.Still) (f : PowerSt → PowerSt) : (s.modPwr f).Still :=
  ⟨h.due, h.lcWait, h.goes, h.lossWait, h.keyWait, h.idle, h.queue, h.after⟩

/-- Settles O13: each row loads its instruction, and with no start to go on nothing follows. -/
theorem testPort : Obligations.TestPort := by
  unfold Obligations.TestPort
  intro s x hv hs
  have row : ∀ n, s.tapRow n = s.modPwr (fun p => { p with tap := n }) := fun n => by
    rw [State.tapRow, if_pos hv, State.tapSet_of_start hs]
  have idcode : (s.modPwr (fun p => { p with tapData := tapIdcodeValue })).tapSet 1 = s.modPwr (fun p => { p with tap := 1, tapData := tapIdcodeValue }) :=
    State.tapSet_of_start (s := s.modPwr (fun p => { p with tapData := tapIdcodeValue })) hs 1
  have sample : (s.modPwr (fun p => { p with tapBoundary := x })).tapSet 2 = s.modPwr (fun p => { p with tap := 2, tapBoundary := x }) :=
    State.tapSet_of_start (s := s.modPwr (fun p => { p with tapBoundary := x })) hs 2
  refine ⟨fun still => ?_, congrArg Host.Outcome.next (row 3), congrArg Host.Outcome.next (row 4), congrArg Host.Outcome.next (row 5)⟩
  have h := s.still_iff.mp still
  refine ⟨congrArg Host.Outcome.next ?_, congrArg Host.Outcome.next ?_, congrArg Host.Outcome.next ?_⟩
  · rw [row, (h.modPwr _).settle]
  · rw [if_pos hv, idcode, (h.modPwr _).settle]
  · rw [if_pos hv, sample, (h.modPwr _).settle]

end Sys2Proof.Machine
end

section
/-! The Baste instructions: operands, moves, stores, integers, FP32, control, traps and the end of an invocation (R227 to R240). -/

namespace Sys2Proof.Machine

/-! ## Legal words and operands -/

theorem formOk_none {w : Nat} : formOk .none w = true ↔ w % 2 ^ 24 = 0 := by
  simp only [formOk, beq_iff_eq]

theorem formOk_branch {w : Nat} : formOk .branch w = true ↔ iMode w = 0 ∨ iMode w = 2 := by
  simp only [formOk, Bool.or_eq_true, beq_iff_eq]

theorem formOk_call {w : Nat} : formOk .call w = true ↔ (iMode w = 0 ∨ iMode w = 2) ∧ iSc w = 0 := by
  simp only [formOk, Bool.and_eq_true, Bool.or_eq_true, beq_iff_eq]

theorem formOk_imm {w : Nat} : formOk .imm w = true ↔ iMode w = 0 ∧ iSc w = 0 := by
  simp only [formOk, Bool.and_eq_true, beq_iff_eq]

theorem formOk_immN {w n : Nat} : formOk (.immN n) w = true ↔ (iMode w = 0 ∧ iSc w = 0) ∧ iImm w < 2 ^ n := by
  simp only [formOk, Bool.and_eq_true, beq_iff_eq, decide_eq_true_eq]

/-- A legal word of mode 6 or 7 has an offset inside its window (R228). -/
theorem formOk_window {fm : Form} {w : Nat} (h : formOk fm w = true) : (iMode w = 6 → iImm w < 0x100) ∧ (iMode w = 7 → iImm w < 0x1000) := by
  have mem : ((scOk fm (iSc w) && (iMode w != 6 || iImm w / 256 == 0)) && (iMode w != 7 || iImm w / 4096 == 0)) = true →
      (iMode w = 6 → iImm w < 0x100) ∧ (iMode w = 7 → iImm w < 0x1000) := by
    simp only [Bool.and_eq_true, Bool.or_eq_true, bne_iff_ne, beq_iff_eq]
    omega
  cases fm with
  | none => simp only [formOk_none] at h; unfold iMode fld; omega
  | imm => simp only [formOk_imm] at h; omega
  | immN n => simp only [formOk_immN] at h; omega
  | branch => simp only [formOk_branch] at h; omega
  | call => simp only [formOk_call] at h; omega
  | store | storeH =>
    simp only [formOk, Bool.and_eq_true] at h
    exact mem (by simp only [Bool.and_eq_true]; exact h.2)
  | int | half | fp | shift =>
    simp only [formOk] at h
    split at h
    · omega
    · exact mem h

/-- A store has a mode with an address, and an H store two bytes (R229). -/
theorem formOk_storeH {w : Nat} (h : formOk .storeH w = true) : accSize w = 2 := by
  simp only [formOk, scOk, Bool.and_eq_true, beq_iff_eq] at h
  obtain ⟨-, ⟨⟨-, hsz, -⟩, -⟩, -⟩ := h
  unfold accSize
  exact congrArg (2 ^ ·) hsz

theorem Engine.postInc_eq (en : Engine) (w : Nat) :
    en.postInc w = { en with x := if iMode w = 4 then en.x + BitVec.ofNat 16 (iImm w) else en.x,
                             y := if iMode w = 5 then en.y + BitVec.ofNat 16 (iImm w) else en.y } := by
  unfold Engine.postInc
  split
  · next h => rw [if_pos h, if_neg (by omega)]
  · next h => rw [if_pos h, if_neg (by omega)]
  · next h4 h5 => rw [if_neg h4, if_neg h5]

/-- A fetch that gives an operand: the immediate, or what stands at the effective address (R228). -/
theorem Engine.fetch_ok {cst : Nat → Nat} {en en1 : Engine} {fm : Form} {w : Nat} {v : Word} (h : en.fetch cst fm w = .ok v en1) :
    formOk fm w = true ∧ (iMode w = 0 → v = immOf fm w ∧ en1 = en) ∧
    (iMode w ≠ 0 → accessTrap (en.ea w) (accSize w) false = none ∧ en1 = en.postInc w ∧
      v = if bit (iSc w) 2 then BitVec.ofNat 32 (ofInt 32 (toSigned (8 * accSize w) (en.load cst (en.ea w) (accSize w))))
          else BitVec.ofNat 32 (en.load cst (en.ea w) (accSize w))) := by
  unfold Engine.fetch at h
  split at h
  · cases h
  · next hf =>
    rw [Bool.not_eq_true, Bool.not_eq_false'] at hf
    refine ⟨hf, ?_⟩
    split at h
    · next h0 =>
      cases h
      exact ⟨fun _ => ⟨rfl, rfl⟩, fun hn => absurd h0 hn⟩
    · next h0 =>
      simp only at h
      split at h
      · cases h
      · next ht =>
        cases h
        exact ⟨fun hz => absurd hz h0, fun _ => ⟨ht, rfl, rfl⟩⟩

/-- Settles O46: the cases of the effective address, for the one fetch that gives an operand. -/
theorem operandAddressing : Obligations.OperandAddressing := by
  unfold Obligations.OperandAddressing
  intro cst en en1 fm w v h
  obtain ⟨form, imm, mem⟩ := Engine.fetch_ok h
  refine ⟨imm, fun hm => ?_⟩
  obtain ⟨trap, after, value⟩ := mem hm
  obtain ⟨six, seven⟩ := formOk_window form
  refine ⟨en.ea w, trap, fun h1 => ?_, fun h2 => ?_, fun h3 => ?_, fun h4 => ?_, fun h5 => ?_, fun h6 => ⟨?_, six h6⟩, fun h7 => ⟨?_, seven h7⟩,
    fun hs => ?_, fun hs => ?_, after.trans (en.postInc_eq w)⟩
  · simp only [Engine.ea, h1]
  · simp only [Engine.ea, h2, Nat.reducePow]
  · simp only [Engine.ea, h3, Nat.reducePow]
  · simp only [Engine.ea, h4]
  · simp only [Engine.ea, h5]
  · rw [Engine.ea, h6]
    exact congrArg (0xF000 + ·) (Nat.mod_eq_of_lt (six h6))
  · rw [Engine.ea, h7]
    exact congrArg (fun n => 0xE000 + (en.pbase + n) % 4096) (Nat.mod_eq_of_lt (seven h7))
  · rw [value, hs, if_neg Bool.false_ne_true]
  · rw [value, hs, if_pos rfl]

/-! ## Instructions that act and go on -/

/-- An instruction below the control opcodes whose operand is there acts, and the next one follows. -/
theorem State.bstStep_op {s : State} {b g w opc : Nat} {fm : Form} {v : Word} {en en1 : Engine} {k : Engine → Word → Res}
    (h : s.takes b g w opc fm v en) (hopc : opc < 0x60) (hk : k en v = .seq en1 false) (hent : en1.ent = en.ent) :
    s.bstStep b g .ok opc (withOp fm k) = s.actedSeq b g w en1 := by
  obtain ⟨hx, hf⟩ := h
  refine s.bstStep_seq b g w opc _ _ false hx (by omega) ?_ (hent.trans (Engine.fetch_ent hf)) rfl
  rw [withOp_of_fetch k hf, hk]

/-- One without an operand. -/
theorem State.bstStep_plain {s : State} {b g w opc : Nat} {en1 : Engine} {k : Engine → Res}
    (h : s.plain b g w opc) (hopc : opc < 0x60) (hk : k (s.engOf b g) = .seq en1 false) (hent : en1.ent = (s.engOf b g).ent) :
    s.bstStep b g .ok opc (withNone k) = s.actedSeq b g w en1 := by
  obtain ⟨hx, hw⟩ := h
  refine s.bstStep_seq b g w opc _ _ false hx (by omega) ?_ hent rfl
  rw [withNone, if_pos (formOk_none.mpr hw), hk]

/-- One without an operand that takes a result into A and FLAGS. -/
theorem State.bstStep_plain_take {s : State} {b g w opc : Nat} {u : Alu} {k : Engine → Res}
    (h : s.plain b g w opc) (hopc : opc < 0x60) (hk : k (s.engOf b g) = (s.engOf b g).take u) (hdz : u.dz = false) :
    s.bstStep b g .ok opc (withNone k) = s.actedSeq b g w { s.engOf b g with a := u.r, fl := u.f } :=
  State.bstStep_plain h hopc (by rw [hk, Engine.take, hdz]) rfl

/-- An integer result with N and Z. -/
theorem State.bstStep_plain_nz {s : State} {b g w opc : Nat} {r : Word} {k : Engine → Res}
    (h : s.plain b g w opc) (hopc : opc < 0x60) (hk : k (s.engOf b g) = (s.engOf b g).take (aluNz (s.engOf b g).fl r)) :
    s.bstStep b g .ok opc (withNone k) = s.actedSeq b g w { s.engOf b g with a := r, fl := (s.engOf b g).fl.nz r } := by
  rw [State.bstStep_plain_take h hopc hk rfl, aluNz, Flags.int_eq_nz]

/-- An integer result of an operand, with the flags of its row. -/
theorem State.bstStep_alu {s : State} {b g w opc : Nat} {v r : Word} {f : Flags} {en : Engine} {k : Engine → Word → Res}
    (h : s.takes b g w opc .int v en) (hopc : opc < 0x60) (hk : k en v = en.take { r := r, f := f }) :
    s.bstStep b g .ok opc (withOp .int k) = s.actedSeq b g w { en with a := r, fl := f } :=
  State.bstStep_take h hopc hk rfl

/-! ## Moves -/

/-- LOADHI's word. -/
theorem shiftLeft_16 (n : Nat) : BitVec.ofNat 32 n <<< 16 = BitVec.ofNat 32 (n * 65536) := by
  apply BitVec.eq_of_toNat_eq
  simp only [BitVec.toNat_shiftLeft, BitVec.toNat_ofNat, Nat.shiftLeft_eq]
  omega

/-- Settles O47: each row is an instruction that acts and goes on. -/
theorem basteRegisters : Obligations.BasteRegisters := by
  unfold Obligations.BasteRegisters
  refine ⟨fun s b g w v en => ⟨fun h => ?_, fun h => ?_, fun h => ?_, fun h => ?_, fun h hm hs => ?_⟩,
    fun s b g w => ⟨fun h => ?_, fun h => ?_, fun h => ?_, fun h => ?_, fun h => ?_, fun h => ?_, fun h => ?_⟩,
    fun s b g w v en => ⟨fun h => ?_, fun h => ?_, fun h => ?_⟩⟩
  · exact congrArg Host.Outcome.next (State.bstStep_alu h (by decide) (by rw [← Flags.int_eq_nz]; rfl))
  · exact congrArg Host.Outcome.next (State.bstStep_op h (by decide) rfl rfl)
  · exact congrArg Host.Outcome.next (State.bstStep_op h (by decide) rfl rfl)
  · exact congrArg Host.Outcome.next (State.bstStep_op h (by decide) rfl rfl)
  · refine congrArg Host.Outcome.next (s.bstStep_seq b g w 0x04 opLoadhi _ false h (by omega) ?_ rfl rfl)
    rw [opLoadhi, withForm, if_pos (formOk_imm.mpr ⟨hm, hs⟩), shiftLeft_16, ← Flags.int_eq_nz]
    rfl
  · exact congrArg Host.Outcome.next (State.bstStep_plain h (by decide) rfl rfl)
  · exact congrArg Host.Outcome.next (State.bstStep_plain h (by decide) rfl rfl)
  · exact congrArg Host.Outcome.next (State.bstStep_plain_nz h (by decide) rfl)
  · exact congrArg Host.Outcome.next (State.bstStep_plain h (by decide) rfl rfl)
  · exact congrArg Host.Outcome.next (State.bstStep_plain_nz h (by decide) rfl)
  · exact congrArg Host.Outcome.next (State.bstStep_plain h (by decide) rfl rfl)
  · exact congrArg Host.Outcome.next (State.bstStep_plain_nz h (by decide) rfl)
  · exact congrArg Host.Outcome.next (State.bstStep_op h (by decide) rfl rfl)
  · exact congrArg Host.Outcome.next (State.bstStep_op h (by decide) rfl rfl)
  · exact congrArg Host.Outcome.next (State.bstStep_op h (by decide) rfl rfl)

/-! ## Integers -/

/-- What ADD and ADDCY take: the sum with its carry, and the flags of R232. -/
theorem aluAdd_eq (f : Flags) (a b : Word) (cin : Bool) :
    aluAdd f a b cin = { r := a + b + BitVec.ofNat 32 (b2n cin), f := { f.nz (a + b + BitVec.ofNat 32 (b2n cin)) with
      c := decide (2 ^ 32 ≤ a.toNat + b.toNat + b2n cin),
      v := decide ((a + b + BitVec.ofNat 32 (b2n cin)).toInt ≠ a.toInt + b.toInt + (b2n cin : Int)) } } := by
  have sum : BitVec.ofNat 32 (a.toNat + b.toNat + b2n cin) = a + b + BitVec.ofNat 32 (b2n cin) := by
    apply BitVec.eq_of_toNat_eq
    simp only [BitVec.toNat_ofNat, BitVec.toNat_add]
    omega
  simp only [aluAdd, sum, Flags.int_eq_nz]

/-- What SUB, SUBCY and CMP take: the difference less its borrow, and the flags of R232. -/
theorem aluSub_eq (f : Flags) (a b : Word) (bin : Bool) :
    aluSub f a b bin = { r := a - b - BitVec.ofNat 32 (b2n bin), f := { f.nz (a - b - BitVec.ofNat 32 (b2n bin)) with
      c := decide (b.toNat + b2n bin ≤ a.toNat),
      v := decide ((a - b - BitVec.ofNat 32 (b2n bin)).toInt ≠ a.toInt - b.toInt - (b2n bin : Int)) } } := by
  have le : b2n bin ≤ 1 := by cases bin <;> decide
  have diff : BitVec.ofNat 32 (a.toNat + 2 ^ 33 - (b.toNat + b2n bin)) = a - b - BitVec.ofNat 32 (b2n bin) := by
    apply BitVec.eq_of_toNat_eq
    have ha := a.isLt
    have hb := b.isLt
    simp only [BitVec.toNat_ofNat, BitVec.toNat_sub]
    omega
  simp only [aluSub, diff, Flags.int_eq_nz]

theorem b2n_not (c : Bool) : b2n (!c) = 1 - b2n c := by cases c <;> rfl

/-- The smaller of two by either comparison. -/
theorem aluMin_eq (f : Flags) (a b : Word) : aluMin f a b = aluNz f (if a.toInt ≤ b.toInt then a else b) := by
  rw [aluMin]
  congr 1
  split
  · rw [if_neg (by omega)]
  · rw [if_pos (by omega)]

/-- The larger of two by either comparison: equal numbers are equal words. -/
theorem aluMax_eq (f : Flags) (a b : Word) : aluMax f a b = aluNz f (if a.toInt ≤ b.toInt then b else a) := by
  rw [aluMax]
  congr 1
  split
  · rw [if_pos (by omega)]
  · split
    · exact BitVec.eq_of_toInt_eq (by omega)
    · rfl

/-- Settles O49: each row takes the result of its function, whose flags are those of R232. -/
theorem basteIntegers : Obligations.BasteIntegers := by
  unfold Obligations.BasteIntegers
  refine ⟨fun s b g w v en => ⟨fun h => ?_, fun h => ?_, fun h => ?_, fun h => ?_, fun h => ?_⟩, fun s b g w v en => ?_⟩
  · refine congrArg Host.Outcome.next (State.bstStep_alu h (by decide) (congrArg en.take ((aluAdd_eq en.fl en.a v false).trans ?_)))
    simp only [b2n, Bool.false_eq_true, if_false, BitVec.add_zero, Nat.add_zero, Int.natCast_zero, Int.add_zero]
  · exact congrArg Host.Outcome.next (State.bstStep_alu h (by decide) (congrArg en.take (aluAdd_eq en.fl en.a v en.fl.c)))
  · refine congrArg Host.Outcome.next (State.bstStep_alu h (by decide) (congrArg en.take ((aluSub_eq en.fl en.a v false).trans ?_)))
    simp only [b2n, Bool.false_eq_true, if_false, BitVec.sub_zero, Nat.add_zero, Int.natCast_zero, Int.sub_zero]
  · refine congrArg Host.Outcome.next (State.bstStep_alu h (by decide) (congrArg en.take ((aluSub_eq en.fl en.a v !en.fl.c).trans ?_)))
    rw [b2n_not]
    rfl
  · refine congrArg Host.Outcome.next (State.bstStep_op h (by decide) ?_ rfl)
    rw [aluSub_eq]
    simp only [b2n, Bool.false_eq_true, if_false, BitVec.sub_zero, Nat.add_zero, Int.natCast_zero, Int.sub_zero]
  · have row : ∀ {opc : Nat} {k : Engine → Word → Res} {r : Word}, s.takes b g w opc .int v en → opc < 0x60 → k en v = en.take (aluNz en.fl r) →
        (.next (s.bstStep b g .ok opc (withOp .int k)) : Out) = .next (s.actedSeq b g w { en with a := r, fl := en.fl.nz r }) :=
      fun h hopc hk => congrArg Host.Outcome.next (State.bstStep_alu h hopc (by rw [hk, ← Flags.int_eq_nz]; rfl))
    refine ⟨fun h => row h (by decide) rfl, fun h => row h (by decide) rfl, fun h => row h (by decide) rfl, fun h => row h (by decide) ?_,
      fun h => row h (by decide) ?_, fun h => ?_⟩
    · exact congrArg en.take (aluMin_eq en.fl en.a v)
    · exact congrArg en.take (aluMax_eq en.fl en.a v)
    · exact congrArg Host.Outcome.next (State.bstStep_plain_nz h (by decide) rfl)

end Sys2Proof.Machine
end

section
/-! The Baste stores and the FP32 instructions (R222, R223, R229, R232, R235). -/

namespace Sys2Proof.Machine

/-! ## Bytes of a block -/

/-- A block with some bytes put in: what is below them, the bytes, and what is above them. -/
theorem putBytes_eq (x o n v : Nat) : putBytes x o n v = x % 256 ^ o + 256 ^ o * (v % 256 ^ n + 256 ^ n * (x / 256 ^ o / 256 ^ n)) := by
  have low := Nat.mod_add_div x (256 ^ o)
  have mid := Nat.mod_add_div (x / 256 ^ o) (256 ^ n)
  have whole : x = x / 256 ^ o % 256 ^ n * 256 ^ o + (x % 256 ^ o + 256 ^ o * (256 ^ n * (x / 256 ^ o / 256 ^ n))) := by
    calc x = x % 256 ^ o + 256 ^ o * (x / 256 ^ o % 256 ^ n + 256 ^ n * (x / 256 ^ o / 256 ^ n)) := by rw [mid, low]
      _ = _ := by rw [Nat.mul_add, Nat.add_left_comm, Nat.mul_comm (256 ^ o) (x / 256 ^ o % 256 ^ n)]
  have rest : x - x / 256 ^ o % 256 ^ n * 256 ^ o = x % 256 ^ o + 256 ^ o * (256 ^ n * (x / 256 ^ o / 256 ^ n)) :=
    (congrArg (· - x / 256 ^ o % 256 ^ n * 256 ^ o) whole).trans (Nat.add_sub_cancel_left _ _)
  rw [putBytes, bytesAt, rest, Nat.mul_add, Nat.mul_comm (v % 256 ^ n), Nat.add_right_comm, Nat.add_assoc]

/-- The bytes put in are read back. -/
theorem bytesAt_putBytes_same (x o n v : Nat) : bytesAt (putBytes x o n v) o n = v % 256 ^ n := by
  have pos : 0 < 256 ^ o := Nat.pow_pos (by decide)
  rw [bytesAt, putBytes_eq, Nat.add_mul_div_left _ _ pos, Nat.div_eq_of_lt (Nat.mod_lt _ pos), Nat.zero_add, Nat.add_mul_mod_self_left, Nat.mod_mod]

/-- A byte below o of a block is one of its low part. -/
theorem bytesAt_low {o p : Nat} (h : p < o) (a k : Nat) : bytesAt (a + 256 ^ o * k) p 1 = bytesAt a p 1 := by
  have pos : 0 < 256 ^ p := Nat.pow_pos (by decide)
  obtain ⟨d, rfl⟩ := Nat.exists_eq_add_of_lt h
  have split : 256 ^ (p + d + 1) * k = 256 ^ p * (256 * (256 ^ d * k)) := by rw [Nat.pow_succ, Nat.pow_add, Nat.mul_assoc, Nat.mul_assoc, Nat.mul_left_comm (256 ^ d)]
  rw [bytesAt, bytesAt, split, Nat.add_mul_div_left _ _ pos, Nat.pow_one, Nat.add_mul_mod_self_left]

/-- A byte from o on is one of its high part. -/
theorem bytesAt_high {o p a : Nat} (h : o ≤ p) (ha : a < 256 ^ o) (k : Nat) : bytesAt (a + 256 ^ o * k) p 1 = bytesAt k (p - o) 1 := by
  have pos : 0 < 256 ^ o := Nat.pow_pos (by decide)
  obtain ⟨d, rfl⟩ := Nat.exists_eq_add_of_le h
  rw [bytesAt, bytesAt, Nat.pow_add, ← Nat.div_div_eq_div_mul, Nat.add_mul_div_left _ _ pos, Nat.div_eq_of_lt ha, Nat.zero_add, Nat.add_sub_cancel_left]

/-- Every other byte stays. -/
theorem bytesAt_putBytes_ne {o n p : Nat} (h : p < o ∨ o + n ≤ p) (x v : Nat) : bytesAt (putBytes x o n v) p 1 = bytesAt x p 1 := by
  have pos : 0 < 256 ^ o := Nat.pow_pos (by decide)
  have posn : 0 < 256 ^ n := Nat.pow_pos (by decide)
  have whole := Nat.mod_add_div x (256 ^ o)
  have mid := Nat.mod_add_div (x / 256 ^ o) (256 ^ n)
  rw [putBytes_eq]
  rcases h with h | h
  · rw [bytesAt_low h, ← bytesAt_low h (x % 256 ^ o) (x / 256 ^ o), whole]
  · have ho : o ≤ p := by omega
    have hn : n ≤ p - o := by omega
    rw [bytesAt_high ho (Nat.mod_lt _ pos), bytesAt_high hn (Nat.mod_lt _ posn), ← bytesAt_high hn (Nat.mod_lt (x / 256 ^ o) posn), mid,
      ← bytesAt_high ho (Nat.mod_lt x pos), whole]

/-- A byte of four bytes of a block. -/
theorem bytesAt_bytesAt {q : Nat} (h : q < 4) (x p : Nat) : bytesAt (bytesAt x p 4) q 1 = bytesAt x (p + q) 1 := by
  obtain ⟨d, hd⟩ := Nat.exists_eq_add_of_lt h
  have four : 256 ^ 4 = 256 ^ q * (256 ^ d * 256) := by rw [hd, Nat.pow_succ, Nat.pow_add, Nat.mul_assoc]
  rw [bytesAt, bytesAt, bytesAt, four, Nat.mod_mul_right_div_self, Nat.pow_one, Nat.mod_mul_left_mod, Nat.div_div_eq_div_mul, ← Nat.pow_add]

/-! ## Stores -/

/-- An access that does not trap is aligned, and one that writes lies in the work area or from the candidate window on (R223). -/
theorem accessTrap_write {a n : Nat} (h : accessTrap a n true = none) : a % n = 0 ∧ a < 0xF300 ∧ ((0x8000 ≤ a ∧ a < 0xE000) ∨ 0xF100 ≤ a) := by
  unfold accessTrap at h
  split at h
  · cases h
  · split at h
    · cases h
    · split at h
      · cases h
      · next h1 h2 h3 =>
        simp only [Bool.true_and, Bool.not_eq_true', Bool.or_eq_false_iff, Bool.and_eq_false_iff, decide_eq_false_iff_not] at h3
        omega

/-- A store without a trap, and what it puts in. -/
theorem Engine.put_ok {en : Engine} {fm : Form} {w : Nat} (hf : formOk fm w = true) (ht : accessTrap (en.ea w) (accSize w) true = none) (v : Nat) :
    en.put fm w v = .ok 0 ((en.store (en.ea w) (accSize w) v).postInc w) := by
  simp only [Engine.put, hf, Bool.not_true, Bool.false_eq_true, if_false, ht]

section
variable (en : Engine) (v : Nat)

theorem Engine.setCtrl_ent : (en.setCtrl v).ent = en.ent := rfl
theorem Engine.setCtrl_work : (en.setCtrl v).work = en.work := rfl
theorem Engine.setCtrl_primW : (en.setCtrl v).primW = en.primW := rfl
theorem Engine.setCtrl_queryW : (en.setCtrl v).queryW = en.queryW := rfl
theorem Engine.setCtrl_candW : (en.setCtrl v).candW = en.candW := rfl

end

theorem Engine.store_ent (en : Engine) (a n v : Nat) : (en.store a n v).ent = en.ent := by
  unfold Engine.store
  split
  · rfl
  · split
    · rfl
    · split
      · exact en.setCtrl_ent _
      · rfl

theorem Engine.postInc_ent (en : Engine) (w : Nat) : (en.postInc w).ent = en.ent := by rw [Engine.postInc_eq]

/-- A store acts, and the next instruction follows. -/
theorem State.bstStep_store {s : State} {b g w opc : Nat} {fm : Form} (v : Engine → Nat) (h : s.executes b g w opc) (hopc : opc < 0x60)
    (hf : formOk fm w = true) (ht : accessTrap ((s.engOf b g).ea w) (accSize w) true = none) :
    s.bstStep b g .ok opc (withStore fm v) = s.actedSeq b g w (((s.engOf b g).store ((s.engOf b g).ea w) (accSize w) (v (s.engOf b g))).postInc w) := by
  refine s.bstStep_seq b g w opc _ _ false h (by omega) ?_ ((Engine.postInc_ent _ _).trans (Engine.store_ent _ _ _ _)) rfl
  simp only [withStore, Engine.put_ok hf ht]

section
variable (cst : Nat → Nat) (en : Engine)

theorem Engine.store_work {a : Nat} (h1 : 0x8000 ≤ a) (h2 : a < 0xE000) (n v : Nat) :
    en.store a n v = { en with work := tset 0 en.work ((a - 0x8000) / 4) (putBytes (tget 0 en.work ((a - 0x8000) / 4)) (a % 4) n v) } := by
  rw [Engine.store, if_pos ⟨h1, h2⟩]

theorem Engine.store_cand {a : Nat} (h1 : 0xF100 ≤ a) (h2 : a < 0xF200) (n v : Nat) :
    en.store a n v = { en with candW := putBytes en.candW (a - 0xF100) n v } := by
  rw [Engine.store, if_neg (by omega), if_pos ⟨h1, h2⟩]

theorem Engine.store_ctrl {a : Nat} (h1 : 0xF200 ≤ a) (h2 : a < 0xF300) (n v : Nat) :
    en.store a n v = en.setCtrl (putBytes en.ctrlBytes (a - 0xF200) n v) := by
  rw [Engine.store, if_neg (by omega), if_neg (by omega), if_pos ⟨h1, h2⟩]

theorem Engine.wordAt_work {a : Nat} (h1 : 0x8000 ≤ a) (h2 : a < 0xE000) : Engine.wordAt cst en a = tget 0 en.work ((a - 0x8000) / 4) := by
  rw [Engine.wordAt, if_neg (by omega), if_pos h2]

theorem Engine.wordAt_cand {a : Nat} (h1 : 0xF100 ≤ a) (h2 : a < 0xF200) : Engine.wordAt cst en a = bytesAt en.candW (a - 0xF100) 4 := by
  rw [Engine.wordAt, if_neg (by omega), if_neg (by omega), if_neg (by omega), if_neg (by omega), if_pos h2]

/-- The words below the engine-control block depend on the work area and the windows alone. -/
theorem Engine.wordAt_congr {en1 : Engine} {a : Nat} (h : a < 0xF200) (hw : 0x8000 ≤ a → a < 0xE000 → en1.work = en.work) (hp : en1.primW = en.primW)
    (hq : en1.queryW = en.queryW) (hc : 0xF100 ≤ a → en1.candW = en.candW) : Engine.wordAt cst en1 a = Engine.wordAt cst en a := by
  unfold Engine.wordAt
  split
  · rfl
  · split
    · rw [hw (by omega) (by omega)]
    · rw [hp, hq]
      split
      · rfl
      · split
        · rfl
        · rw [hc (by omega)]

/-- A store into the work area is read back. -/
theorem Engine.load_store_same {a n : Nat} (v : Nat) (h1 : 0x8000 ≤ a) (h2 : a < 0xE000) : (en.store a n v).load cst a n = v % 256 ^ n := by
  have word : (a / 4 * 4 - 0x8000) / 4 = (a - 0x8000) / 4 := by omega
  rw [Engine.load, Engine.wordAt_work cst _ (by omega) (by omega), en.store_work h1 h2, word, tget_tset_same, bytesAt_putBytes_same]

/-- A store of an aligned access leaves every byte outside it, below the engine-control block. -/
theorem Engine.load_store_ne {a n x : Nat} (v : Nat) (hn : n = 1 ∨ n = 2 ∨ n = 4) (ht : accessTrap a n true = none) (hx : x < 0xF200)
    (hne : x < a ∨ a + n ≤ x) : (en.store a n v).load cst x 1 = en.load cst x 1 := by
  obtain ⟨align, top, place⟩ := accessTrap_write ht
  have same : ∀ en1 : Engine, (0x8000 ≤ x → x < 0xE000 → en1.work = en.work) → en1.primW = en.primW → en1.queryW = en.queryW →
      (0xF100 ≤ x → en1.candW = en.candW) → en1.load cst x 1 = en.load cst x 1 := by
    intro en1 hw hp hq hc
    rw [Engine.load, Engine.load, Engine.wordAt_congr cst en (by omega) (fun _ _ => hw (by omega) (by omega)) hp hq (fun _ => hc (by omega))]
  by_cases work : 0x8000 ≤ a ∧ a < 0xE000
  · obtain ⟨h1, h2⟩ := work
    rw [en.store_work h1 h2]
    by_cases hxw : 0x8000 ≤ x ∧ x < 0xE000
    · rw [Engine.load, Engine.load, Engine.wordAt_work cst _ (by omega) (by omega), Engine.wordAt_work cst _ (by omega) (by omega)]
      by_cases hk : (x / 4 * 4 - 0x8000) / 4 = (a - 0x8000) / 4
      · rw [hk, tget_tset_same]
        exact bytesAt_putBytes_ne (by rcases hn with rfl | rfl | rfl <;> omega) _ _
      · rw [tget_tset_ne _ 0 _ _ _ _ hk]
    · exact same _ (fun h3 h4 => absurd ⟨h3, h4⟩ hxw) rfl rfl (fun _ => rfl)
  · by_cases cand : a < 0xF200
    · rw [en.store_cand (by omega) cand]
      by_cases hxc : 0xF100 ≤ x
      · rw [Engine.load, Engine.load, Engine.wordAt_cand cst _ (by omega) (by omega), Engine.wordAt_cand cst _ (by omega) (by omega),
          bytesAt_bytesAt (by omega), bytesAt_bytesAt (by omega)]
        exact bytesAt_putBytes_ne (by omega) _ _
      · exact same _ (fun _ _ => rfl) rfl rfl (fun h => absurd h hxc)
    · rw [en.store_ctrl (by omega) top]
      exact same _ (fun _ _ => en.setCtrl_work _) (en.setCtrl_primW _) (en.setCtrl_queryW _) (fun _ => en.setCtrl_candW _)

end

/-- Settles O48: a store acts and goes on; its bytes are read back, and every other byte stays. -/
theorem basteStores : Obligations.BasteStores := by
  unfold Obligations.BasteStores
  refine ⟨fun s b g w ht => ⟨fun h hf => ?_, fun hf => ?_⟩, fun cst en a n v hn ht => ⟨en.load_store_same cst v, fun x => en.load_store_ne cst v hn ht⟩⟩
  · exact congrArg Host.Outcome.next (State.bstStep_store (fun en => en.a.toNat) h (by decide) hf ht)
  · have row : ∀ {opc : Nat} (v : Engine → Nat), opc < 0x60 → s.executes b g w opc → s.bstStep b g .ok opc (withStore .storeH v) =
        s.actedSeq b g w (((s.engOf b g).store ((s.engOf b g).ea w) 2 (v (s.engOf b g))).postInc w) := fun v hopc h => by
      rw [State.bstStep_store v h hopc hf ht, formOk_storeH hf]
    exact ⟨fun h => congrArg Host.Outcome.next (row (fun en => en.x.toNat) (by decide) h),
      fun h => congrArg Host.Outcome.next (row (fun en => en.y.toNat) (by decide) h),
      fun h => congrArg Host.Outcome.next (row (fun en => en.ct.toNat) (by decide) h)⟩

/-! ## FP32 results -/

/-- Exponent and mantissa lie in the low 32 bits. -/
theorem exp_word (x : Nat) : binary32.exp (BitVec.ofNat 32 x).toNat = binary32.exp x := by
  simp only [Fmt.exp, binary32, fld, BitVec.toNat_ofNat]
  omega

theorem man_word (x : Nat) : binary32.man (BitVec.ofNat 32 x).toNat = binary32.man x := by
  simp only [Fmt.man, binary32, fld, BitVec.toNat_ofNat]
  omega

theorem fNan_word (x : Nat) : fNan (BitVec.ofNat 32 x).toNat = fNan x := by
  simp only [fNan, Fmt.isNan, exp_word, man_word]

theorem fInf_word (x : Nat) : fInf (BitVec.ofNat 32 x).toNat = fInf x := by
  simp only [fInf, Fmt.isInf, exp_word, man_word]

/-- A flushed value is the value, or a zero where the exponent is 0 and subnormals are off (R235). -/
theorem flush_cases (subn : Bool) (x : Nat) :
    flush subn x = x ∧ (subn = true ∨ binary32.exp x ≠ 0) ∨ (binary32.exp x = 0 ∧ binary32.exp (flush subn x) = 0 ∧ binary32.man (flush subn x) = 0) := by
  unfold flush
  split
  · next h =>
    simp only [Bool.and_eq_true, Bool.not_eq_true', beq_iff_eq] at h
    refine .inr ⟨h.2, ?_⟩
    cases fNeg x <;> decide
  · next h =>
    simp only [Bool.and_eq_true, Bool.not_eq_true', beq_iff_eq, not_and] at h
    refine .inl ⟨rfl, ?_⟩
    cases subn
    · exact .inr (h rfl)
    · exact .inl rfl

theorem fNan_flush (subn : Bool) (x : Nat) : fNan (flush subn x) = fNan x := by
  rcases flush_cases subn x with ⟨h, -⟩ | ⟨h0, h1, h2⟩
  · rw [h]
  · simp only [fNan, Fmt.isNan, h0, h1]
    rfl

theorem fInf_flush (subn : Bool) (x : Nat) : fInf (flush subn x) = fInf x := by
  rcases flush_cases subn x with ⟨h, -⟩ | ⟨h0, h1, h2⟩
  · rw [h]
  · simp only [fInf, Fmt.isInf, h0, h1]
    rfl

theorem fFin_flush (subn : Bool) (x : Nat) : fFin (flush subn x) = fFin x := by
  rcases flush_cases subn x with ⟨h, -⟩ | ⟨h0, h1, h2⟩
  · rw [h]
  · simp only [fFin, Fmt.isFin, h0, h1]

section
variable {f : Flags} {subn : Bool} {r : Nat} {fx : Bool}

/-- A NaN becomes the one quiet NaN, with N and Z clear (R232, R235). -/
theorem fpRes_nan (h : fNan r = true) : fpRes f subn r fx = { r := 0x7FC00000, f := { f with n := false, z := false, fx := f.fx || fx } } := by
  simp only [fpRes, h, if_true]
  rfl

theorem fpRes_of_not_nan (h : fNan r = false) :
    fpRes f subn r fx = { r := BitVec.ofNat 32 (flush subn r), f := { f.fp (flush subn r) with fx := f.fx || fx } } := by
  simp only [fpRes, h, Bool.false_eq_true, if_false]

theorem fpRes_fx : (fpRes f subn r fx).f.fx = (f.fx || fx) := rfl

/-- The result is a NaN exactly where the value is one. -/
theorem fNan_fpRes : fNan (fpRes f subn r fx).r.toNat = fNan r := by
  cases h : fNan r with
  | true =>
    have quiet : fNan (0x7FC00000 : Word).toNat = true := by decide
    rw [fpRes_nan h, quiet]
  | false => rw [fpRes_of_not_nan h, fNan_word, fNan_flush, h]

theorem fInf_of_fpRes (h : fInf (fpRes f subn r fx).r.toNat = true) : fInf r = true := by
  cases hn : fNan r with
  | true =>
    have finite : fInf (0x7FC00000 : Word).toNat = false := by decide
    rw [fpRes_nan hn] at h
    exact absurd (finite.symm.trans h) Bool.false_ne_true
  | false => rwa [fpRes_of_not_nan hn, fInf_word, fInf_flush] at h

/-- With subnormals off no result is one. -/
theorem fpRes_man (h : binary32.exp (fpRes f false r fx).r.toNat = 0) : binary32.man (fpRes f false r fx).r.toNat = 0 := by
  cases hn : fNan r with
  | true =>
    have large : binary32.exp (0x7FC00000 : Word).toNat ≠ 0 := by decide
    rw [fpRes_nan hn] at h
    exact absurd h large
  | false =>
    rw [fpRes_of_not_nan hn, exp_word] at h
    rw [fpRes_of_not_nan hn, man_word]
    rcases flush_cases false r with ⟨he, hs⟩ | ⟨-, -, hm⟩
    · rw [he] at h
      exact (hs.elim Bool.false_ne_true (absurd h)).elim
    · exact hm

end

/-- What R235 says of a result of a, b: NaN results, invalid operations, overflows, FX and subnormals. -/
structure FpRule (f : Flags) (subn : Bool) (a b : Word) (u : Alu) : Prop where
  nan : fNan u.r.toNat = true → u.r = 0x7FC00000 ∧ u.f.n = false ∧ u.f.z = false ∧ u.f.fx = true
  quiet : fNan a.toNat = true ∨ fNan b.toNat = true → u.r = 0x7FC00000
  overflow : fInf u.r.toNat = true → fFin a.toNat = true → fFin b.toNat = true → u.f.fx = true ∨ u.dz = true
  keeps : f.fx = true → u.f.fx = true
  normal : subn = false → binary32.exp u.r.toNat = 0 → binary32.man u.r.toNat = 0

/-- A rounded operation that gives a NaN for one. -/
def NanOp (op : Nat → Nat → Nat) : Prop := ∀ x y, fNan x = true ∨ fNan y = true → op x y = qNan

theorem nanOp_fAdd : NanOp fAdd := fun x y h => by
  rw [fAdd, if_pos (by simpa only [Bool.or_eq_true] using h)]

theorem nanOp_fSub : NanOp fSub := fun x y h => by
  unfold fSub
  split
  · rfl
  · next hy => exact nanOp_fAdd x _ (.inl (h.resolve_right hy))

theorem nanOp_fMul : NanOp fMul := fun x y h => by
  simp only [fMul, if_pos (show (fNan x || fNan y) = true by simpa only [Bool.or_eq_true] using h)]

theorem nanOp_fDiv : NanOp fDiv := fun x y h => by
  simp only [fDiv, if_pos (show (fNan x || fNan y) = true by simpa only [Bool.or_eq_true] using h)]

/-- A result of R235 with FX for a NaN and for an infinity from finite operands that is no division by zero. -/
theorem fpRule_of_fpRes {f : Flags} {subn fx dz : Bool} {a b : Word} {op : Nat → Nat → Nat} {u : Alu} (hop : NanOp op)
    (hr : u.r = (fpRes f subn (op (flush subn a.toNat) (flush subn b.toNat)) fx).r) (hn : u.f.n = (fpRes f subn (op (flush subn a.toNat) (flush subn b.toNat)) fx).f.n)
    (hz : u.f.z = (fpRes f subn (op (flush subn a.toNat) (flush subn b.toNat)) fx).f.z) (hfx : u.f.fx = (f.fx || fx)) (hdz : u.dz = dz)
    (nan : fNan (op (flush subn a.toNat) (flush subn b.toNat)) = true → fx = true)
    (inf : fInf (op (flush subn a.toNat) (flush subn b.toNat)) = true → fFin (flush subn a.toNat) = true → fFin (flush subn b.toNat) = true → fx = true ∨ dz = true) :
    FpRule f subn a b u where
  nan h := by
    rw [hr, fNan_fpRes] at h
    rw [hr, hn, hz, hfx, fpRes_nan h, nan h]
    exact ⟨rfl, rfl, rfl, Bool.or_true _⟩
  quiet h := by
    have q := hop (flush subn a.toNat) (flush subn b.toNat) (by rwa [fNan_flush, fNan_flush])
    rw [hr, q, fpRes_nan rfl]
  overflow h ha hb := by
    rw [hr] at h
    rw [hfx, hdz]
    refine (inf (fInf_of_fpRes h) (by rwa [fFin_flush]) (by rwa [fFin_flush])).imp_left fun h => ?_
    rw [h, Bool.or_true]
  keeps h := by rw [hfx, h, Bool.true_or]
  normal hs h := by
    subst hs
    rw [hr] at h ⊢
    exact fpRes_man h

theorem fpArith_rule (f : Flags) (subn : Bool) {op : Nat → Nat → Nat} (hop : NanOp op) (a b : Word) : FpRule f subn a b (fpArith f subn op a b) :=
  fpRule_of_fpRes hop rfl rfl rfl fpRes_fx rfl (fun h => by rw [h, Bool.true_or]) (fun h ha hb => .inl (by rw [h, ha, hb]; exact Bool.or_true _))

theorem fpDiv_rule (f : Flags) (subn : Bool) (a b : Word) : FpRule f subn a b (fpDiv f subn a b) := by
  refine fpRule_of_fpRes nanOp_fDiv rfl rfl rfl rfl rfl (fun h => by rw [h, Bool.true_or]) (fun h ha hb => ?_)
  cases hz : binary32.isZero (flush subn b.toNat) with
  | true => exact .inr hz
  | false => exact .inl (by rw [h, ha, hb]; exact Bool.or_true _)

/-- A conversion divides by nothing. -/
theorem fpToInt_dz (f : Flags) (subn : Bool) (a : Word) : (fpToInt f subn a).dz = false := by
  dsimp only [fpToInt]
  split
  · rfl
  · split
    · rfl
    · generalize (if (fVal (flush subn a.toNat)).m < 0 then -(fVal (flush subn a.toNat)).abs.floor else (fVal (flush subn a.toNat)).abs.floor) = i
      split
      · rfl
      · split <;> rfl

/-! ## The FP32 instructions -/

/-- An FP operand's result goes into A and FLAGS. -/
theorem State.bstStep_fp {s : State} {b g w opc : Nat} {v : Word} {en : Engine} {alu : Flags → Bool → Word → Word → Alu}
    (h : s.takes b g w opc .fp v en) (hopc : opc < 0x60) (hdz : (alu en.fl en.subn en.a v).dz = false ∨ en.trapDz = false) :
    s.bstStep b g .ok opc (fpOp alu) = s.actedSeq b g w { en with a := (alu en.fl en.subn en.a v).r, fl := (alu en.fl en.subn en.a v).f } := by
  obtain ⟨hx, hf⟩ := h
  refine s.bstStep_seq b g w opc _ { en with a := (alu en.fl en.subn en.a v).r, fl := (alu en.fl en.subn en.a v).f } _ hx (by omega)
    (withOp_of_fetch _ hf) (show en.ent = _ from Engine.fetch_ent hf) ?_
  rcases hdz with h | h
  · rw [h, Bool.false_and]
  · exact (congrArg ((alu en.fl en.subn en.a v).dz && ·) h).trans (Bool.and_false _)

/-- Settles O52: each row takes the result of its function, and the results of sums, differences, products and quotients obey R235. -/
theorem basteFloats : Obligations.BasteFloats := by
  unfold Obligations.BasteFloats
  refine ⟨fun s b g w v en => ⟨fun h => ?_, fun h => ?_, fun h => ?_, fun h hz => ?_, fun h => ?_, fun h => ?_, fun h => ?_, fun h => ?_,
    fun h => ?_, fun h => ?_, fun h => ?_, fun h => ?_⟩, fun f subn a b u hu => ?_⟩
  · exact congrArg Host.Outcome.next (State.bstStep_fp h (by decide) (.inl rfl))
  · exact congrArg Host.Outcome.next (State.bstStep_fp h (by decide) (.inl rfl))
  · exact congrArg Host.Outcome.next (State.bstStep_fp h (by decide) (.inl rfl))
  · exact congrArg Host.Outcome.next (State.bstStep_fp h (by decide) hz)
  · exact congrArg Host.Outcome.next (State.bstStep_fp h (by decide) (.inl rfl))
  · exact congrArg Host.Outcome.next (State.bstStep_op h (by decide) rfl rfl)
  · exact congrArg Host.Outcome.next (State.bstStep_fp h (by decide) (.inl rfl))
  · exact congrArg Host.Outcome.next (State.bstStep_fp h (by decide) (.inl rfl))
  · exact congrArg Host.Outcome.next (State.bstStep_plain_take h (by decide) rfl rfl)
  · exact congrArg Host.Outcome.next (State.bstStep_plain_take h (by decide) rfl rfl)
  · refine congrArg Host.Outcome.next (State.bstStep_plain_take h (by decide) rfl (fpToInt_dz _ _ _))
  · exact congrArg Host.Outcome.next (State.bstStep_plain_take h (by decide) rfl rfl)
  · have rule : FpRule f subn a b u := by
      rcases hu with rfl | rfl | rfl | rfl
      · exact fpArith_rule f subn nanOp_fAdd a b
      · exact fpArith_rule f subn nanOp_fSub a b
      · exact fpArith_rule f subn nanOp_fMul a b
      · exact fpDiv_rule f subn a b
    exact ⟨rule.nan, rule.quiet, rule.overflow, rule.keeps, rule.normal⟩

end Sys2Proof.Machine
end

section
/-! The control instructions of the Baste engines: traps, their entry and return, and the end of an invocation (R212, R213, R230, R232, R237 to R240). -/

namespace Sys2Proof.Machine

/-- What follows a change of an engine's invocation: nothing while the engine keeps it, all that waits where it has ended. -/
def State.bstFollow (s : State) (b g : Nat) (t : State) : State := if (t.engOf b g).ent = (s.engOf b g).ent then t else t.settle

/-- An instruction outside a repetition is applied, and what follows the end of an invocation is taken up. -/
theorem State.bstStep_apply {s : State} {b g w opc : Nat} {op : Op} (hw : s.bstWord b g = some w) (ho : iOp w = opc) (hrep : (s.engOf b g).rep = 0) :
    s.bstStep b g .ok opc op = s.bstFollow b g (s.bstApply b g (BitVec.ofNat 32 w) (op s.cstAt (s.engOf b g) w)) := by
  have hi : s.bstInstr b g .ok opc op = s.bstApply b g (BitVec.ofNat 32 w) (op s.cstAt (s.engOf b g) w) := by
    unfold State.bstInstr
    simp only [hw, ho, ne_eq, not_true_eq_false, if_false, State.checked, hrep, Nat.lt_irrefl, false_and]
  rw [State.bstStep, State.bstOne_ok, hi]
  rfl

/-- An engine that keeps its invocation: nothing follows. -/
theorem State.bstFollow_same {s t : State} {b g : Nat} (h : (t.engOf b g).ent = (s.engOf b g).ent) : s.bstFollow b g t = t := if_pos h

/-- Changes of an engine that agree at what it holds. -/
theorem State.modEng_congr {s : State} {b g : Nat} {f f' : Engine → Engine} (h : f (s.engOf b g) = f' (s.engOf b g)) : s.modEng b g f = s.modEng b g f' := by
  unfold State.modEng tmod
  exact congrArg (fun x => { s with eng := tset {} s.eng (b * 4 + g) x }) h

theorem tdel_tins {α : Type} (t : Tbl α) (k : Nat) (v : α) : tdel (tins t k v) k = tdel t k := by
  induction t with
  | nil => simp only [tins, tdel, bne_self_eq_false, Bool.false_eq_true, not_false_eq_true, List.filter_cons_of_neg, List.filter_nil]
  | cons e r ih =>
    unfold tins
    split
    · exact List.filter_cons_of_neg (by simp only [bne_self_eq_false, Bool.false_eq_true, not_false_eq_true])
    · unfold tdel at *
      rw [List.filter_cons, List.filter_cons, ih]

/-- The last of two writes of a key counts. -/
theorem tset_tset {α : Type} [DecidableEq α] (d : α) (t : Tbl α) (k : Nat) (v v' : α) : tset d (tset d t k v) k v' = tset d t k v' := by
  have del : tdel (tset d t k v) k = tdel t k := by
    unfold tset
    split
    · simp only [tdel, List.filter_filter, Bool.and_self]
    · rw [tdel_tins]
      simp only [tdel, List.filter_filter, Bool.and_self]
  rw [tset, del]
  rfl

theorem tmod_tmod {α : Type} [DecidableEq α] (d : α) (t : Tbl α) (k : Nat) (f f' : α → α) : tmod d (tmod d t k f) k f' = tmod d t k (fun x => f' (f x)) := by
  unfold tmod
  rw [tset_tset, tget_tset_same]

/-- Two changes of an engine are one. -/
theorem State.modEng_modEng (s : State) (b g : Nat) (f f' : Engine → Engine) : (s.modEng b g f).modEng b g f' = s.modEng b g (fun en => f' (f en)) :=
  congrArg (fun x => { s with eng := x }) (tmod_tmod {} s.eng (b * 4 + g) f f')

theorem State.modEng_oInc (s : State) (b g i j : Nat) (f : Engine → Engine) : (s.modEng b g f).oInc i j = (s.oInc i j).modEng b g f := rfl

/-- A change of an engine that keeps its invocation. -/
theorem State.modEng_ent {s : State} {b g : Nat} {f : Engine → Engine} (h : (f (s.engOf b g)).ent = (s.engOf b g).ent) :
    ((s.modEng b g f).engOf b g).ent = (s.engOf b g).ent := by
  rw [State.engOf_modEng, h]

/-! ## A branch on a reserved condition, with no handler -/

/-- Engine 2 of Bobbin 3, for entry 5, has BR with the reserved condition 20 next and no handler at address 8; the copy of handle 0 is done and its
extension not yet ended (R98, R305). -/
def branchNoHandler : State :=
  { obj := [(okey 0x4000 1, 3)], bob := [(3, { clock := 0 })], eng := [(14, { ent := some 5, kind := 1, pc := 16 })],
    code := [(16, 0x60140000)], hnd := [(0, { state := 1, phase := 3 })] }

theorem branchNoHandler_executes : branchNoHandler.executes 3 2 0x60140000 0x60 := by
  unfold State.executes
  decide +kernel

/-- What the statement gives: the trap has ended the invocation, and nothing has followed yet. -/
def branchTrapped : State := branchNoHandler.bstTrap 3 2 tcIllegal 16 0 0x60140000

/-- The trap finds no handler, so that the engine is free. -/
theorem branchTrapped_ent : (branchTrapped.engOf 3 2).ent ≠ (branchNoHandler.engOf 3 2).ent := by decide +kernel

/-- What follows the end of the invocation is seen at handle 0, whose extension ends. -/
theorem branchTrapped_settle_phase : (branchTrapped.settle.hndOf 0).phase ≠ (branchTrapped.hndOf 0).phase := by decide +kernel

theorem exec_branchNoHandler : exec (.bstBr 3 2 .ok) branchNoHandler = .next branchTrapped.settle := by
  obtain ⟨hw, ho, -⟩ := branchNoHandler_executes
  have step := State.bstStep_apply (op := opBr) hw ho rfl
  have trap : opBr branchNoHandler.cstAt (branchNoHandler.engOf 3 2) 0x60140000 = .trap tcIllegal := by decide +kernel
  rw [trap] at step
  exact congrArg Host.Outcome.next (step.trans (if_neg branchTrapped_ent))

/-- Refutes O53: where the ILLEGAL trap of BR with a reserved condition finds no handler (R237), the invocation ends with a fault and its engine is
free, so that `State.bstStep` goes on with `State.settle`; the statement gives the state before it. With a completed copy waiting the two differ in
handle 0. -/
theorem not_basteControl : ¬ Obligations.BasteControl := by
  unfold Obligations.BasteControl
  rintro ⟨rows, -⟩
  obtain ⟨-, reserved, -⟩ := rows branchNoHandler 3 2 0x60140000 rfl
  have claimed : exec (.bstBr 3 2 .ok) branchNoHandler = .next branchTrapped := reserved branchNoHandler_executes (.inl (by decide)) (by decide +kernel)
  have same : branchTrapped.settle = branchTrapped := Host.Outcome.next.inj (exec_branchNoHandler.symm.trans claimed)
  exact branchTrapped_settle_phase (by rw [same])

/-! ## Entering the trap state and leaving it -/

/-- An engine that enters the trap state: what e holds is saved (R237, R239). -/
def Engine.enterTrap (e : Engine) (cause tpc trem : Nat) (insn : Word) (left : Nat) (en : Engine) : Engine :=
  { en with ta := e.a, tx := e.x, ty := e.y, tct := e.ct, tflg := BitVec.ofNat 8 e.fl.toNat, tcause := cause, tpc := BitVec.ofNat 16 tpc,
            tinsn := insn, trem := BitVec.ofNat 16 trem, trapped := true, pc := 8, rep := 0, budget := left }

/-- The state with the trap counted and the engine in the trap state. -/
def State.trapEntered (s : State) (b g : Nat) (e : Engine) (cause tpc trem : Nat) (insn : Word) (left : Nat) : State :=
  (s.oInc (0x42C0 + b) 5).modEng b g (e.enterTrap cause tpc trem insn left)

/-- A trap with a handler, but for BUDGET: e agrees with the engine in what is saved. -/
theorem State.bstTrap_enter {s : State} {b g cause tpc trem left : Nat} {insn : Word} {e : Engine} (ht : (s.engOf b g).trapped = false) (hc : s.codeAt 8 ≠ 0)
    (hcause : cause ≠ tcBudget) (he : (s.engOf b g).a = e.a ∧ (s.engOf b g).x = e.x ∧ (s.engOf b g).y = e.y ∧ (s.engOf b g).ct = e.ct ∧ (s.engOf b g).fl = e.fl)
    (hleft : (s.engOf b g).budget = left) : s.bstTrap b g cause tpc trem insn = s.trapEntered b g e cause tpc trem insn left := by
  obtain ⟨ha, hx, hy, hct, hfl⟩ := he
  have go : ¬((s.engOf b g).trapped = true ∨ s.codeAt 8 = 0) := by rw [ht]; exact fun h => h.elim Bool.false_ne_true hc
  rw [State.bstTrap, if_neg go, if_neg hcause]
  refine State.modEng_congr ?_
  have same : (s.oInc (0x42C0 + b) 5).engOf b g = s.engOf b g := rfl
  simp only [same, Engine.enterTrap, ha, hx, hy, hct, hfl, if_neg hcause, hleft]

/-- The BUDGET trap gives the handler 256 instructions and raises BST_BUDGET (R240). -/
theorem State.bstTrap_budget {s : State} {b g tpc trem : Nat} {insn : Word} (ht : (s.engOf b g).trapped = false) (hc : s.codeAt 8 ≠ 0) :
    s.bstTrap b g tcBudget tpc trem insn = ((s.trapEntered b g (s.engOf b g) tcBudget tpc trem insn 256).oInc (0x42C0 + b) 6).raise 0x5600 1 (4 * b + g) := by
  have go : ¬((s.engOf b g).trapped = true ∨ s.codeAt 8 = 0) := by rw [ht]; exact fun h => h.elim Bool.false_ne_true hc
  rw [State.bstTrap, if_neg go, if_pos rfl]
  exact congrArg (fun u => (u.oInc (0x42C0 + b) 6).raise 0x5600 1 (4 * b + g)) (State.modEng_congr rfl)

theorem State.trapEntered_ent (s : State) (b g : Nat) (e : Engine) (cause tpc trem : Nat) (insn : Word) (left : Nat) :
    ((s.trapEntered b g e cause tpc trem insn left).engOf b g).ent = (s.engOf b g).ent :=
  State.modEng_ent (s := s.oInc (0x42C0 + b) 5) rfl

/-- TRAP counts as an instruction and enters the trap state (R239, R240). -/
theorem State.bstApply_soft {s : State} {b g : Nat} {w : Word} (ht : (s.engOf b g).trapped = false) (hc : s.codeAt 8 ≠ 0) :
    s.bstApply b g w .soft = ((s.oInc (0x42C0 + b) 3).modEng b g (fun en => { en with last := w })).trapEntered b g (s.engOf b g) tcSoft
      ((s.engOf b g).pc + 1) 0 w ((s.engOf b g).budget - 1) := by
  have held := State.engOf_modEng (s.oInc (0x42C0 + b) 3) b g (fun en => { en with last := w, budget := en.budget - 1 })
  have entered := State.bstTrap_enter (s := (s.oInc (0x42C0 + b) 3).modEng b g (fun en => { en with last := w, budget := en.budget - 1 }))
    (cause := tcSoft) (tpc := (s.engOf b g).pc + 1) (trem := 0) (insn := w) (e := s.engOf b g) (by rw [held]; exact ht) hc (by decide)
    (by rw [held]; exact ⟨rfl, rfl, rfl, rfl, rfl⟩) rfl
  rw [held] at entered
  refine Eq.trans entered ?_
  rw [State.trapEntered, State.trapEntered, State.modEng_oInc, State.modEng_oInc, State.modEng_modEng, State.modEng_modEng]
  rfl

/-- RTT of a handler that no BUDGET trap has entered goes on where the trap was (R239). -/
theorem State.bstApply_rtt {s : State} {b g w : Nat} (hcause : (s.engOf b g).tcause ≠ tcBudget) (hpc : (s.engOf b g).tpc.toNat < 0x1000) :
    s.bstApply b g (BitVec.ofNat 32 w) .rtt = s.acted b g w (s.engOf b g).tpc.toNat (s.engOf b g).trem.toNat
      { s.engOf b g with a := (s.engOf b g).ta, x := (s.engOf b g).tx, y := (s.engOf b g).ty, ct := (s.engOf b g).tct,
                         fl := Flags.ofNat (s.engOf b g).tflg.toNat, trapped := false } := by
  simp only [State.bstApply, if_neg hcause, State.bstGo, Bool.false_and, Bool.false_eq_true, if_false, if_neg (Nat.not_le.mpr hpc)]
  rfl

/-- Settles O54: each way into the trap state is `State.bstTrap` with a handler, and RTT is its return. -/
theorem trapEntry : Obligations.TrapEntry := by
  unfold Obligations.TrapEntry
  refine ⟨fun s b g => ?_, fun s b g w => ?_⟩
  · intro e enter ht hc he
    refine ⟨fun w hw ho hrep hm hs hi => ?_, fun w hw hk => ?_, fun hb hg hr hk h0 => ?_⟩
    · have soft : opTrap s.cstAt (s.engOf b g) w = .soft := by rw [opTrap, withForm, if_pos (formOk_immN.mpr ⟨⟨hm, hs⟩, hi⟩)]
      have step := State.bstStep_apply (op := opTrap) hw ho hrep
      rw [soft, State.bstApply_soft ht hc] at step
      refine congrArg Host.Outcome.next (step.trans (State.bstFollow_same ?_))
      exact (State.trapEntered_ent _ _ _ _ _ _ _ _ _).trans (State.modEng_ent (s := s.oInc (0x42C0 + b) 3) rfl)
    · have trap : s.bstIllegal b g = s.trapEntered b g e 1 e.pc e.rep (BitVec.ofNat 32 w) e.budget := by
        simp only [State.bstIllegal, hw, hk, Bool.false_eq_true, if_false]
        exact State.bstTrap_enter ht hc (by decide) ⟨rfl, rfl, rfl, rfl, rfl⟩ rfl
      exact congrArg (fun u => Host.Outcome.next (State.settle u)) trap
    · have trap : s.bstBudget b g = ((s.trapEntered b g e tcBudget e.pc e.rep e.last 256).oInc (0x42C0 + b) 6).raise 0x5600 1 (4 * b + g) := by
        rw [State.bstBudget, if_pos ⟨hb, hg, hr, hk, h0⟩]
        exact State.bstTrap_budget ht hc
      exact congrArg (fun u => Host.Outcome.next (State.settle u)) trap
  · intro e hw ho hz hrep ht hcause hpc
    have rtt : opRtt s.cstAt (s.engOf b g) w = .rtt := by
      rw [opRtt, withNone, if_pos (formOk_none.mpr hz), if_pos ht]
    have step := State.bstStep_apply (op := opRtt) hw ho hrep
    rw [rtt, State.bstApply_rtt hcause hpc] at step
    exact congrArg Host.Outcome.next (step.trans (State.bstFollow_same (State.modEng_ent (s := s.oInc (0x42C0 + b) 3) rfl)))

/-! ## The end of an invocation -/

/-- A fault of an engine that runs entry e: it is counted and raised, the engine is free, and the query completes with BASTE_FAULT (R213, R433). -/
theorem State.bstFail_eq {s : State} {b g e : Nat} (h : (s.engOf b g).ent = some e) (what : Nat) :
    s.bstFail b g what = (((s.oInc (0x42C0 + b) 7).raise 0x5600 0 what).freeEng b g).leafFault b e stBaste := by
  simp only [State.bstFail, h]

/-- END with a VERDICT above 1 is a fault (R212, R213). -/
theorem State.bstEnd_fault {s : State} {b g e : Nat} {h : Handoff} (he : (s.engOf b g).ent = some e) (ho : (s.ent b e).op = some h)
    (hv : 2 ≤ bytesAt (s.engOf b g).candW 0xD 1) : s.bstEnd b g = s.bstFail b g (faultWhat b g 0) := by
  simp only [State.bstEnd, he, ho, hv, if_true]

/-- END with VERDICT 0 of a PROC or SHAPE invocation leaves no candidate (R212). -/
theorem State.bstEnd_none {s : State} {b g e : Nat} {h : Handoff} (he : (s.engOf b g).ent = some e) (ho : (s.ent b e).op = some h)
    (hv : bytesAt (s.engOf b g).candW 0xD 1 = 0) (hk : (s.engOf b g).kind = 1 ∨ (s.engOf b g).kind = 3) :
    s.bstEnd b g = s.bstOver b g e { h with step := h.step + 1, cand := none } := by
  have two : ¬2 ≤ 0 := by decide
  rcases hk with hk | hk
  · simp only [State.bstEnd, he, ho, hv, hk, if_neg two, Nat.reduceEqDiff, if_false, if_true]
  · simp only [State.bstEnd, he, ho, hv, hk, if_neg two, Nat.reduceEqDiff, if_false, if_true]

/-- Settles O56: END and FAULT as the engine's window and kind have them. -/
theorem invocationEnds : Obligations.InvocationEnds := by
  unfold Obligations.InvocationEnds
  intro s b g w e h en s1 follow hw hz hrep he ho
  have what : faultWhat b g 0 = (4 * b + g) % 256 := by rw [faultWhat, Nat.zero_mul, Nat.zero_add]
  have fail : s1.bstFail b g (faultWhat b g 0) = (((s1.oInc (0x42C0 + b) 7).raise 0x5600 0 ((4 * b + g) % 256)).freeEng b g).leafFault b e stBaste :=
    what ▸ State.bstFail_eq (s := s1) he _
  have form := formOk_none.mpr hz
  have last : iOp w = 0x65 → s.bstStep b g .ok 0x65 opEnd = s.bstFollow b g (s1.bstEnd b g) := fun hop => by
    rw [State.bstStep_apply hw hop hrep, opEnd, withNone, if_pos form]
    rfl
  refine ⟨fun hop hv hk => ?_, fun hop hv => ?_, fun hop => ?_⟩
  · rw [State.bstEnd_none (s := s1) he ho hv hk] at last
    exact congrArg Host.Outcome.next (last hop)
  · rw [State.bstEnd_fault (s := s1) he ho hv, fail] at last
    exact congrArg Host.Outcome.next (last hop)
  · have step := State.bstStep_apply (op := opFault) hw hop hrep
    rw [opFault, withNone, if_pos form] at step
    exact congrArg Host.Outcome.next (step.trans (congrArg (s.bstFollow b g) fail))

end Sys2Proof.Machine
end

section
/-! Host writes of the register window and the Bodkin commands (R40, R251, R254, R269 to R288, R347). -/

namespace Sys2Proof.Machine

/-! ## Registers and rows of a table -/

/-- A register that another object's change leaves. -/
theorem State.oInc_o_ne (s : State) {i j k l : Nat} (h : i ≠ k) (hj : j < 256) (hl : l < 256) : (s.oInc k l).o i j = s.o i j :=
  s.oSet_o_ne i j k l _ h hj hl

/-- A change of one entry keeps what holds of every entry. -/
theorem all_tmod {α : Type} [DecidableEq α] {P : α → Prop} {d : α} {t : Tbl α} {k : Nat} {f : α → α} (ht : ∀ e ∈ t, P e.2) (hf : P (f (tget d t k))) :
    ∀ e ∈ tmod d t k f, P e.2 := by
  intro e he
  unfold tmod tset at he
  split at he
  · exact ht e (List.mem_filter.mp he).1
  · rcases (mem_tins _ _ _ e).mp he with rfl | he
    · exact hf
    · exact ht e (List.mem_filter.mp he).1

namespace State.Still

variable {s : State}

theorem oSet (h : s.Still) (i j v : Nat) : (s.oSet i j v).Still := ⟨h.due, h.lcWait, h.goes, h.lossWait, h.keyWait, h.idle, h.queue, h.after⟩
theorem oInc (h : s.Still) (i j : Nat) : (s.oInc i j).Still := h.oSet i j _
theorem modCtx (h : s.Still) (c : Nat) (f : CtxSt → CtxSt) : (s.modCtx c f).Still := ⟨h.due, h.lcWait, h.goes, h.lossWait, h.keyWait, h.idle, h.queue, h.after⟩
theorem modEp (h : s.Still) (e : Nat) (f : Endpoint → Endpoint) : (s.modEp e f).Still := ⟨h.due, h.lcWait, h.goes, h.lossWait, h.keyWait, h.idle, h.queue, h.after⟩

/-- A change of a stream that leaves it with nothing to place and no fill. -/
theorem modSt (h : s.Still) {c st : Nat} {f : StreamSt → StreamSt} (hf : (f (s.st c st)).idle) : (s.modSt c st f).Still :=
  ⟨h.due, h.lcWait, h.goes, h.lossWait, h.keyWait, all_tmod h.idle hf, h.queue, h.after⟩

end State.Still

/-! ## A host write that is heard -/

theorem State.run_pstate {s : State} (h : s.run = true) : s.pstate = 3 := beq_iff_eq.mp h

theorem State.live_of_run {s : State} (h : s.run = true) : s.live = true := by
  unfold State.live
  rw [State.run_pstate h]
  rfl

/-- In RUN there is nothing to wake. -/
theorem State.wakeEvent_of_run {s : State} (h : s.run = true) : s.wakeEvent = s := by
  unfold State.wakeEvent
  rw [State.run_pstate h]
  rfl

/-- A write that is heard is counted and applied (R347, R351). -/
theorem State.hwrIn_of_hears {s : State} {hp : Nat} {i : Instr} (h : s.hears hp) (hi : hwrPort i = some hp) : s.hwrIn i = (s.heard hp).applyIn i := by
  obtain ⟨hhp, hl, hr⟩ := h
  have up : (!(decide (hp < 8) && (s.lstate (16 + hp) == 1 || s.lstate (16 + hp) == 2))) = false := by
    simp only [Bool.not_eq_false', Bool.and_eq_true, decide_eq_true_eq, Bool.or_eq_true, beq_iff_eq]
    exact ⟨hhp, hl⟩
  have awake : ¬s.pstate = 2 := by rw [State.run_pstate hr]; decide
  simp only [State.hwrIn, hi, State.hwr, up, Bool.false_eq_true, if_false, if_neg awake, State.live_of_run hr, if_true, State.wakeEvent_of_run hr]
  rfl

/-- Counting a host write changes no register but those of its port. -/
theorem State.heard_o (s : State) (hp : Nat) {i j : Nat} (h : i ≠ 0x4400 + 16 + hp) (hj : j < 256) : (s.heard hp).o i j = s.o i j :=
  s.oInc_o_ne h hj (by decide)

/-- It changes no object of a context. -/
theorem State.heard_co (s : State) (hp : Nat) {c o sub : Nat} (hc : 64 * c + o < 4096) (hs : sub < 256) : (s.heard hp).co c o sub = s.co c o sub :=
  s.heard_o hp (by omega) hs

theorem State.heard_ringCtrl (s : State) (hp : Nat) {c st : Nat} (hc : c < 64) (hst : st < 8) : (s.heard hp).ringCtrl c st = s.ringCtrl c st :=
  s.heard_co hp (by omega) (by decide)

section
variable {s : State} {hp : Nat} (h : s.hears hp) (c st e : Nat) (v : Word)
include h

theorem exec_doorbell_of_hears : exec (.doorbell hp c st v) s = .next ((s.heard hp).bell c st v).settle :=
  congrArg (fun u => Host.Outcome.next (State.settle u)) (State.hwrIn_of_hears h rfl)
theorem exec_rcons_of_hears : exec (.rcons hp c st v) s = .next ((s.heard hp).rconsWrite c st v).settle :=
  congrArg (fun u => Host.Outcome.next (State.settle u)) (State.hwrIn_of_hears h rfl)
theorem exec_scred_of_hears : exec (.scred hp c st v) s = .next ((s.heard hp).scredWrite c st v).settle :=
  congrArg (fun u => Host.Outcome.next (State.settle u)) (State.hwrIn_of_hears h rfl)
theorem exec_bcred_of_hears : exec (.bcred hp c v) s = .next ((s.heard hp).bcredWrite c v).settle :=
  congrArg (fun u => Host.Outcome.next (State.settle u)) (State.hwrIn_of_hears h rfl)
theorem exec_dcred_of_hears : exec (.dcred hp e v) s = .next ((s.heard hp).dcredWrite e v).settle :=
  congrArg (fun u => Host.Outcome.next (State.settle u)) (State.hwrIn_of_hears h rfl)

end

/-! ## Doorbells -/

section
variable {s : State} {c st : Nat} {v : Word}

theorem State.bell_of_disabled (h : s.ringEn c st = false) : s.bell c st v = s.raise (0x5900 + c) 1 st := by
  simp only [State.bell, h, Bool.not_false, if_true]

theorem State.bell_of_le (h : s.ringEn c st = true) (hv : v ≠ (s.st c st).tail)
    (hle : (v - (s.st c st).tail).toNat ≤ 2 ^ s.ringLog c st - ((s.st c st).tail - (s.st c st).head).toNat) :
    s.bell c st v = s.modSt c st (fun x => { x with tail := v, bells := x.bells ++ [(v, s.clkF)] }) := by
  simp only [State.bell, h, Bool.not_true, Bool.false_eq_true, if_false, if_neg hv, if_pos hle]

theorem State.bell_of_gt (h : s.ringEn c st = true) (hv : v ≠ (s.st c st).tail)
    (hgt : 2 ^ s.ringLog c st - ((s.st c st).tail - (s.st c st).head).toNat < (v - (s.st c st).tail).toNat) :
    s.bell c st v = s.raise (0x5900 + c) 0 st := by
  simp only [State.bell, h, Bool.not_true, Bool.false_eq_true, if_false, if_neg hv, if_neg (Nat.not_le.mpr hgt)]

end

/-- Settles O15: a heard write inside its range changes its count, and a stream that had nothing to do has nothing to do. -/
theorem windowCreditWrites : Obligations.WindowCreditWrites := by
  unfold Obligations.WindowCreditWrites
  intro s hp c st e v hears still hc hst he h
  have quiet : h.Still := (s.still_iff.mp still).oInc _ _
  have ctrl : h.ringCtrl c st = s.ringCtrl c st := s.heard_ringCtrl hp hc hst
  have idle : ((s.st c st).idle) := quiet.st_idle c st
  have log : h.ringLog c st = s.ringLog c st := by rw [State.ringLog, State.ringLog, ctrl]
  have en : h.ringEn c st = s.ringEn c st := by rw [State.ringEn, State.ringEn, ctrl]
  refine ⟨fun hen hv hle => ?_, fun ok => ?_, fun ok => ?_, fun ok => ?_, fun ok => ?_⟩
  · rw [exec_doorbell_of_hears hears, State.bell_of_le (en.trans hen) hv (by rw [log]; exact hle), (quiet.modSt idle).settle]
    rfl
  · rw [exec_rcons_of_hears hears, State.rconsWrite, if_pos (show creditOk v (h.st c st).rcons (h.st c st).prod = true from ok), (quiet.modSt idle).settle]
  · rw [exec_scred_of_hears hears, State.scredWrite, if_pos (show creditOk v (h.st c st).scred (h.st c st).fills = true from ok), (quiet.modSt idle).settle]
  · rw [exec_bcred_of_hears hears, State.bcredWrite, if_pos (show creditOk v (h.ctxOf c).bcred (h.ctxOf c).replies = true from ok), (quiet.modCtx _ _).settle]
  · rw [exec_dcred_of_hears hears, State.dcredWrite, if_pos (show creditOk v (h.epOf e).cons (h.epOf e).disp = true from ok), (quiet.modEp _ _).settle]

/-- Settles O16: a heard write outside its range raises its cause. -/
theorem windowViolations : Obligations.WindowViolations := by
  unfold Obligations.WindowViolations
  intro s hp c st e v hears hc hst he h
  have ctrl : h.ringCtrl c st = s.ringCtrl c st := s.heard_ringCtrl hp hc hst
  have log : h.ringLog c st = s.ringLog c st := by rw [State.ringLog, State.ringLog, ctrl]
  have en : h.ringEn c st = s.ringEn c st := by rw [State.ringEn, State.ringEn, ctrl]
  have no : ∀ {b : Bool}, b = false → ¬b = true := fun h t => Bool.false_ne_true (h.symm.trans t)
  refine ⟨fun hen => ?_, fun hen hv hgt => ?_, fun bad => ?_, fun bad => ?_, fun bad => ?_, fun bad => ?_⟩
  · rw [exec_doorbell_of_hears hears, State.bell_of_disabled (en.trans hen)]
  · rw [exec_doorbell_of_hears hears, State.bell_of_gt (en.trans hen) hv (by rw [log]; exact hgt)]
  · rw [exec_rcons_of_hears hears, State.rconsWrite, if_neg (show ¬creditOk v (h.st c st).rcons (h.st c st).prod = true from no bad)]
  · rw [exec_scred_of_hears hears, State.scredWrite, if_neg (show ¬creditOk v (h.st c st).scred (h.st c st).fills = true from no bad)]
  · rw [exec_bcred_of_hears hears, State.bcredWrite, if_neg (show ¬creditOk v (h.ctxOf c).bcred (h.ctxOf c).replies = true from no bad)]
  · rw [exec_dcred_of_hears hears, State.dcredWrite, if_neg (show ¬creditOk v (h.epOf e).cons (h.epOf e).disp = true from no bad)]

/-! ## Refusals of Bodkin commands (R271) -/

section
variable {s : State} {c : Nat} {w : BdkWords}

theorem State.bdkCheck_bad (h : BdkCmd.bad w = true) : s.bdkCheck c w = 0x86 := by
  simp only [State.bdkCheck, h, if_true]

theorem State.bdkCheck_range (h : BdkCmd.bad w = false) (hk : BdkCmd.code w < 5) (ht : s.inThr c (BdkCmd.thread w) = false) : s.bdkCheck c w = 0x80 := by
  simp only [State.bdkCheck, h, Bool.false_eq_true, if_false, if_neg (Nat.not_le.mpr hk), ht, Bool.not_false, if_true]

theorem State.bdkCheck_ack (h : BdkCmd.bad w = false) (hk : BdkCmd.code w = 3) (ht : s.inThr c (BdkCmd.thread w) = true) :
    s.bdkCheck c w = if (s.thrOf (BdkCmd.thread w)).st = .dispatched then 0 else 0x81 := by
  have small : ¬5 ≤ 3 := by decide
  simp only [State.bdkCheck, h, Bool.false_eq_true, if_false, hk, if_neg small, ht, Bool.not_true, beq_iff_eq]

theorem State.bdkCheck_cancel (h : BdkCmd.bad w = false) (hk : BdkCmd.code w = 4) (ht : s.inThr c (BdkCmd.thread w) = true) :
    s.bdkCheck c w = if (s.thrOf (BdkCmd.thread w)).st = .dispatched then 0x83 else if (s.thrOf (BdkCmd.thread w)).st = .free then 0x81 else 0 := by
  have small : ¬5 ≤ 4 := by decide
  simp only [State.bdkCheck, h, Bool.false_eq_true, if_false, hk, if_neg small, ht, Bool.not_true, beq_iff_eq]

/-- A reserved code makes a command bad. -/
theorem BdkCmd.bad_of_code (h : BdkCmd.code w = 0 ∨ 6 < BdkCmd.code w) : BdkCmd.bad w = true := by
  unfold BdkCmd.bad
  rw [Bool.or_eq_true]
  refine .inr ?_
  split <;> first | omega | rfl

theorem BdkCmd.bad_of_field (h : fld w.w0.toNat 9 23 ≠ 0) : BdkCmd.bad w = true := by
  unfold BdkCmd.bad
  rw [Bool.or_eq_true]
  exact .inl (bne_iff_ne.mpr h)

end

/-- Settles O20: the order of the checks. -/
theorem bodkinRefusals : Obligations.BodkinRefusals := by
  unfold Obligations.BodkinRefusals
  intro s c w
  refine ⟨fun h => State.bdkCheck_bad (BdkCmd.bad_of_code h), fun h => State.bdkCheck_bad (BdkCmd.bad_of_field h), State.bdkCheck_range, State.bdkCheck_ack,
    fun h hk ht => ?_⟩
  rw [State.bdkCheck_cancel h hk ht]
  cases (s.thrOf (BdkCmd.thread w)).st <;> rfl

/-! ## Threads -/

@[simp] theorem State.began_thr (s : State) (i j : Nat) : (s.began i j).thr = s.thr := by
  unfold State.began
  split <;> rfl

@[simp] theorem State.freeFlow_thr (s : State) (x : Thread) : (s.freeFlow x).thr = s.thr := by
  unfold State.freeFlow
  split <;> rfl

theorem State.thrOf_oInc (s : State) (i j k : Nat) : (s.oInc i j).thrOf k = s.thrOf k := rfl

theorem State.thrOf_congr {s t : State} (h : t.thr = s.thr) (k : Nat) : t.thrOf k = s.thrOf k := by rw [State.thrOf, State.thrOf, h]

/-- A thread that joins its ready list (R279). -/
theorem State.makeReady_thr (s : State) (t : Nat) :
    (s.makeReady t).thr = (s.modThr t (fun x => { x with st := .ready, readyAt := s.clkF, aged := false, affOver := false })).thr := by
  simp only [State.makeReady, State.modThr, State.began_thr]

theorem State.makeReady_thrOf (s : State) (t : Nat) :
    (s.makeReady t).thrOf t = { s.thrOf t with st := .ready, readyAt := s.clkF, aged := false, affOver := false } := by
  rw [State.thrOf_congr (s.makeReady_thr t), State.thrOf_modThr]

theorem State.makeReady_thrOf_ne (s : State) {t k : Nat} (h : k ≠ t) : (s.makeReady t).thrOf k = s.thrOf k := by
  rw [State.thrOf_congr (s.makeReady_thr t), State.thrOf_modThr_ne _ _ _ _ h]

/-- The thread that SPAWN starts (R274). -/
def spawned (s : State) (c : Nat) (w : BdkWords) : Thread :=
  { st := .waiting, ctx := c, tag := w.arg1.toNat, nexp := fld w.arg0.toNat 16 16, group := fld w.arg0.toNat 32 6, cls := fld w.arg0.toNat 38 2,
    flow := fld w.arg0.toNat 40 12, flowEn := bit w.arg0.toNat 52, ord := bit w.arg0.toNat 53,
    lastEp := if bit w.arg2.toNat 10 then some (w.arg2.toNat % 1024) else none, arm := 1, spawnOrd := s.order }

theorem State.spawnThr_eq (s : State) (c : Nat) (w : BdkWords) :
    s.spawnThr c w = if fld w.arg0.toNat 16 16 = 0
      then ((s.tick.2.modThr (BdkCmd.thread w) (fun _ => spawned s c w)).oInc 0x4320 5).makeReady (BdkCmd.thread w)
      else (s.tick.2.modThr (BdkCmd.thread w) (fun _ => spawned s c w)).oInc 0x4320 5 := rfl

theorem State.spawnThr_thrOf (s : State) (c : Nat) (w : BdkWords) :
    (s.spawnThr c w).thrOf (BdkCmd.thread w) = if fld w.arg0.toNat 16 16 = 0
      then { spawned s c w with st := .ready, readyAt := s.clkF, aged := false, affOver := false } else spawned s c w := by
  have put : ((s.tick.2.modThr (BdkCmd.thread w) (fun _ => spawned s c w)).oInc 0x4320 5).thrOf (BdkCmd.thread w) = spawned s c w :=
    (State.thrOf_oInc _ _ _ _).trans (State.thrOf_modThr s.tick.2 _ _)
  rw [State.spawnThr_eq]
  split
  · rw [State.makeReady_thrOf, put]
    rfl
  · exact put

theorem State.spawnThr_thrOf_ne (s : State) (c : Nat) (w : BdkWords) {k : Nat} (h : k ≠ BdkCmd.thread w) : (s.spawnThr c w).thrOf k = s.thrOf k := by
  have put : ((s.tick.2.modThr (BdkCmd.thread w) (fun _ => spawned s c w)).oInc 0x4320 5).thrOf k = s.thrOf k :=
    (State.thrOf_oInc _ _ _ _).trans (State.thrOf_modThr_ne s.tick.2 _ _ _ h)
  rw [State.spawnThr_eq]
  split
  · rw [State.makeReady_thrOf_ne _ h, put]
  · exact put

/-- The thread that ACK arms again, for n operands (R284). -/
def rearmed (s : State) (n : Nat) (x : Thread) : Thread :=
  { x with st := .waiting, arm := x.arm + 1, nexp := n, matched := 0, registered := 0, nbad := 0, firstBad := 0, sent := none, warned := false,
           spawnOrd := s.tick.1 }

/-- The state in which ACK has counted and has given up the thread's flow. -/
def State.acked (s : State) (w : BdkWords) : State := (s.oInc 0x4320 9).freeFlow (s.thrOf (BdkCmd.thread w))

theorem State.acked_thrOf (s : State) (w : BdkWords) (k : Nat) : (s.acked w).thrOf k = s.thrOf k :=
  State.thrOf_congr ((s.oInc 0x4320 9).freeFlow_thr _) k

theorem State.ackThr_free {s : State} {w : BdkWords} (h : bit w.arg0.toNat 16 = false) :
    s.ackThr w = (s.acked w).modThr (BdkCmd.thread w) (fun _ => {}) := by
  simp only [State.ackThr, h, Bool.false_eq_true, if_false]
  rfl

theorem State.ackThr_arm {s : State} {w : BdkWords} (h : bit w.arg0.toNat 16 = true) :
    s.ackThr w = if fld w.arg0.toNat 32 16 = 0
      then ((s.acked w).tick.2.modThr (BdkCmd.thread w) (rearmed (s.acked w) (fld w.arg0.toNat 32 16))).makeReady (BdkCmd.thread w)
      else (s.acked w).tick.2.modThr (BdkCmd.thread w) (rearmed (s.acked w) (fld w.arg0.toNat 32 16)) := by
  simp only [State.ackThr, h, if_true]
  rfl

theorem State.ackThr_thrOf_arm {s : State} {w : BdkWords} (h : bit w.arg0.toNat 16 = true) :
    ((s.ackThr w).thrOf (BdkCmd.thread w)).st = (if fld w.arg0.toNat 32 16 = 0 then .ready else .waiting) ∧
    ((s.ackThr w).thrOf (BdkCmd.thread w)).nexp = fld w.arg0.toNat 32 16 ∧
    ((s.ackThr w).thrOf (BdkCmd.thread w)).arm = (s.thrOf (BdkCmd.thread w)).arm + 1 := by
  have held : (s.acked w).tick.2.thrOf (BdkCmd.thread w) = s.thrOf (BdkCmd.thread w) := s.acked_thrOf w _
  have put := State.thrOf_modThr (s.acked w).tick.2 (BdkCmd.thread w) (rearmed (s.acked w) (fld w.arg0.toNat 32 16))
  rw [held] at put
  rw [State.ackThr_arm h]
  split
  · next hn =>
    rw [State.makeReady_thrOf, put]
    exact ⟨rfl, rfl, rfl⟩
  · next hn =>
    rw [put]
    exact ⟨rfl, rfl, rfl⟩

theorem State.ackThr_thrOf_ne (s : State) (w : BdkWords) {k : Nat} (h : k ≠ BdkCmd.thread w) : (s.ackThr w).thrOf k = s.thrOf k := by
  cases hb : bit w.arg0.toNat 16 with
  | false => rw [State.ackThr_free hb, State.thrOf_modThr_ne _ _ _ _ h, State.acked_thrOf]
  | true =>
    have put : ((s.acked w).tick.2.modThr (BdkCmd.thread w) (rearmed (s.acked w) (fld w.arg0.toNat 32 16))).thrOf k = s.thrOf k :=
      (State.thrOf_modThr_ne _ _ _ _ h).trans (s.acked_thrOf w k)
    rw [State.ackThr_arm hb]
    split
    · rw [State.makeReady_thrOf_ne _ h, put]
    · exact put

/-- CANCEL frees its thread, without its expectations (R282). -/
theorem State.cancelThr_thrOf (s : State) (w : BdkWords) : (s.cancelThr w).thrOf (BdkCmd.thread w) = {} :=
  (State.thrOf_oInc _ _ _ _).trans (State.thrOf_modThr { s with expct := s.expct.filter (fun x => x.thread != BdkCmd.thread w) } _ _)

theorem State.cancelThr_thrOf_ne (s : State) (w : BdkWords) {k : Nat} (h : k ≠ BdkCmd.thread w) : (s.cancelThr w).thrOf k = s.thrOf k :=
  (State.thrOf_oInc _ _ _ _).trans (State.thrOf_modThr_ne { s with expct := s.expct.filter (fun x => x.thread != BdkCmd.thread w) } _ _ _ h)

theorem State.cancelThr_expct (s : State) (w : BdkWords) : (s.cancelThr w).expct = s.expct.filter (fun x => x.thread != BdkCmd.thread w) := rfl

/-- Settles O21: what each of the three commands makes of its thread, and of the others. -/
theorem threadStates : Obligations.ThreadStates := by
  unfold Obligations.ThreadStates
  intro s c w t a0
  refine ⟨?_, ?_, ?_, ?_, fun h => ?_, State.ackThr_thrOf_arm, s.cancelThr_thrOf w, ?_, fun k hk => ⟨s.spawnThr_thrOf_ne c w hk, s.ackThr_thrOf_ne w hk, s.cancelThr_thrOf_ne w hk⟩⟩
  · rw [State.spawnThr_thrOf]
    split <;> rfl
  · rw [State.spawnThr_thrOf]
    split <;> rfl
  · rw [State.spawnThr_thrOf]
    split <;> rfl
  · rw [State.spawnThr_thrOf]
    split <;> rfl
  · rw [State.ackThr_free h, State.thrOf_modThr]
  · rw [State.cancelThr_expct, List.all_eq_true]
    exact fun x hx => (List.mem_filter.mp hx).2

/-! ## Bodkin commands -/

/-- The context in turn has a command at its head that does not wait for reply room (R269, R272). -/
theorem State.bdkTurn_some {s : State} {c : Nat} {w : BdkWords} {rest : List BdkWords} (h : s.bdkTurn = some c) (hq : (s.ctxOf c).cmds = w :: rest) :
    (s.bdkNeeds c w && s.bdkFull c) = false := by
  simp only [State.bdkTurn, firstIdx, Option.map_eq_some_iff] at h
  obtain ⟨i, hi, rfl⟩ := h
  have can := List.find?_some hi
  simp only [hq, Bool.not_eq_true'] at can
  exact can

/-- The command at the head has left the queue, is counted, and the next turn is the next context's (R269, R290). -/
def State.bdkTaken (s : State) (c : Nat) (rest : List BdkWords) : State :=
  (((s.bdkCycle 0 4).modTile (fun t => { t with bdkNext := c + 1 })).modCtx c (fun x => { x with cmds := rest, replyFull := false })).coSet c 0x17
    ((s.bdk c 0xF + 1) % 2 ^ 32) 0xF

section
variable {s : State} {c : Nat} {w : BdkWords} {rest : List BdkWords} {is : Nat → Bool} (hr : s.run = true) (ht : s.bdkTurn = some c)
  (hq : (s.ctxOf c).cmds = w :: rest) (hk : is (BdkCmd.code w) = true)
include hr ht hq hk

/-- The head of the queue in its turn, whose code is the row's (R269 to R273). -/
theorem State.bdkApply_turn : s.bdkApply c is =
    if s.bdkCheck c w ≠ 0 then ((s.bdkTaken c rest).bdkInfo c w).2.bdkReply c w (s.bdkCheck c w) ((s.bdkTaken c rest).bdkInfo c w).1
    else if s.bdkNeeds c w then
      (if BdkCmd.code w == 3 || BdkCmd.code w == 4 then ((s.bdkTaken c rest).bdkEffect c w).bdkStops c
        else ((((s.bdkTaken c rest).bdkEffect c w).bdkStops c).bdkInfo c w).2).bdkReply c w (if BdkCmd.code w = 4 then 0x12 else 0)
        (if BdkCmd.code w == 3 || BdkCmd.code w == 4 then (s.bdkTaken c rest).bdkInfo c w
          else (((s.bdkTaken c rest).bdkEffect c w).bdkStops c).bdkInfo c w).1
    else ((s.bdkTaken c rest).bdkEffect c w).bdkStops c := by
  have room := State.bdkTurn_some ht hq
  have go : (!(s.run && is (BdkCmd.code w))) = false := by rw [hr, hk]; rfl
  have mine : (s.bdkTurn != some c) = false := by rw [ht]; exact bne_self_eq_false _
  simp only [State.bdkApply, hq, go, room, mine, Bool.false_eq_true, if_false]
  split
  · rfl
  · split
    · split <;> rfl
    · rfl

/-- A valid command without REPLY has its effect and no reply. -/
theorem State.bdkApply_quiet (hc : s.bdkCheck c w = 0) (hrep : BdkCmd.reply w = false) (h4 : BdkCmd.code w ≠ 4) :
    s.bdkApply c is = ((s.bdkTaken c rest).bdkEffect c w).bdkStops c := by
  have needs : ¬s.bdkNeeds c w = true := by
    rw [State.bdkNeeds, hc, hrep, beq_false_of_ne h4]
    decide
  rw [State.bdkApply_turn hr ht hq hk, if_neg (not_not_intro hc), if_neg needs]

/-- CANCEL always replies, with 0x12 where it is valid (R272, R282). -/
theorem State.bdkApply_cancel (hc : s.bdkCheck c w = 0) (h4 : BdkCmd.code w = 4) :
    s.bdkApply c is = (((s.bdkTaken c rest).cancelThr w).bdkStops c).bdkReply c w 0x12 ((s.bdkTaken c rest).bdkInfo c w).1 := by
  have needs : s.bdkNeeds c w = true := by rw [State.bdkNeeds, h4]; simp only [beq_self_eq_true, Bool.or_true, Bool.true_or]
  have effect : (s.bdkTaken c rest).bdkEffect c w = (s.bdkTaken c rest).cancelThr w := by simp only [State.bdkEffect, h4]
  have early : (BdkCmd.code w == 3 || BdkCmd.code w == 4) = true := by rw [h4]; rfl
  rw [State.bdkApply_turn hr ht hq hk, if_neg (not_not_intro hc), if_pos needs, effect, if_pos early, if_pos early, if_pos h4]

/-- A refused command replies with its code (R271, R272). -/
theorem State.bdkApply_refused (hc : s.bdkCheck c w ≠ 0) :
    s.bdkApply c is = ((s.bdkTaken c rest).bdkInfo c w).2.bdkReply c w (s.bdkCheck c w) ((s.bdkTaken c rest).bdkInfo c w).1 := by
  rw [State.bdkApply_turn hr ht hq hk, if_pos hc]

end

/-- A command that is heard joins its queue last while the Bodkin is on for the context and the queue has room (R270). -/
theorem State.hwrIn_bdk {s : State} {hp c : Nat} {w : BdkWords} {i : Instr} (h : s.hears hp) (hc : c < 64) (he : s.bdkEn c = true)
    (hl : (s.ctxOf c).cmds.length < 64) (hi : hwrPort i = some hp) (ha : ∀ u : State, u.applyIn i = u.bdkPush c w) :
    s.hwrIn i = (s.heard hp).modCtx c (fun x => { x with cmds := x.cmds ++ [w] }) := by
  have en : (s.heard hp).bdkEn c = true := by
    rw [State.bdkEn, State.bdk, s.heard_co hp (by omega) (by decide)]
    exact he
  rw [State.hwrIn_of_hears h hi, ha, State.bdkPush, en, if_neg (by decide), if_pos (show ((s.heard hp).ctxOf c).cmds.length < 64 from hl)]

/-- Settles O19: a command is queued as it is heard, and the head of the queue is applied in its context's turn. -/
theorem bodkinCommands : Obligations.BodkinCommands := by
  unfold Obligations.BodkinCommands
  refine ⟨fun s hp c w h hc he hl => ?_, fun s hp c w rest => ?_⟩
  · have row : ∀ {i : Instr} (is : Nat → Bool), hwrPort i = some hp → (∀ u : State, u.applyIn i = u.bdkPush c w) →
        (Host.Outcome.next ((s.hwrIn i).bdkApply c is).settle : Out) =
          .next (((s.heard hp).modCtx c (fun x => { x with cmds := x.cmds ++ [w] })).bdkApply c is).settle :=
      fun is hi ha => by rw [State.hwrIn_bdk h hc he hl hi ha]
    exact ⟨row _ rfl fun _ => rfl, row _ rfl fun _ => rfl, row _ rfl fun _ => rfl, row _ rfl fun _ => rfl, row _ rfl fun _ => rfl, row _ rfl fun _ => rfl,
      row _ rfl fun _ => rfl⟩
  · intro taken go hr ht hq
    have next : ∀ {u v : State}, u = v → (Host.Outcome.next u.settle : Out) = .next v.settle := fun h => by rw [h]
    refine ⟨fun hc hrep => ?_, fun hc h4 => next ?_, fun hk => next ?_⟩
    · have row : ∀ {n : Nat} {u : State}, BdkCmd.code w = n → n ≠ 4 → taken.bdkEffect c w = u → (Host.Outcome.next (s.bdkApply c (fun k => k == n)).settle : Out) = go u :=
        fun {n _} hk h4 hu => next ((State.bdkApply_quiet (is := fun k => k == n) hr ht hq (beq_iff_eq.mpr hk) hc hrep (by rw [hk]; exact h4)).trans (congrArg (State.bdkStops · c) hu))
      refine ⟨fun hk => row hk (by decide) ?_, fun hk => row hk (by decide) ?_, fun hk => row hk (by decide) ?_, fun hk => row hk (by decide) ?_,
        fun hk => row hk (by decide) ?_⟩
      all_goals simp only [State.bdkEffect, hk]
    · exact State.bdkApply_cancel (is := fun k => k == 4) hr ht hq (beq_iff_eq.mpr h4) hc h4
    · have bad : s.bdkCheck c w = 0x86 := State.bdkCheck_bad (BdkCmd.bad_of_code hk)
      have step := State.bdkApply_refused hr ht hq (is := fun k => k == 0 || decide (6 < k)) (by simp only [Bool.or_eq_true, beq_iff_eq, decide_eq_true_eq]; exact hk)
        (by rw [bad]; decide)
      rw [bad] at step
      exact step

end Sys2Proof.Machine
end

section
/-! Registers after the changes of power and ring state, and the pins (R402, R411, R431, R439, R440, R463, R465). -/

namespace Sys2Proof.Machine

/-! ## Registers after a write -/

/-- What a register reads after a write. -/
theorem State.o_oSet (s : State) (k l v i j : Nat) : (s.oSet k l v).o i j = if okey i j = okey k l then v else s.o i j := by
  split
  · next h =>
    unfold State.o State.oSet
    rw [h, tget_tset_same]
  · next h => exact s.o_oSet_ne _ _ _ _ _ h

/-- A register of another object, or another one of the same object, keeps its value. -/
theorem State.o_oSet_of {s : State} {k l v i j : Nat} (h : okey i j ≠ okey k l) : (s.oSet k l v).o i j = s.o i j := s.o_oSet_ne _ _ _ _ _ h

/-- A table without the keys that p excludes. -/
theorem tget_filter_key {α : Type} (d : α) (t : Tbl α) (p : Nat → Bool) (k : Nat) : tget d (t.filter (fun e => p e.1)) k = if p k then tget d t k else d := by
  induction t with
  | nil => simp only [List.filter_nil, tget, ite_self]
  | cons e r ih =>
    obtain ⟨k', v⟩ := e
    rw [List.filter_cons]
    by_cases hk : k' = k
    · subst hk
      cases hp : p k' with
      | true => simp only [if_true, tget]
      | false =>
        rw [hp] at ih
        simp only [Bool.false_eq_true, if_false] at ih ⊢
        exact ih
    · cases hp : p k' with
      | true => simpa only [if_true, tget, if_neg hk] using ih
      | false => simpa only [Bool.false_eq_true, if_false, tget, if_neg hk] using ih

/-! ## What an event leaves -/

section
variable (s : State) {i j : Nat}

/-- What an event and a cause can change of RING_STAT is its count of frames sent (R425). -/
theorem State.sendRing_o_of (f : RingFrame) (h : okey i j ≠ okey 0x1100 5) : (s.sendRing f).o i j = s.o i j := by
  unfold State.sendRing
  split
  · exact State.o_oSet_of h
  · rfl

theorem State.sendEvent_o_of (ev : BitVec 16 × List Byte) (h : okey i j ≠ okey 0x1100 5) : (s.sendEvent ev).o i j = s.o i j := by
  unfold State.sendEvent
  split
  · rfl
  · exact s.sendRing_o_of _ h

theorem State.pushEvent_o_of (d : List Byte) (h : okey i j ≠ okey 0x1100 5) (h3 : okey i j ≠ okey 0x1120 3) (h5 : okey i j ≠ okey 0x1120 5) :
    (s.pushEvent d).1.o i j = s.o i j := by
  unfold State.pushEvent
  split
  · rfl
  · simp only
    rw [State.sendEvent_o_of _ _ h]
    split
    · rw [State.o_oSet_of h5]
      exact State.o_oSet_of h3
    · exact State.o_oSet_of h3

theorem State.raiseLost_o_of (q : Nat) (h : okey i j ≠ okey 0x1100 5) (h3 : okey i j ≠ okey 0x1120 3) (h5 : okey i j ≠ okey 0x1120 5)
    (hj : j < 256) (hr : i ≠ 0x5800) : (s.raiseLost q).o i j = s.o i j := by
  unfold State.raiseLost
  have g := s.setCause_o 0x5800 3 q (by omega) hj hr
  split
  · next e => rw [e] at g; exact g
  · next s1 e =>
    rw [e] at g
    split
    · have g2 := s1.pushEvent_o_of (causeData 0x5800 3 (s1.o 0x5800 0x13)) h h3 h5
      split
      · next e2 => rw [e2] at g2; rw [State.setCause_o _ _ _ _ (by omega) hj hr]; exact g2.trans g
      · next e2 => rw [e2] at g2; exact g2.trans g
    · exact g

theorem State.event_o_of (d : List Byte) (h : okey i j ≠ okey 0x1100 5) (h3 : okey i j ≠ okey 0x1120 3) (h5 : okey i j ≠ okey 0x1120 5)
    (hj : j < 256) (hr : i ≠ 0x5800) : (s.event d).o i j = s.o i j := by
  unfold State.event
  have g := s.pushEvent_o_of d h h3 h5
  split
  · next e => rw [e] at g; rw [State.raiseLost_o_of _ _ h h3 h5 hj hr]; exact g
  · next e => rw [e] at g; exact g

/-- A raised cause changes the registers of its leaf, of RNG, the counts of events and the count of frames sent (R420, R431). -/
theorem State.raise_o_of (leaf n what : Nat) (hn : n < 24) (hl : i ≠ leaf) (h : okey i j ≠ okey 0x1100 5) (h3 : okey i j ≠ okey 0x1120 3)
    (h5 : okey i j ≠ okey 0x1120 5) (hj : j < 256) (hr : i ≠ 0x5800) : (s.raise leaf n what).o i j = s.o i j := by
  unfold State.raise
  have g := s.setCause_o leaf n what hn hj hl
  split
  · next e =>
    rw [e] at g
    split
    · rw [State.event_o_of _ _ h h3 h5 hj hr]; exact g
    · exact g
  · next e => rw [e] at g; exact g

theorem State.event_addr (d : List Byte) : (s.event d).addr = s.addr := s.event_o_of d (by decide) (by decide) (by decide) (by decide) (by decide)

theorem State.raise_addr (leaf n what : Nat) (hn : n < 24) (hl : 0x1100 ≠ leaf) : (s.raise leaf n what).addr = s.addr :=
  s.raise_o_of leaf n what hn hl (by decide) (by decide) (by decide) (by decide) (by decide)

/-- The parts of the state that neither a cause nor an event can change. -/
theorem State.bypassOpen_of_core {s t : State} (h : t.core = s.core) : t.ring.bypassOpen = s.ring.bypassOpen := (congrArg (fun u => u.ring.bypassOpen) h :)
theorem State.pwr_of_core {s t : State} (h : t.core = s.core) : t.pwr = s.pwr := (congrArg State.pwr h :)
theorem State.challenge_of_core {s t : State} (h : t.core = s.core) : t.challenge = s.challenge := (congrArg State.challenge h :)
theorem State.tile_of_core {s t : State} (h : t.core = s.core) : t.tile = s.tile := (congrArg State.tile h :)

/-- What follows by itself depends on nothing that a cause or an event changes. -/
theorem State.Still.of_core {s t : State} (hs : s.Still) (h : t.core = s.core) : t.Still := by
  have due : t.due = s.due := (congrArg State.due h :)
  have tile := State.tile_of_core h
  have hnd : t.hnd = s.hnd := (congrArg State.hnd h :)
  have strm : t.strm = s.strm := (congrArg State.strm h :)
  have queue : t.ring.queue = s.ring.queue := (congrArg (fun u => u.ring.queue) h :)
  have after : t.ring.after = s.ring.after := (congrArg (fun u => u.ring.after) h :)
  exact ⟨due.trans hs.due, by rw [tile]; exact hs.lcWait, by rw [hnd]; exact hs.goes, by rw [tile]; exact hs.lossWait, by rw [tile]; exact hs.keyWait,
    by rw [strm]; exact hs.idle, queue.trans hs.queue, after.trans hs.after⟩

end

/-! ## Power states -/

section
variable (s : State) (p : Nat)

theorem State.enter_core : (s.enter p).core = s.core := by
  unfold State.enter
  split
  · rfl
  · rw [State.stateEvent_core, State.raise_core, State.oSet_core]

/-- The state entered is the one read (R440). -/
theorem State.enter_o : (s.enter p).o 0x4000 1 = p := by
  unfold State.enter
  split
  · next h => exact h
  · rw [State.stateEvent, State.event_o_of _ _ (by decide) (by decide) (by decide) (by decide) (by decide), State.raise_o_of _ _ _ _ (by decide) (by decide) (by decide) (by decide)
      (by decide) (by decide) (by decide), State.oSet_o_same]

theorem State.enter_o_of {i j : Nat} (h : okey i j ≠ okey 0x1100 5) (h1 : okey i j ≠ okey 0x4000 1) (h3 : okey i j ≠ okey 0x1120 3) (h5 : okey i j ≠ okey 0x1120 5)
    (hj : j < 256) (hr : i ≠ 0x5800) (hl : i ≠ 0x5700) : (s.enter p).o i j = s.o i j := by
  unfold State.enter
  split
  · rfl
  · rw [State.stateEvent, State.event_o_of _ _ h h3 h5 hj hr, State.raise_o_of _ _ _ _ (by decide) hl h h3 h5 hj hr, State.o_oSet_of h1]

theorem State.enter_addr : (s.enter p).addr = s.addr := s.enter_o_of p (by decide) (by decide) (by decide) (by decide) (by decide) (by decide) (by decide)

theorem State.enter_pwr : (s.enter p).pwr = s.pwr := State.pwr_of_core (s.enter_core p)

/-- While VDD_W is on, PSTATE is the register. -/
theorem State.pstate_of_vddW {s : State} (h : s.pwr.vddW = true) : s.pstate = s.o 0x4000 1 := if_pos h

theorem State.pstate_off {s : State} (h : s.pwr.vddW = false) : s.pstate = 0 := by simp only [State.pstate, h, Bool.false_eq_true, if_false]

theorem State.vddW_of_pstate {s : State} (h : s.pstate ≠ 0) : s.pwr.vddW = true := by
  cases hv : s.pwr.vddW with
  | true => rfl
  | false => exact absurd (State.pstate_off hv) h

theorem State.enter_pstate {s : State} (h : s.pwr.vddW = true) : (s.enter p).pstate = p := by
  rw [State.pstate_of_vddW (by rw [State.enter_pwr]; exact h), State.enter_o]

/-- A register of an always-on object is kept when the main domains lose their state (R416, R439). -/
theorem State.loseMain_o {i j : Nat} (hj : j < 256) (h : alwaysOn i = true) : s.loseMain.o i j = s.o i j := by
  have key : okey i j / 256 = i := by unfold okey; omega
  refine (tget_filter_key (objReset (okey i j)) s.obj (fun k => alwaysOn (k / 256) || k == okey 0x4330 0x0A || k == okey 0x4330 0x0B || k == okey 0x2300 8) _).trans (if_pos ?_)
  rw [key, h, Bool.true_or, Bool.true_or, Bool.true_or]

theorem State.toHold_core_pwr : s.toHold.pwr = s.loseMain.pwr := by
  unfold State.toHold
  split
  · rfl
  · rw [State.enter_pwr]
    rfl

/-- HOLD is entered (R440). -/
theorem State.toHold_o : s.toHold.o 0x4000 1 = 1 := by
  unfold State.toHold
  split
  · next h => rw [State.loseMain_o _ (by decide) (by decide), h]
  · exact State.enter_o _ 1

theorem State.toHold_pstate {s : State} (h : s.pwr.vddW = true) : s.toHold.pstate = 1 := by
  rw [State.pstate_of_vddW (by rw [State.toHold_core_pwr]; exact h), State.toHold_o]

theorem State.toHold_addr : s.toHold.addr = s.addr := by
  unfold State.toHold
  split
  · exact s.loseMain_o (by decide) (by decide)
  · rw [State.enter_addr]
    refine (State.o_oSet_of (by decide)).trans ?_
    refine (State.o_oSet_of (by decide)).trans ?_
    refine (State.o_oSet_of (by decide)).trans ?_
    refine (State.o_oSet_of (by decide)).trans ?_
    exact s.loseMain_o (by decide) (by decide)

theorem State.toHold_bypassOpen : s.toHold.ring.bypassOpen = s.ring.bypassOpen := by
  unfold State.toHold
  split
  · rfl
  · exact (State.bypassOpen_of_core (State.enter_core _ 1)).trans rfl

theorem State.toHold_pwrok : s.toHold.pwr.pwrok = s.pwr.pwrok := (congrArg PowerSt.pwrok s.toHold_core_pwr :)
theorem State.toHold_rstN : s.toHold.pwr.rstN = s.pwr.rstN := (congrArg PowerSt.rstN s.toHold_core_pwr :)

theorem State.ringClear_addr : s.ringClear.addr = 0xFE := by
  show ((s.oSet 0x1100 1 0xFE).oSet 0x1220 3 0xFF).o 0x1100 1 = 0xFE
  rw [State.o_oSet_of (by decide), State.oSet_o_same]

theorem State.newChallenge_addr : s.newChallenge.addr = s.addr := rfl

/-- A reset of the ring interface closes the bypass and leaves the tile without an address (R411). -/
theorem State.ringReset_addr : s.ringReset.addr = 0xFE := by
  rw [State.ringReset, State.raise_addr _ _ _ _ (by decide) (by decide)]
  exact (State.o_oSet_of (by decide)).trans (State.ringClear_addr _)

theorem State.ringReset_core : s.ringReset.core = s.closeBypass.ringClear.core := State.raise_core _ _ _ _

theorem State.ringReset_bypassOpen : s.ringReset.ring.bypassOpen = false := State.bypassOpen_of_core s.ringReset_core

theorem State.ringReset_pwr : s.ringReset.pwr = s.pwr := (State.pwr_of_core s.ringReset_core).trans rfl

end

/-! ## The pins -/

/-- The pins and the supply after a fall of PWROK. -/
theorem State.pwrokFall_hold {s : State} (h : s.pwr.vddW = true) :
    s.pwrokFall.pwr.pwrok = false ∧ s.pwrokFall.pstate = 1 ∧ s.pwrokFall.addr = 0xFE ∧ s.pwrokFall.ring.bypassOpen = false := by
  obtain ⟨u, hu, pwr⟩ : ∃ u : State, s.pwrokFall = u.ringReset.newChallenge.toHold ∧ u.pwr = { s.pwr with pwrok := false, pwrokFell := true } := by
    unfold State.pwrokFall
    rw [if_neg (by rw [h]; decide)]
    split
    · exact ⟨_, rfl, rfl⟩
    · exact ⟨_, rfl, rfl⟩
  have held : u.ringReset.newChallenge.pwr = { s.pwr with pwrok := false, pwrokFell := true } := u.ringReset_pwr.trans pwr
  rw [hu]
  refine ⟨?_, State.toHold_pstate (by rw [held]; exact h), ?_, ?_⟩
  · rw [State.toHold_pwrok, held]
  · rw [State.toHold_addr, State.newChallenge_addr, State.ringReset_addr]
  · rw [State.toHold_bypassOpen]
    exact u.ringReset_bypassOpen

/-- The pins and the supply after RST_N is asserted. -/
theorem State.rstAssert_hold {s : State} (h : s.pwr.vddW = true) :
    s.rstAssert.pwr.rstN = false ∧ s.rstAssert.pstate = 1 ∧ s.rstAssert.addr = 0xFE ∧ s.rstAssert.ring.bypassOpen = false := by
  obtain ⟨u, hu, pwr⟩ : ∃ u : State, s.rstAssert = u.closeBypass.ringClear.newChallenge.toHold ∧ u.pwr = { s.pwr with rstN := false } := by
    unfold State.rstAssert
    rw [if_neg (by rw [h]; decide)]
    split
    · exact ⟨_, rfl, rfl⟩
    · exact ⟨_, rfl, rfl⟩
  have held : u.closeBypass.ringClear.newChallenge.pwr = { s.pwr with rstN := false } := pwr
  rw [hu]
  refine ⟨?_, State.toHold_pstate (by rw [held]; exact h), ?_, ?_⟩
  · rw [State.toHold_rstN, held]
  · rw [State.toHold_addr, State.newChallenge_addr, State.ringClear_addr]
  · rw [State.toHold_bypassOpen]
    rfl

/-- The state in which the supply has come up, with a fresh CHALLENGE, before anything is told (R465). -/
def State.powered (s : State) : State :=
  { State.reset with pending := s.pending, free := s.free, clkF := s.clkF, order := s.order, out := s.out,
                     pwr := { pwrok := s.pwr.pwrok, rstN := s.pwr.rstN, tap := s.pwr.tap, tapData := s.pwr.tapData, tapBoundary := s.pwr.tapBoundary } }.newChallenge

theorem State.vddOn_eq {s : State} (h : s.pwr.vddW = false) : s.vddOn = (s.powered.raise 0x5700 0 1).stateEvent := by
  unfold State.vddOn
  rw [if_neg (by rw [h]; exact Bool.false_ne_true)]
  rfl

theorem State.vddOn_core {s : State} (h : s.pwr.vddW = false) : s.vddOn.core = s.powered.core := by
  rw [State.vddOn_eq h, State.stateEvent_core, State.raise_core]

/-- Applying VDD_W gives HOLD, unaddressed, behind a closed bypass, with a fresh CHALLENGE (R402, R439, R465). -/
theorem State.vddOn_hold {s : State} (h : s.pwr.vddW = false) :
    s.vddOn.pwr.vddW = true ∧ s.vddOn.pstate = 1 ∧ s.vddOn.addr = 0xFE ∧ s.vddOn.ring.bypassOpen = false ∧ s.vddOn.challenge = Config.freeValue s.free ∧
    s.vddOn.pwr.pwrok = s.pwr.pwrok ∧ s.vddOn.pwr.rstN = s.pwr.rstN := by
  have pwr := State.pwr_of_core (State.vddOn_core h)
  have reg : ∀ {i j : Nat}, okey i j ≠ okey 0x1100 5 → okey i j ≠ okey 0x1120 3 → okey i j ≠ okey 0x1120 5 → j < 256 → i ≠ 0x5800 → i ≠ 0x5700 →
      s.vddOn.o i j = objReset (okey i j) := fun h1 h3 h5 hj hr hl => by
    rw [State.vddOn_eq h, State.stateEvent, State.event_o_of _ _ h1 h3 h5 hj hr, State.raise_o_of _ _ _ _ (by decide) hl h1 h3 h5 hj hr]
    rfl
  refine ⟨by rw [pwr]; rfl, ?_, ?_, State.bypassOpen_of_core (State.vddOn_core h), State.challenge_of_core (State.vddOn_core h), by rw [pwr]; rfl, by rw [pwr]; rfl⟩
  · rw [State.pstate_of_vddW (by rw [pwr]; rfl), reg (by decide) (by decide) (by decide) (by decide) (by decide) (by decide)]
    decide
  · rw [State.addr, reg (by decide) (by decide) (by decide) (by decide) (by decide) (by decide)]
    decide

/-- Without AUTO a pin starts nothing. -/
theorem State.autoStart_of_off {s : State} {env : StartEnv} (h : bit (s.o 0xF000 2) 0 = false) : s.autoStart env = s := by
  simp only [State.autoStart, h, Bool.false_eq_true, false_and, if_false]

/-- With AUTO a tile in HOLD without a start begins one of the kind of AUTO_KIND (R465, R471). -/
theorem State.autoStart_of_on {s : State} {env : StartEnv} (h : bit (s.o 0xF000 2) 0 = true) (hp : s.pstate = 1) (hs : s.pwr.start = none) :
    s.autoStart env = s.startBegin (bit (s.o 0xF000 2) 1) env false := by
  rw [State.autoStart, if_pos ⟨h, hp, hs⟩]

/-- Settles O8: the state after each pin and supply command. -/
theorem supplyAndResetPins : Obligations.SupplyAndResetPins := by
  unfold Obligations.SupplyAndResetPins
  refine ⟨fun s => ⟨⟨s.vddOff, rfl, rfl, rfl, rfl, rfl, rfl⟩, fun h => ⟨s.vddOn, rfl, State.vddOn_hold h⟩, fun h => ⟨s.pwrokFall, rfl, State.pwrokFall_hold h⟩,
    fun h => ⟨s.rstAssert, rfl, State.rstAssert_hold h⟩⟩, fun s env => ?_⟩
  intro up go
  have next : ∀ {u v : State}, u = v → (Host.Outcome.next u.settle : Out) = .next v.settle := fun h => by rw [h]
  refine ⟨fun still auto => ?_, fun hv auto hp hs => ⟨fun hr => next ?_, fun hr => next ?_⟩⟩
  · have quiet := s.still_iff.mp still
    have rise : s.pwrokRise env = up :=
      (congrArg (fun u => if (s.pwr.vddW && s.pwr.rstN) = true then u else up) (State.autoStart_of_off (s := up) auto)).trans (ite_self _)
    have deassert : s.rstDeassert env = go :=
      (congrArg (fun u => if (s.pwr.vddW && s.pwr.pwrok) = true then u else go) (State.autoStart_of_off (s := go) auto)).trans (ite_self _)
    exact ⟨congrArg Host.Outcome.next ((congrArg State.settle rise).trans (quiet.modPwr _).settle),
      congrArg Host.Outcome.next ((congrArg State.settle deassert).trans (quiet.modPwr _).settle)⟩
  · exact (if_pos (show (s.pwr.vddW && s.pwr.rstN) = true by rw [hv, hr]; rfl)).trans (State.autoStart_of_on (s := up) auto hp hs)
  · exact (if_pos (show (s.pwr.vddW && s.pwr.pwrok) = true by rw [hv, hr]; rfl)).trans (State.autoStart_of_on (s := go) auto hp hs)

end Sys2Proof.Machine
end

section
/-! Clocks and power of the Bobbins (R447, R448). -/

namespace Sys2Proof.Machine

/-! ## Entries of a table -/

section
variable {α : Type} (d : α) (t : Tbl α) (k : Nat)

/-- What is read at a key is the default or stands in the table. -/
theorem tget_mem : tget d t k = d ∨ (k, tget d t k) ∈ t := by
  induction t with
  | nil => exact .inl rfl
  | cons e r ih =>
    obtain ⟨k', v⟩ := e
    unfold tget
    split
    · next h =>
      subst h
      exact .inr List.mem_cons_self
    · exact ih.imp_right (List.mem_cons_of_mem _)

/-- A filter that passes a key's entries leaves what is read there. -/
theorem tget_filter_of {p : Nat × α → Bool} (h : ∀ v, p (k, v) = true) : tget d (t.filter p) k = tget d t k := by
  induction t with
  | nil => rfl
  | cons e r ih =>
    obtain ⟨k', v⟩ := e
    rw [List.filter_cons]
    by_cases hk : k' = k
    · subst hk
      simp only [h, if_true, tget]
    · split
      · simpa only [tget, if_neg hk] using ih
      · simpa only [tget, if_neg hk] using ih

/-- With rising keys, an entry of the table is what is read at its key. -/
theorem tget_of_mem {t : Tbl α} {k : Nat} (hs : tsorted t = true) {v : α} (hm : (k, v) ∈ t) : tget d t k = v := by
  induction t with
  | nil => cases hm
  | cons e r ih =>
    obtain ⟨k', v'⟩ := e
    have rising := (tsorted_iff _).mp hs
    rw [List.pairwise_cons] at rising
    obtain ⟨above, rest⟩ := rising
    rcases List.mem_cons.mp hm with heq | hr
    · cases heq
      simp only [tget, if_true]
    · have hne : ¬k' = k := fun h => Nat.lt_irrefl _ (h ▸ above _ hr)
      simp only [tget, if_neg hne]
      exact ih ((tsorted_iff r).mpr rest) hr

end

/-- What each step of a walk keeps holds at its end. -/
theorem foldl_holds {σ α : Type} {P : σ → Prop} {f : σ → α → σ} {s : σ} {l : List α} (hs : P s) (h : ∀ t x, P t → P (f t x)) : P (l.foldl f s) := by
  induction l generalizing s with
  | nil => exact hs
  | cons x l ih => exact ih (h s x hs)

/-! ## Gating -/

/-- Losing a locked line tells the outside and counts (R322). -/
theorem State.lockDrop_core (s : State) (b : Nat) : (s.lockDrop b).core = s.core := by
  unfold State.lockDrop
  simp only
  split
  · exact State.oSet_core _ _ _ _
  · rw [State.raise_core]
    exact State.oSet_core _ _ _ _

theorem State.lockDrop_gated (s : State) (b : Nat) : (s.lockDrop b).o 0x4000 0x0A = s.o 0x4000 0x0A := by
  unfold State.lockDrop
  simp only
  have inc := s.oInc_o_ne (i := 0x4000) (j := 0x0A) (k := 0x4340 + b) (l := 8) (by omega) (by decide) (by decide)
  split
  · exact inc
  · rw [State.raise_o _ _ _ _ (by decide) (by decide) (by decide) (by decide) (by decide) (by decide)]
    exact inc

/-- The locked lines of a Bobbin that gating loses. -/
def State.lostLocks (s : State) (b : Nat) : Nat :=
  ((s.nc.filter (fun e => e.1 / 1024 == b)).flatMap (fun e => e.2.ways.filter (fun w => w.locked && (w.valid != 0 || w.filling) && !w.noKeep))).length

/-- The state in which their loss has been told. -/
def State.locksDropped (s : State) (b : Nat) : State := (List.range (s.lostLocks b)).foldl (fun (s : State) _ => s.lockDrop b) s

theorem State.locksDropped_core (s : State) (b : Nat) : (s.locksDropped b).core = s.core :=
  foldl_holds (P := fun t : State => t.core = s.core) rfl fun t _ ht => (t.lockDrop_core b).trans ht

theorem State.locksDropped_gated (s : State) (b : Nat) : (s.locksDropped b).o 0x4000 0x0A = s.o 0x4000 0x0A :=
  foldl_holds (P := fun t : State => t.o 0x4000 0x0A = s.o 0x4000 0x0A) rfl fun t _ ht => (t.lockDrop_gated b).trans ht

theorem State.gateBob_eq (s : State) (b : Nat) : s.gateBob b =
    ({ s.locksDropped b with
      nc := ((s.locksDropped b).nc.map (fun (e : Nat × NcSet) => if e.1 / 1024 = b then (e.1, e.2.gated) else e)).filter (fun e => e.2 != ({} : NcSet)),
      rs := (s.locksDropped b).rs.filter (fun e => e.1 / 8192 != b || e.2.retired),
      eng := (s.locksDropped b).eng.filter (fun e => e.1 / 4 != b) }.modBob b (fun v => v.gated)).oInc 0x4000 0x0A := rfl

section
variable (s : State) (b : Nat)

theorem State.gateBob_rs : (s.gateBob b).rs = s.rs.filter (fun e => e.1 / 8192 != b || e.2.retired) := by
  have rs : (s.locksDropped b).rs = s.rs := (congrArg State.rs (s.locksDropped_core b) :)
  rw [State.gateBob_eq, ← rs]
  rfl

theorem State.gateBob_eng : (s.gateBob b).eng = s.eng.filter (fun e => e.1 / 4 != b) := by
  have eng : (s.locksDropped b).eng = s.eng := (congrArg State.eng (s.locksDropped_core b) :)
  rw [State.gateBob_eq, ← eng]
  rfl

theorem State.gateBob_nc : (s.gateBob b).nc =
    ((s.locksDropped b).nc.map (fun (e : Nat × NcSet) => if e.1 / 1024 = b then (e.1, e.2.gated) else e)).filter (fun e => e.2 != ({} : NcSet)) := rfl

/-- A gated Bobbin's clock (R448). -/
theorem State.gateBob_clock : ((s.gateBob b).bobOf b).clock = 2 := by
  have put : (s.gateBob b).bobOf b = ((s.locksDropped b).bobOf b).gated := tget_tset_same _ _ _ _
  rw [put]
  rfl

theorem State.gateBob_count : (s.gateBob b).o 0x4000 0x0A = (s.o 0x4000 0x0A + 1) % 2 ^ 64 := by
  rw [← s.locksDropped_gated b]
  exact State.o_oInc_same _ _ _

/-- What is left of a gated Bobbin's node cache: locked ways without a line (R311, R322). -/
theorem State.gateBob_way {set : Nat} (hset : set < 1024) {w : NcWay} (hw : w ∈ (tget {} (s.gateBob b).nc (b * 1024 + set)).ways) :
    w = { way := w.way, locked := true } := by
  have key : (b * 1024 + set) / 1024 = b := by omega
  rcases tget_mem {} (s.gateBob b).nc (b * 1024 + set) with h | h
  · rw [h] at hw
    cases hw
  · rw [State.gateBob_nc] at h
    obtain ⟨e, he, hk⟩ := List.mem_map.mp (List.mem_filter.mp h).1
    have mine : e.1 / 1024 = b := by
      refine Classical.byContradiction fun hn => ?_
      rw [if_neg hn] at hk
      rw [hk] at hn
      exact hn key
    rw [if_pos mine] at hk
    have ways := congrArg (fun p : Nat × NcSet => p.2.ways) hk
    rw [← State.gateBob_nc] at ways
    rw [← ways] at hw
    obtain ⟨x, -, rfl⟩ := List.mem_map.mp hw
    rfl

/-- A gated Bobbin has lost every entry that is not retired. -/
theorem State.gateBob_ent_own (hs : tsorted s.rs = true) {e : Nat} (he : e < 8192) (hr : (s.ent b e).retired = false) : (s.gateBob b).ent b e = {} := by
  have key : (b * 8192 + e) / 8192 = b := by omega
  rcases tget_mem {} (s.gateBob b).rs (b * 8192 + e) with h | h
  · exact h
  · rw [State.gateBob_rs] at h
    obtain ⟨mem, keep⟩ := List.mem_filter.mp h
    rw [← State.gateBob_rs] at mem keep
    have same : s.ent b e = tget {} (s.gateBob b).rs (b * 8192 + e) := tget_of_mem ({} : Entry) hs mem
    rw [key, bne_self_eq_false, Bool.false_or, ← same, hr] at keep
    cases keep

theorem State.gateBob_ent_other {c e : Nat} (hc : c ≠ b) (he : e < 8192) : (s.gateBob b).ent c e = s.ent c e := by
  have key : (c * 8192 + e) / 8192 = c := by omega
  rw [State.ent, State.gateBob_rs]
  exact tget_filter_of _ _ _ fun v => by simp only [key, bne_iff_ne.mpr hc, Bool.true_or]

theorem State.gateBob_eng_own {g : Nat} (hg : g < 4) : (s.gateBob b).engOf b g = {} := by
  have key : (b * 4 + g) / 4 = b := by omega
  rw [State.engOf, State.gateBob_eng]
  refine (tget_filter_key {} s.eng (fun k => k / 4 != b) _).trans (if_neg ?_)
  rw [key, bne_self_eq_false]
  exact Bool.false_ne_true

theorem State.gateBob_eng_other {c g : Nat} (hc : c ≠ b) (hg : g < 4) : (s.gateBob b).engOf c g = s.engOf c g := by
  have key : (c * 4 + g) / 4 = c := by omega
  rw [State.engOf, State.gateBob_eng]
  exact tget_filter_of _ _ _ fun v => by rw [key]; exact bne_iff_ne.mpr hc

end

/-! ## Commands -/

theorem State.Still.modBob {s : State} (h : s.Still) (b : Nat) (f : BobSt → BobSt) : (s.modBob b f).Still :=
  ⟨h.due, h.lcWait, h.goes, h.lossWait, h.keyWait, h.idle, h.queue, h.after⟩

/-- The 1 ms decision below LOW_LOAD: the highest awake Bobbin is drained (R448). -/
theorem State.consolidate_low {s : State} {b : Nat} (hl : s.live = true) (hg : bit (s.o 0x2110 1) 0 = true)
    (hu : s.awakeList.foldl (fun a b => a + s.occupied b) 0 * 256 < s.o 0x2110 5 * 8192 * (s.awakeList.length - 1)) (hb : s.awakeList.getLast? = some b)
    (hm : s.mayGate b = true) (hd : (List.range 48).any (fun i => (s.bobOf i).drain) = false) : s.consolidate = s.modBob b (fun v => { v with drain := true }) := by
  have go : (s.mayGate b && !(List.range 48).any (fun i => (s.bobOf i).drain)) = true := by rw [hm, hd]; rfl
  simp only [State.consolidate, hl, hg, Bool.not_true, Bool.false_eq_true, if_false, if_pos hu, hb, go, if_true]

/-- Above HIGH_LOAD the lowest gated one is woken (R448). -/
theorem State.consolidate_high {s : State} {b : Nat} (hl : s.live = true) (hg : bit (s.o 0x2110 1) 0 = true)
    (hu : ¬s.awakeList.foldl (fun a b => a + s.occupied b) 0 * 256 < s.o 0x2110 5 * 8192 * (s.awakeList.length - 1))
    (hh : s.o 0x2110 6 * 8192 * s.awakeList.length < s.awakeList.foldl (fun a b => a + s.occupied b) 0 * 256)
    (hb : firstIdx 48 (fun b => s.inService b && (s.bobOf b).clock == 2) = some b) : s.consolidate = s.modBob b (fun v => { v with clock := 3 }) := by
  have found := List.find?_some hb
  simp only [Bool.and_eq_true, beq_iff_eq] at found
  simp only [State.consolidate, hl, hg, Bool.not_true, Bool.false_eq_true, if_false, if_neg hu, if_pos hh, hb, State.wakeBob, found.2]

/-- Settles O11: each command under its condition, and what gating leaves. -/
theorem bobbinClocks : Obligations.BobbinClocks := by
  unfold Obligations.BobbinClocks
  refine ⟨fun s b n => ⟨fun hl hb hn ha ho => ?_, fun hl hb ha hn hi => ?_, fun hl hb hc hs hm => ?_, fun hl hb hd hi hs hm => ?_,
    fun still hl hb => ⟨fun hc => ?_, fun hc => ?_⟩, fun hl hg => ⟨fun hu hb hm hd => ?_, fun hu hh hb => ?_⟩⟩, fun s b => ?_⟩
  · exact congrArg Host.Outcome.next (if_pos ⟨hb, hn, hl, ha, ho⟩)
  · exact congrArg Host.Outcome.next (if_pos ⟨hb, hl, ha, hn, hi⟩)
  · exact congrArg Host.Outcome.next (if_pos ⟨hb, hl, hc, hs, hm⟩)
  · exact congrArg Host.Outcome.next ((if_pos ⟨hb, hl, hd, hi, hs⟩).trans (if_pos hm))
  · exact congrArg Host.Outcome.next ((congrArg State.settle (if_pos ⟨hb, hl, hc⟩)).trans ((s.still_iff.mp still).modBob _ _).settle)
  · exact congrArg Host.Outcome.next ((congrArg State.settle (if_pos ⟨hb, hl, hc⟩)).trans ((s.still_iff.mp still).modBob _ _).settle)
  · exact congrArg Host.Outcome.next (State.consolidate_low hl hg hu hb hm hd)
  · exact congrArg Host.Outcome.next (State.consolidate_high hl hg hu hh hb)
  · exact ⟨fun set hset w hw => s.gateBob_way b hset hw, fun hs e he hr => s.gateBob_ent_own b hs he hr, fun g hg => s.gateBob_eng_own b hg,
      fun c e hc he => s.gateBob_ent_other b hc he, fun c g hc hg => s.gateBob_eng_other b hc hg, s.gateBob_clock b, s.gateBob_count b⟩

end Sys2Proof.Machine
end

section
/-! Writes of whole objects, host writes in SLEEP, causes, and changes of the power state (R7, R343, R413, R431, R432, R440 to R444). -/

namespace Sys2Proof.Machine

/-! ## A write of one object at operator level -/

/-- A legal write of a whole object in a domain that answers has the object's effect with its writable bits (R7, R413). -/
theorem State.operWrite_of {s : State} {idx sub n : Nat} (v : Nat) {row : ObjRow} (hrow : objRow? idx sub = some row) (hty : row.ty = .u n) (hlvl : row.lvl ≤ 1)
    (htop : ¬(sub = 0 ∧ 0 < objTop idx)) (hp : s.pstate ≠ 0) (hd : alwaysOn idx = true ∨ 3 ≤ s.pstate) :
    s.operWrite idx sub n v = (s.objWrite .oper row idx sub (v % 256 ^ n &&& row.wmask)).2.afterReq := by
  have on : ¬(s.pstate = 0 ∨ (!alwaysOn idx) = true ∧ s.pstate < 3) := by
    rintro (h | ⟨ha, h⟩)
    · exact hp h
    · rcases hd with hd | hd
      · rw [hd] at ha
        exact Bool.false_ne_true ha
      · omega
  have size : row.ty.size = n := by rw [hty]; rfl
  have free : s.access .oper idx sub = (0, s) := by
    have hl : ¬s.level .oper < row.lvl := Nat.not_lt.mpr hlvl
    simp only [State.access, if_neg htop, hrow, if_neg hl, Bool.false_and, Bool.false_eq_true, if_false]
  rw [State.operWrite, if_neg on]
  simp only [State.writeReq, free, hrow, hty, ne_eq, not_true_eq_false, if_false, OTy.size, or_self]

/-- Settles O23: the write path of a row of unsigned type. -/
theorem objectWriteEffect : Obligations.ObjectWriteEffect := by
  unfold Obligations.ObjectWriteEffect
  intro s index sub v row n hrow hty hlvl htop hp hd
  exact congrArg (fun u => Host.Outcome.next (State.settle u)) (State.operWrite_of v hrow hty hlvl htop hp hd)

/-- What the table says of an object that an operator writes. -/
def objInfo (idx sub : Nat) : Option (OTy × Acc × Nat × Nat) := (objRow? idx sub).map (fun r => (r.ty, r.acc, r.lvl, r.wmask))

theorem objRow_of_info {idx sub : Nat} {ty : OTy} {acc : Acc} {lvl mask : Nat} (h : objInfo idx sub = some (ty, acc, lvl, mask)) :
    ∃ row, objRow? idx sub = some row ∧ row.ty = ty ∧ row.acc = acc ∧ row.lvl = lvl ∧ row.wmask = mask := by
  unfold objInfo at h
  obtain ⟨row, hrow, heq⟩ := Option.map_eq_some_iff.mp h
  cases heq
  exact ⟨row, hrow, rfl, rfl, rfl, rfl⟩

theorem byte_mask (v : Nat) : v % 256 ^ 1 &&& 255 = v % 256 := by
  rw [Nat.pow_one, show 255 = 2 ^ 8 - 1 from rfl, Nat.and_two_pow_sub_one_eq_mod, Nat.mod_mod]

/-- A write of a command object outside the context table (R7). -/
theorem State.operWrite_cmd {s : State} {idx sub : Nat} (v : Nat) (h : objInfo idx sub = some (.u 1, .cmd, 1, 255)) (hctx : ¬(0x3000 ≤ idx ∧ idx < 0x4000))
    (htop : ¬(sub = 0 ∧ 0 < objTop idx)) (hp : s.pstate ≠ 0) (hd : alwaysOn idx = true ∨ 3 ≤ s.pstate) :
    s.operWrite idx sub 1 v = (s.cmdWrite idx sub (v % 256)).2.afterReq := by
  obtain ⟨row, hrow, hty, hacc, hlvl, hmask⟩ := objRow_of_info h
  have ro : ¬row.acc = .ro := by rw [hacc]; decide
  rw [State.operWrite_of v hrow hty (by omega) htop hp hd, hmask, byte_mask]
  unfold State.objWrite
  rw [if_neg ro, if_neg hctx, if_pos hacc]

/-! ## Host writes in SLEEP -/

theorem State.pstate_congr {s t : State} (hp : t.pwr.vddW = s.pwr.vddW) (ho : t.o 0x4000 1 = s.o 0x4000 1) : t.pstate = s.pstate := by
  rw [State.pstate, State.pstate, hp, ho]

/-- In SLEEP a wake event starts the wake (R441). -/
theorem State.wakeEvent_of_sleep {s : State} (h : s.pstate = 2) : s.wakeEvent = s.modPwr (fun p => { p with waking := true }) := by
  have out : ¬(s.pstate = 4 ∧ s.pwr.drainFor = 1) := by omega
  rw [State.wakeEvent, if_neg out, if_pos h]

/-- Settles O17: a host write in SLEEP is held with its credits; the end of the wake applies it and gives them back. -/
theorem sleepHoldsHostWrites : Obligations.SleepHoldsHostWrites := by
  unfold Obligations.SleepHoldsHostWrites
  intro s hp i hi hhp hl hs
  have up : (!(decide (hp < 8) && (s.lstate (16 + hp) == 1 || s.lstate (16 + hp) == 2))) = false := by
    simp only [Bool.not_eq_false', Bool.and_eq_true, decide_eq_true_eq, Bool.or_eq_true, beq_iff_eq]
    exact ⟨hhp, hl⟩
  refine ⟨fun hh hdat => ?_, fun hw hheld => ?_⟩
  · simp only [State.hwrIn, hi, State.hwr, up, Bool.false_eq_true, if_false, if_pos hs]
    rw [if_pos ⟨hh, hdat⟩]
    exact State.wakeEvent_of_sleep hs
  · rw [State.wakeGo, if_pos ⟨hs, hw⟩]
    simp only [hheld, List.foldl_cons, List.foldl_nil, hi]

/-! ## Bits of a cause register -/

theorem bit_eq_testBit (x n : Nat) : bit x n = x.testBit n := by
  rw [bit, Nat.testBit_eq_decide_div_mod_eq]
  rfl

/-- Setting a clear bit sets that bit alone. -/
theorem bit_add_pow {x n : Nat} (h : bit x n = false) (m : Nat) : bit (x + 2 ^ n) m = (bit x m || m == n) := by
  have pos : 0 < 2 ^ n := Nat.pow_pos (by decide)
  have even : x / 2 ^ n % 2 = 0 := by
    have := h
    rw [bit, beq_eq_false_iff_ne] at this
    omega
  rcases Nat.lt_trichotomy m n with hm | rfl | hm
  · rw [beq_false_of_ne (by omega), Bool.or_false, bit_eq_testBit, bit_eq_testBit, Nat.add_comm, Nat.testBit_two_pow_add_gt hm]
  · rw [beq_self_eq_true, Bool.or_true, bit, Nat.add_div_right _ pos, beq_iff_eq]
    omega
  · obtain ⟨d, rfl⟩ := Nat.exists_eq_add_of_lt hm
    have high : (x + 2 ^ n) / 2 ^ (n + d + 1) = x / 2 ^ (n + d + 1) := by
      rw [Nat.add_assoc, Nat.pow_add, ← Nat.div_div_eq_div_mul, ← Nat.div_div_eq_div_mul, Nat.add_div_right _ pos, Nat.pow_succ', ← Nat.div_div_eq_div_mul,
        ← Nat.div_div_eq_div_mul]
      congr 1
      omega
    rw [beq_false_of_ne (by omega), Bool.or_false, bit, bit, high]

theorem pow_le_of_bit {x n : Nat} (h : bit x n = true) : 2 ^ n ≤ x := by
  rw [bit_eq_testBit] at h
  exact Nat.ge_two_pow_of_testBit h

/-- Clearing a set bit clears that bit alone. -/
theorem bit_sub_pow {x n : Nat} (h : bit x n = true) (m : Nat) : bit (x - 2 ^ n) m = (bit x m && m != n) := by
  have back : x - 2 ^ n + 2 ^ n = x := Nat.sub_add_cancel (pow_le_of_bit h)
  have clear : bit (x - 2 ^ n) n = false := by
    have flip := Nat.testBit_two_pow_add_eq (x - 2 ^ n) n
    rw [Nat.add_comm, back, ← bit_eq_testBit, ← bit_eq_testBit, h] at flip
    exact Bool.not_eq_true' _ ▸ flip.symm
  by_cases hm : m = n
  · subst hm
    rw [clear, bne_self_eq_false, Bool.and_false]
  · have same := bit_add_pow clear m
    rw [back, beq_false_of_ne hm, Bool.or_false] at same
    rw [same, bne_iff_ne.mpr hm, Bool.and_true]

/-! ## Causes -/

section
variable (s : State) (leaf n what : Nat)

theorem State.setCause_of_set (h : bit (s.o leaf 1) n = true) :
    s.setCause leaf n what = (s.oSet leaf (0x10 + n) (s.o leaf (0x10 + n) % 2 ^ 24 + min 255 (s.o leaf (0x10 + n) / 2 ^ 24 + 1) * 2 ^ 24), false) := by
  simp only [State.setCause, h, if_true]

theorem State.setCause_of_clear (h : bit (s.o leaf 1) n = false) :
    s.setCause leaf n what = ((s.oSet leaf 1 (s.o leaf 1 + 2 ^ n)).oSet leaf (0x10 + n) (what % 2 ^ 24 + 2 ^ 24), true) := by
  simp only [State.setCause, h, Bool.false_eq_true, if_false]

/-- Registers other than those of events and of RNG read after a raised cause as after its bit and record are set. -/
theorem State.raise_o_setCause {i j : Nat} (hj : j < 256) (h : i ≠ 0x1100) (h1 : i ≠ 0x1120) (h2 : i ≠ 0x5800) :
    (s.raise leaf n what).o i j = (s.setCause leaf n what).1.o i j := by
  unfold State.raise
  split
  · next e =>
    rw [e]
    split
    · exact State.event_o _ _ hj h h1 h2
    · rfl
  · next e => rw [e]

theorem State.okey_cause_ne {leaf n : Nat} : okey leaf 1 ≠ okey leaf (0x10 + n) := by
  unfold okey
  omega

theorem State.setCause_cause : (s.setCause leaf n what).1.o leaf 1 = if bit (s.o leaf 1) n = true then s.o leaf 1 else s.o leaf 1 + 2 ^ n := by
  cases h : bit (s.o leaf 1) n with
  | true => rw [State.setCause_of_set _ _ _ _ h, if_pos rfl, State.o_oSet_of State.okey_cause_ne]
  | false => rw [State.setCause_of_clear _ _ _ _ h, if_neg Bool.false_ne_true, State.o_oSet_of State.okey_cause_ne, State.oSet_o_same]

theorem State.setCause_record : (s.setCause leaf n what).1.o leaf (0x10 + n) =
    if bit (s.o leaf 1) n = true then s.o leaf (0x10 + n) % 2 ^ 24 + min 255 (s.o leaf (0x10 + n) / 2 ^ 24 + 1) * 2 ^ 24 else what % 2 ^ 24 + 2 ^ 24 := by
  cases h : bit (s.o leaf 1) n with
  | true => rw [State.setCause_of_set _ _ _ _ h, if_pos rfl, State.oSet_o_same]
  | false => rw [State.setCause_of_clear _ _ _ _ h, if_neg Bool.false_ne_true, State.oSet_o_same]

/-- A raised cause reads 1 (R431). -/
theorem State.raise_bit (h : leaf ≠ 0x1100) (h1 : leaf ≠ 0x1120) (h2 : leaf ≠ 0x5800) : bit ((s.raise leaf n what).o leaf 1) n = true := by
  rw [State.raise_o_setCause _ _ _ _ (by decide) h h1 h2, State.setCause_cause]
  split
  · next hb => exact hb
  · next hb =>
    rw [bit_add_pow (Bool.eq_false_iff.mpr hb), beq_self_eq_true, Bool.or_true]

end

/-- Clearing one cause bit with its record. -/
def State.clearCause (s : State) (leaf n : Nat) : State := (s.oSet leaf 1 (s.o leaf 1 - 2 ^ n)).oSet leaf (0x10 + n) 0

theorem State.clearCause_cause (s : State) (leaf n : Nat) : (s.clearCause leaf n).o leaf 1 = s.o leaf 1 - 2 ^ n := by
  rw [State.clearCause, State.o_oSet_of State.okey_cause_ne, State.oSet_o_same]

theorem State.clearCause_record (s : State) (leaf n : Nat) : (s.clearCause leaf n).o leaf (0x10 + n) = 0 := by
  rw [State.clearCause, State.oSet_o_same]

theorem State.clearCause_record_ne (s : State) (leaf : Nat) {n m : Nat} (h : m ≠ n) : (s.clearCause leaf n).o leaf (0x10 + m) = s.o leaf (0x10 + m) := by
  have hn : okey leaf (0x10 + m) ≠ okey leaf (0x10 + n) := by unfold okey; omega
  rw [State.clearCause, State.o_oSet_of hn, State.o_oSet_of State.okey_cause_ne.symm]

/-- The walk of a clear over the first k causes: which bits are left, and the records cleared. -/
theorem State.clearWalk (s : State) (leaf mask k : Nat) :
    let u := (List.range k).foldl (fun (s : State) n => if bit mask n && bit (s.o leaf 1) n then s.clearCause leaf n else s) s
    (∀ n, bit (u.o leaf 1) n = (bit (s.o leaf 1) n && !(decide (n < k) && bit mask n))) ∧
    (∀ n, n < k → bit (s.o leaf 1) n = true → bit mask n = true → u.o leaf (0x10 + n) = 0) := by
  induction k with
  | zero => exact ⟨fun n => by simp only [List.range_zero, List.foldl_nil, Nat.not_lt_zero, decide_false, Bool.false_and, Bool.not_false, Bool.and_true],
      fun n h => absurd h (Nat.not_lt_zero n)⟩
  | succ k ih =>
    rw [List.range_succ, List.foldl_append, List.foldl_cons, List.foldl_nil]
    obtain ⟨bits, recs⟩ := ih
    generalize (List.range k).foldl (fun (s : State) n => if bit mask n && bit (s.o leaf 1) n then s.clearCause leaf n else s) s = u at bits recs ⊢
    have atk : bit (u.o leaf 1) k = bit (s.o leaf 1) k := by
      rw [bits, decide_eq_false (Nat.lt_irrefl k), Bool.false_and, Bool.not_false, Bool.and_true]
    have below : ∀ {n}, n ≠ k → decide (n < k + 1) = decide (n < k) := fun hn => decide_eq_decide.mpr (by omega)
    cases hk : bit mask k && bit (u.o leaf 1) k with
    | true =>
      rw [Bool.and_eq_true] at hk
      obtain ⟨hm, hb⟩ := hk
      simp only [if_true]
      refine ⟨fun n => ?_, fun n hn hs hmn => ?_⟩
      · rw [State.clearCause_cause, bit_sub_pow hb]
        by_cases hn : n = k
        · subst hn
          rw [bne_self_eq_false, Bool.and_false, hm, decide_eq_true (Nat.lt_succ_self n), Bool.and_self, Bool.not_true, Bool.and_false]
        · rw [bne_iff_ne.mpr hn, Bool.and_true, bits, below hn]
      · by_cases hnk : n = k
        · rw [hnk, State.clearCause_record]
        · rw [State.clearCause_record_ne _ _ hnk]
          exact recs n (by omega) hs hmn
    | false =>
      simp only [Bool.false_eq_true, if_false]
      refine ⟨fun n => ?_, fun n hn hs hmn => ?_⟩
      · by_cases hn : n = k
        · subst hn
          rw [atk, decide_eq_true (Nat.lt_succ_self n), Bool.true_and]
          rw [atk] at hk
          cases hb : bit (s.o leaf 1) n with
          | false => rfl
          | true =>
            rw [hb, Bool.and_true] at hk
            rw [hk]
            rfl
        · rw [bits, below hn]
      · by_cases hnk : n = k
        · subst hnk
          rw [atk, hs, hmn] at hk
          cases hk
        · exact recs n (by omega) hs hmn

/-- A clear of a leaf other than PLT (R432): the walk, and the sources denied are forgotten where RNG's bit is cleared. -/
theorem State.causeClear_o {s : State} {leaf mask : Nat} (h : leaf ≠ 0x5400) (i j : Nat) : (s.causeClear leaf mask).o i j =
    ((List.range 32).foldl (fun (s : State) n => if bit mask n && bit (s.o leaf 1) n then s.clearCause leaf n else s) s).o i j := by
  have full : (leaf == 0x5400) = false := beq_false_of_ne h
  simp only [State.causeClear, full, Bool.false_and, Bool.not_false, Bool.and_true]
  split <;> rfl

theorem State.causeClear_after (s : State) (leaf mask : Nat) : (s.causeClear leaf mask).ring.after = s.ring.after := by
  have walk : ∀ full : Bool, ((List.range 32).foldl (fun (s : State) n => if bit mask n && bit (s.o leaf 1) n && !(full && n == 1)
      then (s.oSet leaf 1 (s.o leaf 1 - 2 ^ n)).oSet leaf (0x10 + n) 0 else s) s).ring.after = s.ring.after := fun full =>
    foldl_holds (P := fun t : State => t.ring.after = s.ring.after) rfl fun t n ht => by split <;> exact ht
  simp only [State.causeClear]
  split
  · exact walk _
  · exact walk _

theorem Nat.testBit_mask {v w n : Nat} (hv : v < 2 ^ 32) : bit (v % 256 ^ 4 &&& w) n = (bit v n && bit w n) := by
  rw [bit_eq_testBit, bit_eq_testBit, bit_eq_testBit, Nat.testBit_and, Nat.mod_eq_of_lt (by omega)]

/-- Settles O24: a raised cause sets its bit and record, and a clear walks over the bits written. -/
theorem causesRaisedAndCleared : Obligations.CausesRaisedAndCleared := by
  unfold Obligations.CausesRaisedAndCleared
  refine ⟨fun s leaf n what hlo hhi hrng hn => ?_, fun s leaf mask row hrow hacc hty hlvl hmask hreg hleaf hlo hhi hplt hp hafter => ?_⟩
  · have h : leaf ≠ 0x1100 := by omega
    have h1 : leaf ≠ 0x1120 := by omega
    have own : ∀ j, j < 256 → (s.raise leaf n what).o leaf j = (s.setCause leaf n what).1.o leaf j := fun j hj => s.raise_o_setCause leaf n what hj h h1 hrng
    refine ⟨s.raise_bit leaf n what h h1 hrng, fun hb => ⟨?_, ?_⟩, fun hb => ⟨?_, ?_⟩, fun l i hl hl' hne hr hi => ?_⟩
    · rw [own _ (by omega), State.setCause_record, hb, if_neg Bool.false_ne_true]
    · rw [own _ (by decide), State.setCause_cause, hb, if_neg Bool.false_ne_true]
    · rw [own _ (by omega), State.setCause_record, if_pos hb]
    · rw [own _ (by decide), State.setCause_cause, if_pos hb]
    · exact s.raise_o leaf n what hn hi hne (by omega) (by omega) hr
  · have write : s.operWrite leaf.toNat 1 4 mask.toNat = s.causeClear leaf.toNat (mask.toNat % 256 ^ 4 &&& row.wmask) := by
      have on : alwaysOn leaf.toNat = true := by
        unfold alwaysOn
        simp only [Bool.or_eq_true, Bool.and_eq_true, decide_eq_true_eq]
        omega
      rw [State.operWrite_of mask.toNat hrow hty hlvl (by omega) hp (.inl on)]
      unfold State.objWrite
      rw [if_neg (by rw [hacc]; decide), if_neg (by omega),
        if_neg (by rw [hacc]; decide), if_pos ⟨hlo, hhi, rfl⟩]
      exact State.afterReq_of_zero ((s.causeClear_after _ _).trans hafter)
    have bits : ∀ n, bit (mask.toNat % 256 ^ 4 &&& row.wmask) n = (bit mask.toNat n && bit row.wmask n) := fun n => Nat.testBit_mask mask.isLt
    obtain ⟨cause, recs⟩ := s.clearWalk leaf.toNat (mask.toNat % 256 ^ 4 &&& row.wmask) 32
    refine ⟨s.causeClear leaf.toNat (mask.toNat % 256 ^ 4 &&& row.wmask), ?_, fun n hn => ?_, fun n hn hs hm hw => ?_⟩
    · exact congrArg Host.Outcome.next ((if_neg hleaf).trans (congrArg State.settle write))
    · rw [State.causeClear_o hplt, cause, bits, decide_eq_true (by omega), Bool.true_and]
    · rw [State.causeClear_o hplt]
      exact recs n (by omega) hs (by rw [bits, hm, hw]; rfl)

end Sys2Proof.Machine
end

section
/-! Changes of the power state (R440 to R444). -/

namespace Sys2Proof.Machine

theorem State.Still.enter {s : State} (h : s.Still) (p : Nat) : (s.enter p).Still := h.of_core (s.enter_core p)

section
variable (s : State)

/-- A command object of POWER_CMD outside a request. -/
theorem State.operWrite_power {s : State} (v : Nat) (hp : s.pstate ≠ 0) : s.operWrite 0x2100 1 1 v = (s.powerCmd (v % 256)).2.afterReq :=
  State.operWrite_cmd v (by decide) (by decide) (by decide) hp (.inl (by decide))

theorem State.Still.startDrain {s : State} (h : s.Still) (what : Nat) (cmd : Bool) : (s.startDrain what cmd).Still := (h.modPwr _).enter 4

/-- DRAIN is entered (R440, R442). -/
theorem State.startDrain_pstate {s : State} (h : s.pwr.vddW = true) (what : Nat) (cmd : Bool) : (s.startDrain what cmd).pstate = 4 :=
  State.enter_pstate 4 h

theorem State.startDrain_for (what : Nat) (cmd : Bool) : (s.startDrain what cmd).pwr.drainFor = what := by
  rw [State.startDrain, State.enter_pwr]
  rfl

theorem State.startDrain_busy (what : Nat) (cmd : Bool) : (s.startDrain what cmd).o 0x2100 1 = s.o 0x2100 1 :=
  State.enter_o_of _ 4 (by decide) (by decide) (by decide) (by decide) (by decide) (by decide) (by decide)

/-- The state of DRAIN that a command of POWER_CMD starts. -/
theorem State.drainBusy {s : State} (h : s.Still) (hv : s.pwr.vddW = true) (what : Nat) :
    let t := (s.oSet 0x2100 1 1).startDrain what true
    t.afterReq.settle = t ∧ t.pstate = 4 ∧ t.pwr.drainFor = what ∧ t.o 0x2100 1 = 1 := by
  have still := (h.oSet 0x2100 1 1).startDrain what true
  refine ⟨by rw [still.afterReq, still.settle], State.startDrain_pstate (s := s.oSet 0x2100 1 1) hv what true, State.startDrain_for _ _ _, ?_⟩
  rw [State.startDrain_busy, State.oSet_o_same]

theorem State.pstate_oSet {s : State} {i j v : Nat} (h : okey 0x4000 1 ≠ okey i j) : (s.oSet i j v).pstate = s.pstate :=
  State.pstate_congr rfl (State.o_oSet_of h)

theorem State.powerCmd_sleep {s : State} (h : s.pstate = 3) (hb : s.o 0x2100 1 ≠ 1) : s.powerCmd 1 = (0, (s.oSet 0x2100 1 1).startDrain 1 true) := by
  simp only [State.powerCmd, if_neg hb, if_true, h]

theorem State.powerCmd_hold {s : State} (h : s.pstate = 3) (hb : s.o 0x2100 1 ≠ 1) (hi : s.idle = true) :
    s.powerCmd 3 = (0, (s.oSet 0x2100 1 1).startDrain 2 true) := by
  simp only [State.powerCmd, if_neg hb, h, hi, if_true, Nat.reduceEqDiff, if_false, Nat.succ_ne_self]

theorem State.powerCmd_wake {s : State} (h : s.pstate = 2) (hb : s.o 0x2100 1 ≠ 1) :
    s.powerCmd 2 = (0, (s.oSet 0x2100 1 1).modPwr (fun p => { p with waking := true })) := by
  simp only [State.powerCmd, if_neg hb, h, Nat.reduceEqDiff, if_false, if_true]

/-- SLEEP is entered with CLK_A stopped (R440). -/
theorem State.sleepEntry_sleeps {s : State} (h : s.pstate = 4) (hq : s.pwr.quiesced = true) (hd : s.pwr.drainFor = 1) :
    s.sleepEntry.pstate = 2 ∧ s.sleepEntry.o 0x4000 5 = 0 ∧ s.sleepEntry.pwr.drainFor = 0 := by
  obtain ⟨u, hu, pwr⟩ : ∃ u : State, s.sleepEntry = (((u.modPwr (fun p => { p with drainFor := 0, drainCmd := false, quiesced := false })).oSet 0x4000 5 0).began 0x4000 9).enter 2 ∧
      u.pwr = s.pwr := by
    rw [State.sleepEntry, if_pos ⟨h, hq, hd⟩]
    exact ⟨_, rfl, by split <;> rfl⟩
  have began : ∀ t : State, (t.began 0x4000 9).pwr = t.pwr ∧ (t.began 0x4000 9).o 0x4000 5 = t.o 0x4000 5 := fun t => by
    unfold State.began
    split
    · exact ⟨rfl, State.o_oSet_of (by decide)⟩
    · exact ⟨rfl, rfl⟩
  rw [hu]
  refine ⟨State.enter_pstate 2 ?_, ?_, ?_⟩
  · rw [(began _).1]
    exact (congrArg PowerSt.vddW pwr).trans (State.vddW_of_pstate (by omega))
  · rw [State.enter_o_of _ 2 (by decide) (by decide) (by decide) (by decide) (by decide) (by decide) (by decide), (began _).2, State.oSet_o_same]
  · rw [State.enter_pwr, (began _).1]
    rfl

/-- The state at the end of a wake before RUN is entered. -/
def State.waked (s : State) : State :=
  let s1 := (s.modPwr (fun p => { p with waking := false })).oInc 0x4000 8
  s1.oSet 0x4000 5 s1.clkTarget

/-- A command of POWER_CMD that was under way has ended. -/
def State.powerCmdDone (s : State) : State := if s.o 0x2100 1 = 1 then s.oSet 0x2100 1 0 else s

/-- The state in RUN that the end of a wake leaves, before the plan goes on. -/
def State.awoken (s : State) : State := (s.waked.enter 3).powerCmdDone

theorem State.powerCmdDone_pwr : s.powerCmdDone.pwr = s.pwr := by
  unfold State.powerCmdDone
  split <;> rfl

theorem State.powerCmdDone_o {i j : Nat} (h : okey i j ≠ okey 0x2100 1) : s.powerCmdDone.o i j = s.o i j := by
  unfold State.powerCmdDone
  split
  · exact State.o_oSet_of h
  · rfl

theorem State.waked_count : s.waked.o 0x4000 8 = (s.o 0x4000 8 + 1) % 2 ^ 64 :=
  (State.o_oSet_of (by decide)).trans (State.o_oInc_same _ _ _)

theorem State.wakeGo_eq {s : State} (h : s.pstate = 2) (hw : s.pwr.waking = true) (hh : s.pwr.holdAfterWake = false) (hl : s.held = []) :
    s.wakeGo = s.awoken.plan.abortAfterWake := by
  have self : { s with held := [] } = s := by rw [← hl]
  have kept : ∀ t : State, (t.enter 3).pwr.holdAfterWake = t.pwr.holdAfterWake := fun t => by rw [State.enter_pwr]
  rw [State.wakeGo, if_pos ⟨h, hw⟩, self, hl]
  simp only [List.foldl_nil]
  rw [State.wakeDone, if_pos ⟨h, hw⟩]
  simp only
  rw [if_neg (by rw [kept]; exact hh ▸ Bool.false_ne_true)]
  rfl

/-- RUN after a wake, which is counted (R440, R462). -/
theorem State.awoken_runs {s : State} (hv : s.pwr.vddW = true) :
    s.awoken.pstate = 3 ∧ s.awoken.pwr.waking = false ∧ s.awoken.o 0x4000 8 = (s.o 0x4000 8 + 1) % 2 ^ 64 := by
  have pwr : s.awoken.pwr = { s.pwr with waking := false } := by
    rw [State.awoken, State.powerCmdDone_pwr, State.enter_pwr]
    rfl
  refine ⟨?_, by rw [pwr], ?_⟩
  · rw [State.pstate_of_vddW (by rw [pwr]; exact hv), State.awoken, State.powerCmdDone_o _ (by decide), State.enter_o]
  · rw [State.awoken, State.powerCmdDone_o _ (by decide),
      State.enter_o_of _ 3 (by decide) (by decide) (by decide) (by decide) (by decide) (by decide) (by decide), State.waked_count]

end

/-- Settles O10: each command under its condition. -/
theorem powerStateChanges : Obligations.PowerStateChanges := by
  unfold Obligations.PowerStateChanges
  refine fun s => ⟨fun hs hr hb => ?_, fun hs hp hb => ?_, fun hr hi ha => ?_, fun hs hp hq hm hd => ?_, fun hp hq hd => ⟨_, rfl, State.sleepEntry_sleeps hp hq hd⟩,
    fun hp hw hh hl => ?_⟩
  · have still := s.still_iff.mp hs
    have hp := State.run_pstate hr
    have hv : s.pwr.vddW = true := State.vddW_of_pstate (by omega)
    refine ⟨?_, fun hi => ?_⟩
    · obtain ⟨self, res⟩ := State.drainBusy still hv 1
      refine ⟨_, congrArg Host.Outcome.next ?_, res⟩
      rw [State.operWrite_power _ (by omega), State.powerCmd_sleep hp hb]
      exact self
    · obtain ⟨self, res⟩ := State.drainBusy still hv 2
      refine ⟨_, congrArg Host.Outcome.next ?_, res⟩
      rw [State.operWrite_power _ (by omega), State.powerCmd_hold hp hb hi]
      exact self
  · have still := ((s.still_iff.mp hs).oSet 0x2100 1 1).modPwr (fun p => { p with waking := true })
    have sleeps : (s.oSet 0x2100 1 1).pstate = 2 := (State.pstate_oSet (by decide)).trans hp
    have busy : (s.oSet 0x2100 1 1).o 0x2100 1 = 1 := State.oSet_o_same _ _ _ _
    refine ⟨(s.oSet 0x2100 1 1).modPwr (fun p => { p with waking := true }), congrArg Host.Outcome.next ?_, sleeps, rfl, busy⟩
    rw [State.operWrite_power _ (by omega), State.powerCmd_wake hp hb, still.afterReq, still.settle]
  · have go : (s.run && s.o 0x2100 2 != 0 && s.idleAuto) = true := by rw [hr, bne_iff_ne.mpr hi, ha]; rfl
    exact ⟨s.startDrain 1 false, congrArg Host.Outcome.next (if_pos go),
      State.startDrain_pstate (State.vddW_of_pstate (by rw [State.run_pstate hr]; decide)) 1 false, s.startDrain_for 1 false⟩
  · refine congrArg Host.Outcome.next ?_
    rw [State.quiesce, if_pos ⟨hp, hq, hm, by omega⟩, if_pos hd, ((s.still_iff.mp hs).modPwr _).settle]
  · exact ⟨s.awoken, congrArg (fun u => Host.Outcome.next (State.settle u)) (State.wakeGo_eq hp hw hh hl), State.awoken_runs (State.vddW_of_pstate (by omega))⟩

end Sys2Proof.Machine
end

section
/-! What the traffic of the ports and of the Lining cache leaves as it was (chapters 11 and 12). -/

namespace Sys2Proof.Machine

/-! ## Registers after a change of another store -/

section
variable (s : State) (i j k l : Nat)

theorem State.modPwr_o (f : PowerSt → PowerSt) : (s.modPwr f).o i j = s.o i j := rfl
theorem State.modRing_o (f : RingSt → RingSt) : (s.modRing f).o i j = s.o i j := rfl
theorem State.modTile_o (f : TileSt → TileSt) : (s.modTile f).o i j = s.o i j := rfl
theorem State.modPort_o (f : PortSt → PortSt) : (s.modPort k f).o i j = s.o i j := rfl
theorem State.modCtx_o (f : CtxSt → CtxSt) : (s.modCtx k f).o i j = s.o i j := rfl
theorem State.modSt_o (f : StreamSt → StreamSt) : (s.modSt k l f).o i j = s.o i j := rfl
theorem State.modEp_o (f : Endpoint → Endpoint) : (s.modEp k f).o i j = s.o i j := rfl
theorem State.modThr_o (f : Thread → Thread) : (s.modThr k f).o i j = s.o i j := rfl
theorem State.modHnd_o (f : Handle → Handle) : (s.modHnd k f).o i j = s.o i j := rfl
theorem State.modQ_o (f : Query → Query) : (s.modQ k f).o i j = s.o i j := rfl
theorem State.modEnt_o (f : Entry → Entry) : (s.modEnt k l f).o i j = s.o i j := rfl
theorem State.modBob_o (f : BobSt → BobSt) : (s.modBob k f).o i j = s.o i j := rfl
theorem State.modMig_o (f : MigEntry → MigEntry) : (s.modMig k f).o i j = s.o i j := rfl

end

/-- The state without what traffic on the ports and through the Lining cache can change. -/
def State.wire (s : State) : State :=
  { s with out := [], obj := [], free := 0, port := [], job := [], nextJob := 0, due := [], lc := [], ring := { s.ring with events := [] },
           tile := { s.tile with evict := [], lcWait := [], mendWait := [] } }

/-- Registers that are neither counters of the Lining cache or of a port nor causes, nor registers of the ring interface. -/
def quietReg (i j : Nat) : Bool :=
  decide (j < 256) && i != 0x1100 && i != 0x1120 && (decide (i < 0x4330) || decide (0x4400 ≤ i)) && (decide (i < 0x5000) || decide (0x6000 ≤ i)) &&
    (decide (i < 0x4400) || j != 6 && j != 7)

theorem quietReg_iff (i j : Nat) : quietReg i j = true ↔
    j < 256 ∧ i ≠ 0x1100 ∧ i ≠ 0x1120 ∧ (i < 0x4330 ∨ 0x4400 ≤ i) ∧ (i < 0x5000 ∨ 0x6000 ≤ i) ∧ (i < 0x4400 ∨ j ≠ 6 ∧ j ≠ 7) := by
  simp only [quietReg, Bool.and_eq_true, Bool.or_eq_true, decide_eq_true_eq, bne_iff_ne, and_assoc]

/-- From s to t only traffic has gone on. -/
structure State.Wire (s t : State) : Prop where
  wire : t.wire = s.wire
  regs : ∀ i j, quietReg i j = true → t.o i j = s.o i j

namespace State.Wire

variable {s0 s t : State} {α : Type}

theorem refl (s : State) : s.Wire s := ⟨rfl, fun _ _ _ => rfl⟩

theorem trans (h : s0.Wire s) (k : s.Wire t) : s0.Wire t := ⟨k.wire.trans h.wire, fun i j q => (k.regs i j q).trans (h.regs i j q)⟩

/-- A change that neither the registers nor the rest shows. -/
theorem of (h : s0.Wire s) (e : t.wire = s.wire) (o : t.obj = s.obj) : s0.Wire t :=
  h.trans ⟨e, fun i j _ => by rw [State.o, o]; rfl⟩

theorem ite {c : Prop} [Decidable c] (h : s0.Wire s) (k : s0.Wire t) : s0.Wire (if c then s else t) := by
  split
  · exact h
  · exact k

theorem foldl {f : State → α → State} {l : List α} (h : s0.Wire s) (step : ∀ u x, s0.Wire u → s0.Wire (f u x)) : s0.Wire (l.foldl f s) :=
  foldl_holds h step

theorem foldlFst {β : Type} {f : State × β → α → State × β} {l : List α} {b : β} (h : s0.Wire s) (step : ∀ u x, s0.Wire u.1 → s0.Wire (f u x).1) :
    s0.Wire (l.foldl f (s, b)).1 :=
  foldl_holds (P := fun r : State × β => s0.Wire r.1) h step

/-! ## The parts that stay -/

theorem pwr (h : s.Wire t) : t.pwr = s.pwr := (congrArg State.pwr h.wire :)
theorem strm (h : s.Wire t) : t.strm = s.strm := (congrArg State.strm h.wire :)
theorem ctx (h : s.Wire t) : t.ctx = s.ctx := (congrArg State.ctx h.wire :)
theorem hnd (h : s.Wire t) : t.hnd = s.hnd := (congrArg State.hnd h.wire :)
theorem slot (h : s.Wire t) : t.slot = s.slot := (congrArg State.slot h.wire :)
theorem rs (h : s.Wire t) : t.rs = s.rs := (congrArg State.rs h.wire :)
theorem bob (h : s.Wire t) : t.bob = s.bob := (congrArg State.bob h.wire :)
theorem eng (h : s.Wire t) : t.eng = s.eng := (congrArg State.eng h.wire :)
theorem mig (h : s.Wire t) : t.mig = s.mig := (congrArg State.mig h.wire :)
theorem nc (h : s.Wire t) : t.nc = s.nc := (congrArg State.nc h.wire :)
theorem pin (h : s.Wire t) : t.pin = s.pin := (congrArg State.pin h.wire :)
theorem part (h : s.Wire t) : t.part = s.part := (congrArg State.part h.wire :)
theorem order (h : s.Wire t) : t.order = s.order := (congrArg State.order h.wire :)
theorem after (h : s.Wire t) : t.ring.after = s.ring.after := (congrArg (fun u => u.ring.after) h.wire :)
theorem partOp (h : s.Wire t) : t.tile.partOp = s.tile.partOp := (congrArg (fun u => u.tile.partOp) h.wire :)
theorem maint (h : s.Wire t) : t.tile.maint = s.tile.maint := (congrArg (fun u => u.tile.maint) h.wire :)

/-! ## Updates -/

/-- A register of a port that traffic counts in. -/
theorem portCount {p j v : Nat} (hj : j = 6 ∨ j = 7) (h : s0.Wire s) : s0.Wire (s.oSet (0x4400 + p) j v) := by
  refine h.trans ⟨rfl, fun i l q => ?_⟩
  obtain ⟨hl, -, -, hlc, -, hp⟩ := (quietReg_iff i l).mp q
  exact State.o_oSet_of (by unfold okey; omega)

/-- A counter of the Lining cache. -/
theorem lcCount {j : Nat} (hj : j < 256) (h : s0.Wire s) : s0.Wire (s.oInc 0x4330 j) := by
  refine h.trans ⟨rfl, fun i l q => ?_⟩
  obtain ⟨hl, -, -, hlc, -, -⟩ := (quietReg_iff i l).mp q
  exact State.o_oSet_of (by unfold okey; omega)

theorem raise {leaf n what : Nat} (hlo : 0x5000 ≤ leaf) (hhi : leaf < 0x6000) (hn : n < 24) (h : s0.Wire s) : s0.Wire (s.raise leaf n what) := by
  refine h.trans ⟨(congrArg State.wire (s.raise_core leaf n what) :), fun i l q => ?_⟩
  obtain ⟨hl, h11, h12, -, hcause, -⟩ := (quietReg_iff i l).mp q
  exact s.raise_o leaf n what hn hl (by omega) h11 h12 (by omega)

theorem modPort {p : Nat} {f : PortSt → PortSt} (h : s0.Wire s) : s0.Wire (s.modPort p f) := h.of rfl rfl
theorem modLc {k : Nat} {f : LcSet → LcSet} (h : s0.Wire s) : s0.Wire (s.modLc k f) := h.of rfl rfl
theorem setOut {x : List Output} (h : s0.Wire s) : s0.Wire { s with out := x } := h.of rfl rfl

theorem modEvict {f : List EvLine → List EvLine} (h : s0.Wire s) : s0.Wire (s.modTile (fun t => { t with evict := f t.evict })) := h.of rfl rfl
theorem setDue {x : List Due} (h : s0.Wire s) : s0.Wire { s with due := x } := h.of rfl rfl
theorem setJob {x : Tbl Job} (h : s0.Wire s) : s0.Wire { s with job := x } := h.of rfl rfl
theorem setJobDue {x : Tbl Job} {y : List Due} (h : s0.Wire s) : s0.Wire { s with job := x, due := y } := h.of rfl rfl

theorem windowFault {c what : Nat} (hc : c < 64) (h : s0.Wire s) : s0.Wire (s.windowFault c what) := (h.lcCount (by decide)).raise (by omega) (by omega) (by decide)

/-! ## Requests -/

theorem issue {p : Nat} {r : PReq} (h : s0.Wire s) : s0.Wire (s.issue p r) :=
  .setOut (s := if _ then _ else _) (.ite (.portCount (.inl rfl) (.modPort h)) (.modPort h))

theorem failReq {p : Nat} {r : PReq} {eoff : Bool} (h : s0.Wire s) : s0.Wire (s.failReq p r eoff) := by
  have counted : s0.Wire (s.oInc (0x4400 + p) 7) := h.portCount (.inr rfl)
  refine .ite (counted.of rfl rfl) ?_
  dsimp only
  split
  · exact .setDue (.setDue (.foldl counted fun _ _ h1 => .ite (.setJobDue h1) (.setJob h1)))
  · exact .setDue (.foldl counted fun _ _ h1 => .ite (.setJobDue h1) (.setJob h1))

theorem send {p : Nat} {r : PReq} (h : s0.Wire s) : s0.Wire (s.send p r) :=
  .ite (.ite (.ite (.issue h) (.modPort h)) (.failReq h)) (.ite (.ite (.issue h) (.modPort h)) (.failReq h))

theorem drainPort {p : Nat} (h : s0.Wire s) : s0.Wire (s.drainPort p) := .foldl (.modPort h) fun _ _ h1 => .ite (.issue h1) (.modPort h1)
theorem drainAfter {old : State} {p : Nat} (h : s0.Wire s) : s0.Wire (s.drainAfter old p) := .ite (.drainPort h) (.foldl h fun _ _ h1 => .drainPort h1)

/-! ## The Lining cache -/

theorem writeBack {port line data : Nat} {op : Bool} (h : s0.Wire s) : s0.Wire (s.writeBack port line data op) := .send h
theorem evictLine {k : Nat} {w : LcWay} (h : s0.Wire s) : s0.Wire (s.evictLine k w) := .ite (.writeBack (h.of rfl rfl)) h

theorem lcAlloc {port line : Nat} {mk : Nat → LcWay} {u : State} (h : s0.Wire s) (e : s.lcAlloc port line mk = some u) : s0.Wire u := by
  unfold State.lcAlloc at e
  dsimp only at e
  split at e
  · cases e
  · obtain rfl := Option.some.inj e
    refine .modLc ?_
    split
    · exact .evictLine h
    · exact h

theorem cancelBack {port line : Nat} (h : s0.Wire s) : s0.Wire (s.cancelBack port line) := .foldl (h.of rfl rfl) fun _ _ h1 => .ite (.modPort h1) h1
theorem backOp {port line : Nat} (h : s0.Wire s) : s0.Wire (s.backOp port line) := .foldl h fun _ _ h1 => .ite (.modPort h1) h1

theorem rescue {port line : Nat} {dirty : Bool} {u : State} (h : s0.Wire s) (e : s.rescue port line dirty = some u) : s0.Wire u := by
  unfold State.rescue at e
  split at e
  · cases e
  · obtain ⟨v, hv, rfl⟩ := Option.map_eq_some_iff.mp e
    exact lcCount (j := 4) (by decide) (.lcAlloc (.ite (.cancelBack h) (.modEvict h)) hv)

theorem joinRead {p line : Nat} {f : PReq → PReq} {u : State} (h : s0.Wire s) (e : s.joinRead p line f = some u) : s0.Wire u := by
  unfold State.joinRead at e
  dsimp only at e
  split at e
  · exact Option.some.inj e ▸ .modPort h
  · split at e
    · exact Option.some.inj e ▸ .modPort h
    · cases e

theorem jobSector {id off v err : Nat} (h : s0.Wire s) : s0.Wire (s.jobSector id off v err) := by
  unfold State.jobSector
  split
  · exact h
  · exact .ite (h.of rfl rfl) (h.of rfl rfl)

theorem lcRead {port line sec c : Nat} {full : Bool} {want : PReq → PReq} {got : LcWay → Bool → State → State}
    (hgot : ∀ w all u, s0.Wire u → s0.Wire (got w all u)) (h : s0.Wire s) : s0.Wire (s.lcRead port line sec c full want got) := by
  unfold State.lcRead
  dsimp only
  split
  · refine .ite (hgot _ _ _ (lcCount (j := 1) (by decide) (.modLc h))) ?_
    split
    · exact .joinRead (lcCount (j := 2) (by decide) (.ite (hgot _ _ _ h) h)) ‹_›
    · exact .send (lcCount (j := 2) (by decide) (.ite (hgot _ _ _ h) h))
  · split
    · split
      · exact hgot _ _ _ (.lcCount (by decide) (.rescue h ‹_›))
      · exact .rescue h ‹_›
    · split
      · exact .send (lcAlloc (lcCount (j := 2) (by decide) h) ‹_›)
      · exact .send (.lcCount (by decide) h)

theorem lcWrite {port pa data mask c : Nat} (h : s0.Wire s) : s0.Wire (s.lcWrite port pa data mask c) := by
  unfold State.lcWrite
  dsimp only
  split
  · exact .lcCount (by decide) (.modLc h)
  · split
    · split
      · exact .lcCount (by decide) (.modLc (.rescue h ‹_›))
      · exact .rescue h ‹_›
    · split
      · exact .send (lcAlloc (lcCount (j := 2) (by decide) h) ‹_›)
      · exact .send (.lcCount (by decide) h)

theorem lcTouchWrite {port pa data mask : Nat} (h : s0.Wire s) : s0.Wire (s.lcTouchWrite port pa data mask) := by
  unfold State.lcTouchWrite
  dsimp only
  split
  · exact .modLc h
  · split
    · split
      · exact .modLc (.rescue h ‹_›)
      · exact .rescue h ‹_›
    · exact .ite (h.of rfl rfl) h

theorem lcPiece {r : LcReq} (h : s0.Wire s) : s0.Wire (s.lcPiece r) := by
  refine .ite (.ite ?_ (h.of rfl rfl)) (.ite (h.of rfl rfl) ?_)
  · split
    · exact .lcRead (fun _ _ _ h1 => .jobSector h1) h
    · exact .lcWrite h
  · split
    · exact .send h
    · exact .send h

theorem startJob {purp : Purp} {c addr len what : Nat} {r : Right} {direct : Bool} (hc : c < 64) (h : s0.Wire s) :
    s0.Wire (s.startJob purp c addr len r what direct) := by
  refine .foldl (h.of rfl rfl) fun _ _ h1 => ?_
  dsimp only
  split
  · exact .jobSector (.windowFault hc h1)
  · exact .ite (.lcPiece h1) (.send h1)

theorem writeOut {c addr data mask what : Nat} {rel : Bool} {wp : WPurp} (hc : c < 64) (h : s0.Wire s) : s0.Wire (s.writeOut c addr data mask rel wp what) := by
  unfold State.writeOut
  dsimp only
  split
  · exact (windowFault hc h).of rfl rfl
  · exact .send (.ite (.lcTouchWrite h) h)

theorem lcSweep {p : Nat → LcWay → Bool} {ev : EvLine → Bool} {wb inv : Bool} (h : s0.Wire s) : s0.Wire (s.lcSweep p ev wb inv).1 := by
  have lines : ∀ r : State × Nat, s0.Wire r.1 → ∀ (k : Nat) (w : LcWay), s0.Wire (if w.filling = true then
      r.1.modLc k (fun x => x.put { w with noKeep := w.noKeep || inv, back := wb && (w.back || w.dirty), dirty := wb && w.dirty, wmask := if wb then w.wmask else 0 })
      else if inv = true then r.1.modLc k (fun x => x.drop w.way) else r.1.modLc k (fun x => x.put { w with dirty := false })) :=
    fun r hr k w => .ite (.modLc hr) (.ite (.modLc hr) (.modLc hr))
  have swept := h.foldlFst (l := s.lc) (b := 0) (f := fun (acc : State × Nat) e => e.2.ways.foldl (fun (acc : State × Nat) w =>
      if p e.1 w && (w.valid != 0 || w.filling) then
        let s1 := if wb && w.dirty && !w.filling then acc.1.writeBack w.port w.line w.data true else acc.1
        let s2 :=
          if w.filling then
            s1.modLc e.1 (fun x => x.put { w with
              noKeep := w.noKeep || inv, back := wb && (w.back || w.dirty), dirty := wb && w.dirty, wmask := if wb then w.wmask else 0 })
          else if inv then s1.modLc e.1 (fun x => x.drop w.way)
          else s1.modLc e.1 (fun x => x.put { w with dirty := false })
        (s2, acc.2 + b2n (if wb && !inv then w.dirty else w.valid != 0))
      else acc) acc) fun u x hu => by
    refine foldl_holds (P := fun r : State × Nat => s0.Wire r.1) hu fun r w hr => ?_
    dsimp only
    split
    · exact lines (_, 0) (.ite (.writeBack hr) hr) _ _
    · exact hr
  unfold State.lcSweep
  dsimp only
  refine of (.ite ?_ ?_) rfl rfl
  · exact foldl swept fun _ _ h1 => .cancelBack h1
  · exact foldl swept fun _ _ h1 => .backOp h1

theorem lcFlush (h : s0.Wire s) : s0.Wire s.lcFlush := .lcSweep h

end State.Wire

end Sys2Proof.Machine
end

section
/-! Readings, the plan and the Lining window (R446, R450 to R460). -/

namespace Sys2Proof.Machine

/-! ## A change of the partition -/

theorem State.residCheck_o (s : State) (h : Nat) {i j : Nat} (q : quietReg i j = true) : (s.residCheck h).o i j = s.o i j := by
  unfold State.residCheck
  dsimp only
  split
  · rfl
  · split
    · exact (State.Wire.raise (s := s.modHnd h _) (by decide) (by decide) (by decide) (.refl _)).regs i j q
    · rfl

theorem State.takeUnits_o (n : Nat) (s : State) {i j : Nat} (q : quietReg i j = true) : (State.takeUnits n s).o i j = s.o i j := by
  induction n generalizing s with
  | zero => rfl
  | succ n ih =>
    unfold State.takeUnits
    split
    · rfl
    · exact (ih _).trans (State.residCheck_o _ _ q)

/-- The sizes asked for wait, and the registers of the partition stay, while the Lining cache is flushed (R301, R302). -/
theorem State.shiftGo_partOp (s : State) (p : Part) : (s.shiftGo p).tile.partOp = some (false, p) :=
  (State.Wire.refl _).lcFlush.partOp

theorem State.shiftGo_o (s : State) (p : Part) {i j : Nat} (q : quietReg i j = true) : (s.shiftGo p).o i j = s.o i j :=
  ((State.Wire.refl _).lcFlush.regs i j q).trans (State.takeUnits_o _ _ q)

/-- A SHIFT of sizes that fit, with no command and no maintenance under way (R302, R333). -/
theorem State.partCmd_shift {s : State} (hb : s.o 0x2300 6 ≠ 1) (hp : s.staged.park = s.part.park) (hn : s.staged.bin = s.part.bin)
    (hr : s.staged.rb = s.part.rb) (hs : s.staged.pin + s.staged.lc = s.part.pin + s.part.lc) (hc : partCheck s.staged (s.o 0x2300 8) = 0)
    (hm : s.lcMaint = false) : s.partCmd 2 = (0, (s.oSet 0x2300 6 1).shiftGo s.staged) := by
  have same : ¬(s.staged.park ≠ s.part.park ∨ s.staged.bin ≠ s.part.bin ∨ s.staged.rb ≠ s.part.rb ∨ s.staged.pin + s.staged.lc ≠ s.part.pin + s.part.lc) := by
    simp only [hp, hn, hr, hs, ne_eq, not_true_eq_false, or_self, not_false_eq_true]
  simp only [State.partCmd, if_neg hb, Nat.reduceEqDiff, if_false, if_true, if_neg same, hc, ne_eq, not_true_eq_false, hm, Bool.false_eq_true]

/-- The state of a window whose counts for the next are taken (R460). -/
def State.nextWindow (s : State) : State :=
  s.modPwr (fun p => { p with lcHits0 := s.o 0x4330 1, lcMiss0 := s.o 0x4330 2, sinceShift := p.sinceShift + 1 })

/-- The state with the staged sizes of a larger Lining cache. -/
def State.stageGrown (s : State) : State :=
  (s.nextWindow.oSet 0x2300 1 (s.part.pin + s.part.lc - 2 * s.part.lc)).oSet 0x2300 5 (2 * s.part.lc)

theorem State.stageGrown_staged {s : State} (hp : s.staged.park = s.part.park) (hn : s.staged.bin = s.part.bin) (hr : s.staged.rb = s.part.rb) :
    s.stageGrown.staged = { s.part with pin := s.part.pin + s.part.lc - 2 * s.part.lc, lc := 2 * s.part.lc } := by
  have reg : ∀ j, okey 0x2300 j ≠ okey 0x2300 1 → okey 0x2300 j ≠ okey 0x2300 5 → s.stageGrown.o 0x2300 j = s.o 0x2300 j := fun j h1 h5 =>
    (State.o_oSet_of h5).trans (State.o_oSet_of h1)
  have pin : s.stageGrown.o 0x2300 1 = s.part.pin + s.part.lc - 2 * s.part.lc := (State.o_oSet_of (by decide)).trans (State.oSet_o_same _ _ _ _)
  have lc : s.stageGrown.o 0x2300 5 = 2 * s.part.lc := State.oSet_o_same _ _ _ _
  have park : s.o 0x2300 2 = s.part.park := hp
  have bins : s.o 0x2300 3 = s.part.bin := hn
  have rb : s.o 0x2300 4 = s.part.rb := hr
  rw [State.staged, pin, lc, reg 2 (by decide) (by decide), reg 3 (by decide) (by decide), reg 4 (by decide) (by decide), park, bins, rb]

theorem State.partCmd_grown {s : State} {p : Part} (hb : s.o 0x2300 6 ≠ 1) (hm : s.lcMaint = false) (hl : s.part.lc ≤ s.part.pin)
    (hs : s.stageGrown.staged = p) (hp : p = { s.part with pin := s.part.pin + s.part.lc - 2 * s.part.lc, lc := 2 * s.part.lc })
    (hc : partCheck p (s.o 0x2300 8) = 0) : s.stageGrown.partCmd 2 = (0, (s.stageGrown.oSet 0x2300 6 1).shiftGo p) := by
  have reg : ∀ j, okey 0x2300 j ≠ okey 0x2300 1 → okey 0x2300 j ≠ okey 0x2300 5 → s.stageGrown.o 0x2300 j = s.o 0x2300 j := fun j h1 h5 =>
    (State.o_oSet_of h5).trans (State.o_oSet_of h1)
  rw [← hs] at hp hc ⊢
  refine State.partCmd_shift ?_ ?_ ?_ ?_ ?_ ?_ hm
  · rwa [reg 6 (by decide) (by decide)]
  · rw [hp]; rfl
  · rw [hp]; rfl
  · rw [hp]; rfl
  · rw [hp]
    show s.part.pin + s.part.lc - 2 * s.part.lc + 2 * s.part.lc = s.part.pin + s.part.lc
    omega
  · rwa [reg 8 (by decide) (by decide)]

/-- The end of a window with AUTO on and three hits in four begins a SHIFT (R460). -/
theorem State.partAuto_grows {s : State} {p : Part} (hr : s.run = true) (ha : bit (s.o 0x2300 7) 0 = true) (h16 : 16 ≤ s.pwr.sinceShift)
    (hb : s.o 0x2300 6 ≠ 1)
    (ht : 0 < s.o 0x4330 1 - s.pwr.lcHits0 + (s.o 0x4330 2 - s.pwr.lcMiss0))
    (h34 : 3 * (s.o 0x4330 1 - s.pwr.lcHits0 + (s.o 0x4330 2 - s.pwr.lcMiss0)) ≤ 4 * (s.o 0x4330 1 - s.pwr.lcHits0))
    (hlo : 64 ≤ s.part.lc) (hhi : s.part.lc < 1024) (hfree : 16 * s.part.lc ≤ s.pinFree)
    (hcmd : s.stageGrown.partCmd 2 = (0, (s.stageGrown.oSet 0x2300 6 1).shiftGo p)) :
    s.partAuto = (((s.stageGrown.oSet 0x2300 6 1).shiftGo p).modPwr (fun w => { w with sinceShift := 0 })).raise 0x5700 7 (2 * s.part.lc) := by
  have busy : ((s.stageGrown.oSet 0x2300 6 1).shiftGo p).o 0x2300 6 = 1 := (State.shiftGo_o _ _ (by decide)).trans (State.oSet_o_same _ _ _ _)
  have auto : (!bit (s.o 0x2300 7) 0 || decide (s.pwr.sinceShift < 16) || s.o 0x2300 6 == 1) = false := by
    rw [ha, decide_eq_false (by omega), beq_false_of_ne hb]
    rfl
  have few : ¬((s.hnd.any (fun e => e.2.state == 1 && decide (e.2.rlen < e.2.pinLen))) = true ∧ 128 ≤ s.part.lc ∧
      s.o 0x4330 1 - s.pwr.lcHits0 + (s.o 0x4330 2 - s.pwr.lcMiss0) ≠ 0 ∧
      4 * (s.o 0x4330 1 - s.pwr.lcHits0) < s.o 0x4330 1 - s.pwr.lcHits0 + (s.o 0x4330 2 - s.pwr.lcMiss0)) := by omega
  unfold State.stageGrown State.nextWindow at *
  simp only [State.partAuto, hr, Bool.not_true, Bool.false_eq_true, if_false, auto, if_neg few]
  rw [if_pos ⟨h34, by omega, hlo, hhi, hfree⟩, hcmd]
  exact if_pos busy

/-! ## Temperature -/

/-- The thermal limit after a reading (R450). -/
def thermalNext (th : Nat) (lim tj : Int) : Nat := if lim ≤ tj then max 500 (th - 25) else if tj ≤ lim - 3 then min 800 (th + 25) else th

theorem State.thermal_live {s : State} (tj : Int) (h : s.live = true) :
    (s.thermal tj).o 0x4000 7 = ofInt 32 tj ∧ (s.thermal tj).pwr.thermal = thermalNext s.pwr.thermal (s.o 0x2130 1) tj ∧
      (105 ≤ tj → (s.thermal tj).pwr.thermalStop = true) := by
  have hp : s.pstate ≠ 0 := by
    unfold State.live at h
    intro h0
    rw [h0] at h
    cases h
  have on : (s.pwr.vddW && s.pstate != 0) = true := by rw [State.vddW_of_pstate hp, bne_iff_ne.mpr hp]; rfl
  have live : (s.oSet 0x4000 7 (ofInt 32 tj)).live = true := by
    unfold State.live
    rw [State.pstate_oSet (by decide)]
    exact h
  have read : (s.oSet 0x4000 7 (ofInt 32 tj)).o 0x4000 7 = ofInt 32 tj := State.oSet_o_same _ _ _ _
  have lim : (s.oSet 0x4000 7 (ofInt 32 tj)).o 0x2130 1 = s.o 0x2130 1 := State.o_oSet_of (by decide)
  have raised : ∀ (u : State) n what, n < 24 → (u.raise 0x5700 n what).o 0x4000 7 = u.o 0x4000 7 := fun u n what hn =>
    u.raise_o_of _ _ _ hn (by decide) (by decide) (by decide) (by decide) (by decide) (by decide)
  simp only [State.thermal, on, if_true, live, Bool.not_true, Bool.false_eq_true, if_false, lim]
  obtain ⟨s1, hs1, reg1, th1⟩ : ∃ s1 : State, (if (s.o 0x2130 1 : Int) ≤ tj then
      ((s.oSet 0x4000 7 (ofInt 32 tj)).modPwr (fun p => { p with thermal := max 500 (p.thermal - 25) })).raise 0x5700 5 (ofInt 24 tj)
      else if tj ≤ (s.o 0x2130 1 : Int) - 3 then (s.oSet 0x4000 7 (ofInt 32 tj)).modPwr (fun p => { p with thermal := min 800 (p.thermal + 25) })
      else s.oSet 0x4000 7 (ofInt 32 tj)) = s1 ∧ s1.o 0x4000 7 = ofInt 32 tj ∧ s1.pwr.thermal = thermalNext s.pwr.thermal (s.o 0x2130 1) tj := by
    refine ⟨_, rfl, ?_, ?_⟩
    · split
      · exact (raised _ _ _ (by decide)).trans read
      · split
        · exact read
        · exact read
    · unfold thermalNext
      split
      · rw [State.raise_pwr]
        rfl
      · split
        · rfl
        · rfl
  rw [hs1]
  split
  · refine ⟨(raised _ _ _ (by decide)).trans reg1, by rw [State.raise_pwr]; exact th1, fun _ => by rw [State.raise_pwr]; rfl⟩
  · next hot =>
    refine ⟨?_, ?_, fun h105 => absurd h105 hot⟩
    · split
      · exact reg1
      · exact reg1
    · split
      · exact th1
      · exact th1

/-- Settles O12: each command under its condition. -/
theorem readingsAndPlan : Obligations.ReadingsAndPlan := by
  unfold Obligations.ReadingsAndPlan
  refine fun s => ⟨fun tj hl => ?_, fun hl hc => ?_, fun hv hst => ?_, fun su hp => ?_, fun hp => ?_, fun hs hr ha => ?_,
    fun hr ha h16 hb hm ht h34 hlo hhi hfree hpin hpark hbin hrb hfit => ?_⟩
  · obtain ⟨reg, th, stop⟩ := State.thermal_live tj hl
    refine ⟨s.thermal tj, rfl, reg, fun h => ?_, fun h => ?_, fun h1 h2 => ?_, stop⟩
    · rw [th, thermalNext, if_pos h]
    · rw [th, thermalNext, if_neg (by omega), if_pos h]
    · rw [th, thermalNext, if_neg (by omega), if_neg (by omega)]
  · refine ⟨s.oSet 0x4000 5 (if s.o 0x4000 5 < s.clkTarget then min s.clkTarget (s.o 0x4000 5 + 25) else max s.clkTarget (s.o 0x4000 5 - 25)),
      congrArg (fun u => Host.Outcome.next (State.settle u)) (if_pos ⟨hl, hc⟩), fun h => ?_, fun h => ?_⟩
    · rw [State.oSet_o_same, if_pos h]
    · rw [State.oSet_o_same, if_neg (by omega)]
  · refine ⟨(s.modPwr (fun p => { p with settling := false })).oSet 0x6000 6 s.pwr.nvConf, congrArg (fun u => Host.Outcome.next (State.settle u)) ?_,
      State.oSet_o_same _ _ _ _, rfl⟩
    have none : ((s.modPwr (fun p => { p with settling := false })).oSet 0x6000 6 s.pwr.nvConf).pwr.start = none := hst
    simp only [State.settled, hv, if_true, none]
  · exact congrArg (fun u => Host.Outcome.next (State.settle u)) (if_pos hp)
  · exact congrArg Host.Outcome.next (if_pos hp)
  · refine congrArg Host.Outcome.next ?_
    have stay : s.partAuto = s.nextWindow := by
      simp only [State.partAuto, hr, ha, Bool.not_true, Bool.not_false, Bool.true_or, Bool.false_eq_true, if_false, if_true]
      rfl
    rw [stay]
    exact ((s.still_iff.mp hs).modPwr _).settle
  · have staged := State.stageGrown_staged hpark hbin hrb
    have cmd := State.partCmd_grown hb hm hpin staged rfl hfit
    have grow := State.partAuto_grows hr ha h16 hb ht h34 hlo hhi hfree cmd
    refine ⟨s.partAuto, rfl, ?_⟩
    rw [grow]
    have busy := (State.shiftGo_o (s.stageGrown.oSet 0x2300 6 1) { s.part with pin := s.part.pin + s.part.lc - 2 * s.part.lc, lc := 2 * s.part.lc }
      (i := 0x2300) (j := 6) (by decide)).trans (State.oSet_o_same _ _ _ _)
    have waits := State.shiftGo_partOp (s.stageGrown.oSet 0x2300 6 1) { s.part with pin := s.part.pin + s.part.lc - 2 * s.part.lc, lc := 2 * s.part.lc }
    refine ⟨?_, ?_, ?_, State.raise_bit _ _ _ _ (by decide) (by decide) (by decide)⟩
    · rw [State.raise_o_of _ _ _ _ (by decide) (by decide) (by decide) (by decide) (by decide) (by decide) (by decide)]
      rw [State.modPwr_o]
      exact busy
    · rw [State.raise_tile, State.modPwr_tile]
      exact waits
    · rw [State.raise_pwr]
      rfl

end Sys2Proof.Machine
end

section
/-! Aborts and the release of contexts (R472 to R478). -/

namespace Sys2Proof.Machine

/-! ## What the end of a query leaves -/

/-- Registers that the end of a query leaves: those below the counters of the units, and ABORT_CMD and what stands at its subindex. -/
def calmReg (i j : Nat) : Bool := decide (j < 256) && i != 0x1100 && i != 0x1120 && (decide (i < 0x4200) || decide (0x6000 ≤ i) && j == 2)

theorem calmReg_iff (i j : Nat) : calmReg i j = true ↔ j < 256 ∧ i ≠ 0x1100 ∧ i ≠ 0x1120 ∧ (i < 0x4200 ∨ 0x6000 ≤ i ∧ j = 2) := by
  simp only [calmReg, Bool.and_eq_true, Bool.or_eq_true, decide_eq_true_eq, bne_iff_ne, beq_iff_eq, and_assoc]

/-- From s to t queries have ended: the power state, the streams, the handles, the enables of the contexts and the answer to a request stay. -/
structure State.Calm (s t : State) : Prop where
  pwr : t.pwr = s.pwr
  after : t.ring.after = s.ring.after
  strm : t.strm = s.strm
  hnd : t.hnd = s.hnd
  aborting : ∀ c, (t.ctxOf c).aborting = (s.ctxOf c).aborting
  regs : ∀ i j, calmReg i j = true → t.o i j = s.o i j

namespace State.Calm

variable {s0 s t : State} {α : Type}

theorem refl (s : State) : s.Calm s := ⟨rfl, rfl, rfl, rfl, fun _ => rfl, fun _ _ _ => rfl⟩

theorem trans (h : s0.Calm s) (k : s.Calm t) : s0.Calm t :=
  ⟨k.pwr.trans h.pwr, k.after.trans h.after, k.strm.trans h.strm, k.hnd.trans h.hnd, fun c => (k.aborting c).trans (h.aborting c), fun i j q => (k.regs i j q).trans (h.regs i j q)⟩

/-- What `State.Calm` looks at of the stores. -/
def part (s : State) : State := { pwr := s.pwr, ring := { after := s.ring.after }, strm := s.strm, hnd := s.hnd, ctx := s.ctx, obj := s.obj }

theorem of (h : s0.Calm s) (e : part t = part s) : s0.Calm t := by
  have pwr : t.pwr = s.pwr := (congrArg State.pwr e :)
  have after : t.ring.after = s.ring.after := (congrArg (fun u => u.ring.after) e :)
  have strm : t.strm = s.strm := (congrArg State.strm e :)
  have hnd : t.hnd = s.hnd := (congrArg State.hnd e :)
  have ctx : t.ctx = s.ctx := (congrArg State.ctx e :)
  have obj : t.obj = s.obj := (congrArg State.obj e :)
  exact h.trans ⟨pwr, after, strm, hnd, fun c => by rw [State.ctxOf, ctx]; rfl, fun i j _ => by rw [State.o, obj]; rfl⟩

theorem ofWire (h : s0.Calm s) (k : s.Wire t) : s0.Calm t := by
  refine h.trans ⟨k.pwr, k.after, k.strm, k.hnd, fun c => by rw [State.ctxOf, k.ctx]; rfl, fun i j q => k.regs i j ?_⟩
  obtain ⟨hj, h11, h12, hi⟩ := (calmReg_iff i j).mp q
  exact (quietReg_iff i j).mpr ⟨hj, h11, h12, by omega, by omega, by omega⟩

theorem ite {c : Prop} [Decidable c] (h : s0.Calm s) (k : s0.Calm t) : s0.Calm (if c then s else t) := by
  split
  · exact h
  · exact k

theorem foldl {f : State → α → State} {l : List α} (h : s0.Calm s) (step : ∀ u x, s0.Calm u → s0.Calm (f u x)) : s0.Calm (l.foldl f s) :=
  foldl_holds h step

/-! ### Updates -/

theorem modQ {k : Nat} {f : Query → Query} (h : s0.Calm s) : s0.Calm (s.modQ k f) := h.of rfl
theorem delSlot {k : Nat} (h : s0.Calm s) : s0.Calm { s with slot := tdel s.slot k } := h.of rfl
theorem modEnt {b e : Nat} {f : Entry → Entry} (h : s0.Calm s) : s0.Calm (s.modEnt b e f) := h.of rfl
theorem modEng {b e : Nat} {f : Engine → Engine} (h : s0.Calm s) : s0.Calm (s.modEng b e f) := h.of rfl
theorem modMig {e : Nat} {f : MigEntry → MigEntry} (h : s0.Calm s) : s0.Calm (s.modMig e f) := h.of rfl
theorem modTile {f : TileSt → TileSt} (h : s0.Calm s) : s0.Calm (s.modTile f) := h.of rfl
theorem modBin {i : Nat} {f : Bin → Bin} (h : s0.Calm s) : s0.Calm (s.modBin i f) := .modTile h
theorem modPort {p : Nat} {f : PortSt → PortSt} (h : s0.Calm s) : s0.Calm (s.modPort p f) := h.of rfl
theorem setOut {x : List Output} (h : s0.Calm s) : s0.Calm { s with out := x } := h.of rfl

/-- A counter of a unit. -/
theorem oInc {i j : Nat} (hi : 0x4200 ≤ i) (hj : 2 < j ∧ j < 256) (h : s0.Calm s) : s0.Calm (s.oInc i j) := by
  refine h.trans ⟨rfl, rfl, rfl, rfl, fun _ => rfl, fun k l q => ?_⟩
  obtain ⟨hl, -, -, hk⟩ := (calmReg_iff k l).mp q
  exact State.o_oSet_of (by unfold okey; omega)

theorem raise {leaf n what : Nat} (hlo : 0x5000 ≤ leaf) (hn : n < 24) (h : s0.Calm s) : s0.Calm (s.raise leaf n what) := by
  refine h.trans ⟨State.raise_pwr _ _ _ _, (congrArg (fun u => u.ring.after) (s.raise_core leaf n what) :), (congrArg State.strm (s.raise_core leaf n what) :),
    State.raise_hnd _ _ _ _,
    fun c => by rw [State.ctxOf, State.raise_ctx]; rfl, fun i j q => ?_⟩
  obtain ⟨hj, h11, h12, hi⟩ := (calmReg_iff i j).mp q
  by_cases hr : i = leaf ∨ i = 0x5800
  · have hij : 0x6000 ≤ i ∧ j = 2 := by omega
    rw [State.raise_o_setCause _ _ _ _ hj h11 h12 (by omega), State.setCause]
    split
    · exact State.o_oSet_of (by unfold okey; omega)
    · exact (State.o_oSet_of (by unfold okey; omega)).trans (State.o_oSet_of (by unfold okey; omega))
  · exact s.raise_o leaf n what hn hj (by omega) h11 h12 (by omega)

theorem modCtx {c : Nat} {f : CtxSt → CtxSt} (hf : ∀ x, (f x).aborting = x.aborting) (h : s0.Calm s) : s0.Calm (s.modCtx c f) := by
  refine h.trans ⟨rfl, rfl, rfl, rfl, fun d => ?_, fun _ _ _ => rfl⟩
  by_cases hd : d = c
  · subst hd
    rw [State.ctxOf_modCtx, hf]
  · rw [State.ctxOf_modCtx_ne _ _ _ _ hd]

/-! ### Ends of queries -/

theorem quotaCheck {c : Nat} (h : s0.Calm s) : s0.Calm (s.quotaCheck c) := .ite (.raise (by omega) (by decide) (.modCtx (fun _ => rfl) h)) h
theorem freeQuery {k : Nat} (h : s0.Calm s) : s0.Calm (s.freeQuery k) := .ite h (.quotaCheck (.foldl (.delSlot h) fun _ _ h1 => .delSlot h1))
theorem resultSent {f : SeamFrame} (h : s0.Calm s) : s0.Calm (s.resultSent f) := .ite h (.foldl h fun _ _ h1 => .freeQuery h1)
theorem seamOut {k : Nat} {f : SeamFrame} {esc : Bool} (h : s0.Calm s) : s0.Calm (s.seamOut k f esc) :=
  .resultSent (.setOut (s := if _ then _ else _) (.ite (oInc (i := 0x4440) (j := 7) (by decide) (by decide) (.modPort h)) (.modPort h)))
theorem seamTry {k : Nat} {f : SeamFrame} (h : s0.Calm s) : s0.Calm (s.seamTry k f) := .ite (.modPort h) (.ite (.seamOut h) (.ite (.seamOut h) (.modPort h)))

theorem sendSeam {home : Nat} {f : SeamFrame} {u : State} (h : s0.Calm s) (e : s.sendSeam home f = some u) : s0.Calm u := by
  unfold State.sendSeam at e
  split at e
  · cases e
  · exact Option.some.inj e ▸ .seamTry (.ite (.raise (by omega) (by decide) (.modPort h)) (.ite (.modPort h) h))

theorem getD {r : Option State} (h : ∀ u, r = some u → s0.Calm u) (k : s0.Calm t) : s0.Calm (r.getD t) := by
  cases r with
  | none => exact k
  | some u => exact h u rfl

theorem answer {v : Served} {ftype arg0 arg1 n payload handle : Nat} (h : s0.Calm s) : s0.Calm (s.answer v ftype arg0 arg1 n payload handle) :=
  .getD (fun _ e => .sendSeam h e) (.resultSent h)

theorem answerEnd {k st : Nat} (h : s0.Calm s) : s0.Calm (s.answerEnd k st) := by
  unfold State.answerEnd
  dsimp only
  split
  · exact .answer (.modQ h)
  · exact h

theorem endKilled {b e k st : Nat} (h : s0.Calm s) : s0.Calm (s.endKilled b e k st) := by
  unfold State.endKilled
  split
  · dsimp only
    split
    · exact .answerEnd (.modEnt h)
    · exact .freeQuery (.modEnt h)
  · exact .modEnt h

theorem boundary {b e : Nat} (h : s0.Calm s) : s0.Calm (s.boundary b e) := by
  unfold State.boundary
  split
  · exact h
  · split
    · exact .ite (.endKilled h) h
    · exact h

theorem cutOp {b e : Nat} (h : s0.Calm s) : s0.Calm (s.cutOp b e) := by
  unfold State.cutOp
  split
  · exact .modEng (.ite (oInc (i := 0x42C0 + b) (j := 9) (by omega) (by decide) h) h)
  · exact h

theorem stopOp {b e : Nat} (h : s0.Calm s) : s0.Calm (s.stopOp b e) := .ite (.boundary (.modEnt (.cutOp h))) h
theorem unchunk {ks : List Nat} (h : s0.Calm s) : s0.Calm (s.unchunk ks) := .ite h (.modTile h)
theorem unbin {k : Nat} (h : s0.Calm s) : s0.Calm (s.unbin k) := by
  unfold State.unbin
  exact .modTile (.foldl (.unchunk h) fun _ _ h1 => .modBin h1)

theorem migOrphan {k : Nat} (h : s0.Calm s) : s0.Calm (s.migOrphan k) := by
  unfold State.migOrphan
  split
  · exact .modMig h
  · exact h

theorem abortSlot {k : Nat} (h : s0.Calm s) : s0.Calm (s.abortSlot k) := by
  unfold State.abortSlot
  dsimp only
  split
  · exact h
  · exact .ite (.modQ h) (.ite (.answerEnd (.modEnt (.stopOp h))) (.freeQuery (.modEnt (.stopOp h))))
  · exact .ite (.answerEnd (.unbin h)) (.freeQuery (.unbin h))
  · exact .ite (.answerEnd (.unbin h)) (.freeQuery (.unbin h))
  · exact .modQ h
  · exact .ite (.answerEnd (.migOrphan h)) (.freeQuery (.migOrphan h))
  · exact .ite h (.ite (.answerEnd h) (.freeQuery h))
  · exact .ite (.answerEnd h) (.freeQuery h)
  · exact .ite (.answerEnd h) (.freeQuery h)
  · exact .ite (.answerEnd h) (.freeQuery h)

theorem abortFrames (h : s0.Calm s) : s0.Calm s.abortFrames := .foldl h fun _ _ h1 => .modPort h1
theorem abortLines {c : Nat} (h : s0.Calm s) : s0.Calm (s.abortLines c) := .ite h (.ofWire (.modTile h) (.lcSweep (.refl _)))
theorem abortRetries {c : Nat} (h : s0.Calm s) : s0.Calm (s.abortRetries c) := .foldl (.modTile h) fun _ _ h1 => h1.ofWire (.send (.refl _))

end State.Calm

/-! ## A stopped context -/

/-- The context is disabled with its Bodkin and its streams, which have fetched nothing, and its abort is in progress. -/
def State.stopped (u : State) (c : Nat) : Prop :=
  u.ctxEn c = false ∧ u.bdkEn c = false ∧ (u.ctxOf c).aborting = true ∧ ∀ st, st < 8 → u.ringEn c st = false ∧ (u.st c st).entries = [] ∧ (u.st c st).gen = none

theorem State.Calm.stopped {s t : State} {c : Nat} (h : s.Calm t) (hc : c < 64) (hs : s.stopped c) : t.stopped c := by
  obtain ⟨en, bdk, ab, rings⟩ := hs
  have reg : ∀ o sub, o < 0x40 → sub < 256 → t.o (0x3000 + 64 * c + o) sub = s.o (0x3000 + 64 * c + o) sub := fun o sub ho hsub =>
    h.regs _ _ ((calmReg_iff _ _).mpr ⟨hsub, by omega, by omega, by omega⟩)
  refine ⟨?_, ?_, (h.aborting c).trans ab, fun st hst => ?_⟩
  · rw [State.ctxEn, State.co, reg _ _ (by decide) (by decide)]
    exact en
  · rw [State.bdkEn, State.bdk, State.co, reg _ _ (by decide) (by decide)]
    exact bdk
  · obtain ⟨ring, ent, gen⟩ := rings st hst
    rw [State.ringEn, State.ringCtrl, State.co, reg _ _ (by omega) (by decide), State.st, h.strm]
    exact ⟨ring, ent, gen⟩

/-- Bit 0 of a value whose field of that bit is cleared. -/
theorem bit_setFld_zero (x : Nat) : bit (setFld x 0 1 0) 0 = false := by
  simp only [bit, setFld, fld, Nat.pow_zero, Nat.div_one, Nat.pow_one, Nat.mul_one, Nat.zero_mod, Nat.add_zero, beq_eq_false_iff_ne]
  omega

/-- A write with bit 0 clear. -/
theorem State.bit_oSet {s : State} {k l v i j : Nat} (hv : bit v 0 = false) (h : okey i j = okey k l ∨ bit (s.o i j) 0 = false) :
    bit ((s.oSet k l v).o i j) 0 = false := by
  rw [State.o_oSet]
  split
  · exact hv
  · next hne =>
    rcases h with h | h
    · exact absurd h hne
    · exact h

/-- The context c with what an abort does first: enables and Bodkin commands. -/
def State.abortEnables (s : State) (c : Nat) : State :=
  ((s.coSet c 0 (setFld (s.co c 0) 0 1 0)).coSet c 0x17 0 1).modCtx c (fun x => { x with aborting := true, cmds := [] })

/-- The context c with its streams stopped. -/
def State.abortStreams (s : State) (c : Nat) : State := (List.range 8).foldl (fun (s : State) st => s.abortStream c st) (s.abortEnables c)

theorem State.abortCtx_calm (s : State) (c : Nat) : (s.abortStreams c).Calm (s.abortCtx c) :=
  .abortRetries (.abortLines (.abortFrames (.modTile (.foldl (.refl _) fun _ _ h1 => .abortSlot h1))))

section
variable (s : State) (c d : Nat)

/-- Bits 0 that an abort of a context clears stay clear. -/
theorem State.abortEnables_bit {i j : Nat} (h : bit (s.o i j) 0 = false ∨ okey i j = okey (0x3000 + 64 * c + 0) 0 ∨ okey i j = okey (0x3000 + 64 * c + 0x17) 1) :
    bit ((s.abortEnables c).o i j) 0 = false := by
  rw [State.abortEnables, State.modCtx_o, State.coSet, State.coSet]
  refine State.bit_oSet (by decide) ?_
  rcases h with h | h | h
  · exact .inr (State.bit_oSet (bit_setFld_zero _) (.inr h))
  · exact .inr (State.bit_oSet (bit_setFld_zero _) (.inl h))
  · exact .inl h

theorem State.abortStream_bit (st : Nat) {i j : Nat} (h : bit (s.o i j) 0 = false ∨ okey i j = okey (0x3000 + 64 * c + (0x19 + 5 * st)) 0) :
    bit ((s.abortStream c st).o i j) 0 = false := by
  rw [State.abortStream, State.modSt_o, State.coSet]
  exact State.bit_oSet (bit_setFld_zero _) h.symm

theorem State.abortStream_st (st : Nat) {e t : Nat} (h : ((s.st e t).entries = [] ∧ (s.st e t).gen = none) ∨ c * 8 + st = e * 8 + t) :
    ((s.abortStream c st).st e t).entries = [] ∧ ((s.abortStream c st).st e t).gen = none := by
  by_cases hk : e * 8 + t = c * 8 + st
  · have own : (s.abortStream c st).st e t = (s.abortStream c st).st c st := by rw [State.st, State.st, hk]
    rw [own, State.abortStream, State.st_modSt]
    exact ⟨rfl, rfl⟩
  · have same : (s.abortStream c st).st e t = s.st e t := State.st_modSt_ne _ _ _ _ _ _ hk
    rw [same]
    rcases h with h | h
    · exact h
    · exact absurd h.symm hk

/-- What the first streams of a context show after the walk over them. -/
theorem State.abortStreams_some (n : Nat) : let u := (List.range n).foldl (fun (s : State) st => s.abortStream c st) s
    (∀ i j, bit (s.o i j) 0 = false → bit (u.o i j) 0 = false) ∧ (∀ e, u.ctxOf e = s.ctxOf e) ∧
    (∀ e t, (s.st e t).entries = [] ∧ (s.st e t).gen = none → (u.st e t).entries = [] ∧ (u.st e t).gen = none) ∧
    (∀ t, t < n → u.ringEn c t = false ∧ (u.st c t).entries = [] ∧ (u.st c t).gen = none) := by
  induction n with
  | zero => exact ⟨fun _ _ h => h, fun _ => rfl, fun _ _ h => h, fun t ht => absurd ht (Nat.not_lt_zero t)⟩
  | succ n ih =>
    rw [List.range_succ, List.foldl_append, List.foldl_cons, List.foldl_nil]
    obtain ⟨bits, ctx, sts, done⟩ := ih
    generalize (List.range n).foldl (fun (s : State) st => s.abortStream c st) s = u at bits ctx sts done ⊢
    refine ⟨fun i j h => State.abortStream_bit _ _ _ (.inl (bits i j h)), ctx, fun e t h => State.abortStream_st _ _ _ (.inl (sts e t h)), fun t ht => ?_⟩
    by_cases htn : t = n
    · subst htn
      exact ⟨State.abortStream_bit _ _ _ (.inr rfl), State.abortStream_st _ _ _ (.inr rfl)⟩
    · obtain ⟨ring, rest⟩ := done t (by omega)
      exact ⟨State.abortStream_bit _ _ _ (.inl ring), State.abortStream_st _ _ _ (.inl rest)⟩

/-- An abort of a context stops it. -/
theorem State.abortCtx_stops (hc : c < 64) : (s.abortCtx c).stopped c := by
  obtain ⟨bits, ctx, -, done⟩ := (s.abortEnables c).abortStreams_some c 8
  refine (s.abortCtx_calm c).stopped hc ⟨bits _ _ (State.abortEnables_bit _ _ (.inr (.inl rfl))), bits _ _ (State.abortEnables_bit _ _ (.inr (.inr rfl))), ?_, done⟩
  have own : (s.abortEnables c).ctxOf c = { ((s.coSet c 0 (setFld (s.co c 0) 0 1 0)).coSet c 0x17 0 1).ctxOf c with aborting := true, cmds := [] } := State.ctxOf_modCtx _ _ _
  rw [State.abortStreams, ctx, own]

/-- An abort of a context leaves a stopped one stopped. -/
theorem State.abortCtx_stopped (hd : d < 64) (h : s.stopped d) : (s.abortCtx c).stopped d := by
  obtain ⟨en, bdk, ab, rings⟩ := h
  obtain ⟨bits, ctx, sts, -⟩ := (s.abortEnables c).abortStreams_some c 8
  refine (s.abortCtx_calm c).stopped hd ⟨bits _ _ (State.abortEnables_bit _ _ (.inl en)), bits _ _ (State.abortEnables_bit _ _ (.inl bdk)), ?_, fun st hst => ?_⟩
  · rw [State.abortStreams, ctx]
    by_cases hdc : d = c
    · subst hdc
      rw [State.abortEnables, State.ctxOf_modCtx]
    · rw [State.abortEnables, State.ctxOf_modCtx_ne _ _ _ _ hdc]
      exact ab
  · obtain ⟨ring, rest⟩ := rings st hst
    exact ⟨bits _ _ (State.abortEnables_bit _ _ (.inl ring)), sts d st rest⟩

/-- The power state and ABORT_CMD stay. -/
theorem State.abortCtx_pwr : (s.abortCtx c).pwr = s.pwr := (s.abortCtx_calm c).pwr.trans (foldl_holds (P := fun t : State => t.pwr = s.pwr) rfl fun _ _ h => h)

theorem State.abortCtx_after : (s.abortCtx c).ring.after = s.ring.after :=
  (s.abortCtx_calm c).after.trans (foldl_holds (P := fun t : State => t.ring.after = s.ring.after) rfl fun _ _ h => h)

theorem State.abortCtx_cmd (hc : c < 64) : (s.abortCtx c).o 0xF002 2 = s.o 0xF002 2 := by
  refine ((s.abortCtx_calm c).regs _ _ (by decide)).trans ?_
  have walk : ∀ l : List Nat, (∀ st ∈ l, st < 8) → ∀ u : State, (l.foldl (fun (s : State) st => s.abortStream c st) u).o 0xF002 2 = u.o 0xF002 2 := fun l => by
    induction l with
    | nil => exact fun _ _ => rfl
    | cons st l ih =>
      intro hl u
      have hst := hl st List.mem_cons_self
      rw [List.foldl_cons, ih (fun x hx => hl x (List.mem_cons_of_mem _ hx)), State.abortStream, State.modSt_o]
      exact State.o_oSet_of (by unfold okey; omega)
  refine (walk _ (fun st hst => List.mem_range.mp hst) _).trans ?_
  rw [State.abortEnables, State.modCtx_o, State.coSet, State.o_oSet_of (by unfold okey; omega)]
  exact State.o_oSet_of (by unfold okey; omega)

end

/-- An abort of the contexts of a list stops each of them, keeps the power state and leaves ABORT_CMD. -/
theorem State.abortList (s : State) (cs : List Nat) (hcs : ∀ c ∈ cs, c < 64) : let u := cs.foldl (fun (s : State) c => s.abortCtx c) s
    u.pwr = s.pwr ∧ u.ring.after = s.ring.after ∧ u.o 0xF002 2 = s.o 0xF002 2 ∧ (∀ d, d < 64 → s.stopped d → u.stopped d) ∧ (∀ d ∈ cs, u.stopped d) := by
  induction cs generalizing s with
  | nil => exact ⟨rfl, rfl, rfl, fun _ _ h => h, fun d hd => absurd hd List.not_mem_nil⟩
  | cons c cs ih =>
    have hc := hcs c List.mem_cons_self
    obtain ⟨pwr, after, cmd, keeps, stops⟩ := ih (s.abortCtx c) fun x hx => hcs x (List.mem_cons_of_mem _ hx)
    refine ⟨pwr.trans (s.abortCtx_pwr c), after.trans (s.abortCtx_after c), cmd.trans (s.abortCtx_cmd c hc), fun d hd h => keeps d hd (s.abortCtx_stopped c d hd h), fun d hd => ?_⟩
    rcases List.mem_cons.mp hd with rfl | hd
    · exact keeps d hc (s.abortCtx_stops d hc)
    · exact stops d hd

/-! ## ABORT_CMD -/

/-- The contexts of a mask that a list gives. -/
theorem bit_foldl_or (cs : List Nat) (m d : Nat) : bit (cs.foldl (fun a c => a ||| 2 ^ c) m) d = (bit m d || cs.contains d) := by
  induction cs generalizing m with
  | nil => rw [List.foldl_nil, List.contains_nil, Bool.or_false]
  | cons c cs ih =>
    rw [List.foldl_cons, ih, List.contains_cons, bit_eq_testBit, bit_eq_testBit, Nat.testBit_or, Nat.testBit_two_pow, Bool.or_assoc]
    congr 2
    exact decide_eq_decide.mpr eq_comm

/-- An accepted abort with an enabled context among those aborted (R474). -/
theorem State.abortBegin_busy {s : State} {code : Nat} {cs : List Nat} (h : cs = if code = 1 then [s.o 0xF002 1] else (List.range 64).filter (fun c => s.ctxEn c))
    {c : Nat} (hc : c ∈ cs) (hen : s.ctxEn c = true) :
    s.abortBegin code = cs.foldl (fun (s : State) c => s.abortCtx c) ((s.oSet 0xF002 2 1).modPwr (fun p => { p with abortMask := cs.foldl (fun a c => a ||| 2 ^ c) 0 })) := by
  have loud : ¬cs.all (fun c => !s.ctxEn c && !s.inFlightAny c) = true := fun hall => by
    have := List.all_eq_true.mp hall c hc
    rw [hen] at this
    cases this
  simp only [State.abortBegin]
  rw [← h, if_neg loud]

theorem State.abortCmd_run {s : State} (hr : s.run = true) (hb : s.o 0xF002 2 ≠ 1) {code : Nat} (hcode : code = 1 ∨ code = 2) :
    s.abortCmd code = (0, s.abortBegin code) := by
  have hp := State.run_pstate hr
  rw [State.abortCmd, if_neg hb, if_neg (by omega), if_neg (by omega), if_neg (by omega), State.wakeEvent_of_run hr]

/-- The command of ABORT_CMD in RUN with an enabled context among those aborted. -/
theorem State.abort_write {s : State} (hr : s.run = true) (ha : s.ring.after = 0) (hb : s.o 0xF002 2 ≠ 1) {code : Nat} (hcode : code = 1 ∨ code = 2) {cs : List Nat}
    (h : cs = if code = 1 then [s.o 0xF002 1] else (List.range 64).filter (fun c => s.ctxEn c)) (hcs : ∀ d ∈ cs, d < 64) {c : Nat} (hc : c ∈ cs) (hen : s.ctxEn c = true) :
    let u := s.operWrite 0xF002 2 1 code
    u.o 0xF002 2 = 1 ∧ u.pwr.abortMask = cs.foldl (fun a c => a ||| 2 ^ c) 0 ∧ ∀ d ∈ cs, u.stopped d := by
  have hp := State.run_pstate hr
  have small : code % 256 = code := by omega
  obtain ⟨pwr, after, cmd, -, stops⟩ := ((s.oSet 0xF002 2 1).modPwr (fun p => { p with abortMask := cs.foldl (fun a c => a ||| 2 ^ c) 0 })).abortList cs hcs
  have write : s.operWrite 0xF002 2 1 code = (s.abortBegin code).afterReq := by
    rw [State.operWrite_cmd code (by decide) (by decide) (by decide) (by omega) (.inl (by decide)), small]
    exact congrArg (fun r : Nat × State => r.2.afterReq) (State.abortCmd_run hr hb hcode)
  rw [write, State.abortBegin_busy h hc hen, State.afterReq_of_zero (after.trans ha)]
  rw [State.modPwr_o, State.oSet_o_same] at cmd
  exact ⟨cmd, congrArg PowerSt.abortMask pwr, stops⟩

/-! ## The end of an abort -/

theorem State.abortDone_releasing (s : State) (c : Nat) : (s.abortDone c).o 0xF002 3 = s.o 0xF002 3 := by
  unfold State.abortDone
  refine foldl_holds (P := fun t : State => t.o 0xF002 3 = s.o 0xF002 3) ?_ fun _ _ h => h
  exact State.o_oSet_of (by decide)

/-- The registers of an abort that is complete (R474). -/
theorem State.abortFinish_regs (s : State) (us : Nat) :
    (s.abortFinish us).o 0xF002 2 = 0 ∧ (s.abortFinish us).o 0xF002 4 = us ∧ (s.abortFinish us).pwr.abortMask = 0 ∧
      (s.abortFinish us).o 0xF002 3 = s.o 0xF002 3 ||| s.pwr.abortMask := by
  have done : ((ctxList s.pwr.abortMask).foldl (fun (s : State) c => s.abortDone c) s).o 0xF002 3 = s.o 0xF002 3 :=
    foldl_holds (P := fun t : State => t.o 0xF002 3 = s.o 0xF002 3) rfl fun t c h => (t.abortDone_releasing c).trans h
  have mask : (s.abortFinish us).o 0xF002 3 = ((ctxList s.pwr.abortMask).foldl (fun (s : State) c => s.abortDone c) s).o 0xF002 3 ||| s.pwr.abortMask :=
    (State.o_oSet_of (by decide)).trans (State.oSet_o_same _ _ _ _)
  exact ⟨(State.o_oSet_of (by decide)).trans ((State.o_oSet_of (by decide)).trans (State.oSet_o_same _ _ _ _)), State.oSet_o_same _ _ _ _, rfl, mask.trans (by rw [done])⟩

theorem bit_or (x y n : Nat) : bit (x ||| y) n = (bit x n || bit y n) := by
  rw [bit_eq_testBit, bit_eq_testBit, bit_eq_testBit, Nat.testBit_or]

/-- A context with nothing left to release leaves RELEASING (R478). -/
theorem State.releaseDone_frees {s : State} {c : Nat} (hl : s.live = true) (hc : c < 64) (hb : bit (s.o 0xF002 3) c = true) (hp : s.usagePark c = 0)
    (he : s.usageExt c = 0) (hs : (s.ctxOf c).spill = []) (hm : s.mig.any (fun e => e.2.used && e.2.ctx == c) = false) :
    s.releaseDone c = (s.oSet 0xF002 3 (s.o 0xF002 3 - 2 ^ c)).modCtx c (fun x => { x with aborting := false, spillTail := 0, reloading := false }) := by
  refine if_pos ?_
  rw [hl, decide_eq_true hc, hb, hp, he, hs, hm]
  rfl

/-- Settles O14: the commands of ABORT_CMD, the end of an abort, and the release of a context. -/
theorem aborts : Obligations.Aborts := by
  unfold Obligations.Aborts
  refine fun s => ⟨fun c hr ha hb hc hen => ⟨fun hcur => ?_, ?_⟩, fun us hl hm hq => ?_, fun c hs hl hc hb hp he hsp hmig => ?_⟩
  · obtain ⟨cmd, mask, stops⟩ := State.abort_write hr ha hb (.inl rfl) (cs := [c]) (by rw [if_pos rfl, hcur]) (by simpa only [List.mem_singleton, forall_eq] using hc)
      List.mem_cons_self hen
    refine ⟨_, rfl, cmd, mask.trans ?_, stops c List.mem_cons_self⟩
    rw [List.foldl_cons, List.foldl_nil, Nat.zero_or]
  · have enabled : ∀ {d}, d < 64 → s.ctxEn d = true → d ∈ (List.range 64).filter (fun c => s.ctxEn c) := fun hd h => List.mem_filter.mpr ⟨List.mem_range.mpr hd, h⟩
    obtain ⟨cmd, mask, stops⟩ := State.abort_write hr ha hb (.inr rfl) (cs := (List.range 64).filter (fun c => s.ctxEn c)) (if_neg (by decide)).symm
      (fun d hd => List.mem_range.mp (List.mem_filter.mp hd).1) (enabled hc hen) hen
    refine ⟨_, rfl, cmd, fun d hd => ⟨?_, fun h => stops d (enabled hd h)⟩⟩
    rw [mask, bit_foldl_or, show bit 0 d = false by rw [bit_eq_testBit, Nat.zero_testBit], Bool.false_or]
    cases h : s.ctxEn d with
    | true => exact List.contains_iff_mem.mpr (enabled hd h)
    | false =>
      rw [← Bool.not_eq_true, List.contains_iff_mem, List.mem_filter, h]
      exact fun hmem => Bool.false_ne_true hmem.2
  · have go : s.abortComplete us.toNat = s.abortFinish us.toNat := by
      refine if_pos ?_
      rw [hl, bne_iff_ne.mpr hm, hq]
      rfl
    obtain ⟨cmd, time, mask, releasing⟩ := s.abortFinish_regs us.toNat
    refine ⟨_, congrArg (fun u => Host.Outcome.next (State.settle u)) go, cmd, time, mask, fun c _ => ?_⟩
    rw [releasing, bit_or]
  · have still := ((s.still_iff.mp hs).oSet 0xF002 3 (s.o 0xF002 3 - 2 ^ c)).modCtx c (fun x => { x with aborting := false, spillTail := 0, reloading := false })
    refine ⟨(s.oSet 0xF002 3 (s.o 0xF002 3 - 2 ^ c)).modCtx c (fun x => { x with aborting := false, spillTail := 0, reloading := false }), congrArg Host.Outcome.next ?_,
      State.oSet_o_same _ _ _ _, ?_⟩
    · rw [State.releaseDone_frees hl hc hb hp he hsp hmig, still.settle]
    · rw [State.ctxOf_modCtx]

end Sys2Proof.Machine
end

section
/-! Cold start, warm start and RESET_CMD (R466 to R471). -/

namespace Sys2Proof.Machine

/-! ## What a request to a peer and a change of the guard leave -/

section
variable (s : State)

theorem State.sendPeer_core (q : PeerReq) : (s.sendPeer q).core = s.core := by
  unfold State.sendPeer
  split
  · rfl
  · exact s.sendRing_core _

theorem State.sendPeer_store (q : PeerReq) : (s.sendPeer q).ring.store = s.ring.store := (congrArg (fun u => u.ring.store) (s.sendPeer_core q) :)
theorem State.sendPeer_vreg (q : PeerReq) : (s.sendPeer q).ring.vreg = s.ring.vreg := (congrArg (fun u => u.ring.vreg) (s.sendPeer_core q) :)
theorem State.sendPeer_pwr (q : PeerReq) : (s.sendPeer q).pwr = s.pwr := State.pwr_of_core (s.sendPeer_core q)

theorem State.sendPeer_o (q : PeerReq) {i j : Nat} (h : okey i j ≠ okey 0x1100 5) : (s.sendPeer q).o i j = s.o i j := by
  unfold State.sendPeer
  split
  · rfl
  · exact s.sendRing_o_of _ h

/-- The guard rule leaves all that no cause changes (R455). -/
theorem State.reguard_core : s.reguard.core = s.core := by
  unfold State.reguard
  dsimp only
  split
  · rfl
  · rw [State.stateEvent_core, State.raise_core]
    rfl

/-- The guard rule leaves the registers other than those of the margin. -/
theorem State.reguard_o {i j : Nat} (hi : i ≠ 0x6000) (hj : j < 256) (h : i ≠ 0x1100) (h1 : i ≠ 0x1120) (h2 : i ≠ 0x5800) (h3 : i ≠ 0x5700) :
    s.reguard.o i j = s.o i j := by
  unfold State.reguard
  dsimp only
  split
  · exact s.oSet_o_ne i j 0x6000 _ _ hi hj (by decide)
  · rw [State.stateEvent, State.event_o _ _ hj h h1 h2, State.raise_o _ _ _ _ (by decide) hj h3 h h1 h2]
    exact (State.oSet_o_ne _ i j 0x6000 _ _ hi hj (by decide)).trans (State.oSet_o_ne _ i j 0x6000 _ _ hi hj (by decide))

/-- A request to storage waits for its answer, with its place and length (R422). -/
theorem State.askStore_asks (seg : Nat) (data : Option (List Byte)) :
    (s.askStore seg data).ring.store.map (fun q => (q.write, q.offset, q.len)) = some (data.isSome, 256 * seg, 256) := by
  unfold State.askStore
  dsimp only
  rw [State.sendPeer_store]
  rfl

/-- A set point asked for is a write that waits for its answer (R423). -/
theorem State.askVreg_asks (mv : Nat) : (s.askVreg mv).ring.vreg.map (fun q => q.write) = some true := by
  unfold State.askVreg
  dsimp only
  rw [State.sendPeer_vreg]
  rfl

theorem State.askStore_pwr (seg : Nat) (data : Option (List Byte)) : (s.askStore seg data).pwr = s.pwr := (State.sendPeer_pwr _ _).trans rfl
theorem State.askVreg_pwr (mv : Nat) : (s.askVreg mv).pwr = s.pwr := (State.sendPeer_pwr _ _).trans rfl

theorem State.askStore_o (seg : Nat) (data : Option (List Byte)) {i j : Nat} (h : okey i j ≠ okey 0x1100 5) : (s.askStore seg data).o i j = s.o i j :=
  State.sendPeer_o _ _ h
theorem State.askVreg_o (mv : Nat) {i j : Nat} (h : okey i j ≠ okey 0x1100 5) : (s.askVreg mv).o i j = s.o i j := State.sendPeer_o _ _ h

/-! ## The beginning of a start -/

/-- Whether a start that asks for its kind stays warm (R469). -/
def State.startsWarm (asked : Bool) : Bool := asked && !s.pwr.pwrokFell && s.pwr.eqSaved && !bit (s.o 0xF000 3) 12

/-- A start of a kind that has begun. -/
def State.startOf (asked : Bool) (env : StartEnv) (commanded : Bool) : StartProg :=
  { warm := s.startsWarm asked, env := env, wait := 0, commanded := commanded, askedWarm := asked }

/-- Registers that a start leaves as it begins (R425, R436). -/
def startKeeps (warm : Bool) (k : Nat) : Bool :=
  !(decide (0x5100 ≤ k / 256) && decide (k / 256 < 0x6000) && k / 256 != 0x5700 && k / 256 != 0x5800) &&
    !(!warm && k / 256 == 0x1100 && decide (4 ≤ k % 256))

/-- The state in which a start has begun. -/
def State.begun (g : StartProg) : State :=
  (({ s with obj := s.obj.filter (fun e => startKeeps g.warm e.1) }.oSet 0xF000 1 1).began 0xF000 4).modPwr (fun p => { p with start := some g })

theorem State.startBegin_eq (asked : Bool) (env : StartEnv) (commanded : Bool) :
    s.startBegin asked env commanded = (s.begun (s.startOf asked env commanded)).start1 (s.startOf asked env commanded) := rfl

theorem State.began_o {k l i j : Nat} (h : okey i j ≠ okey k l) : (s.began k l).o i j = s.o i j := by
  unfold State.began
  split
  · exact State.o_oSet_of h
  · rfl

theorem State.began_pwr (k l : Nat) : (s.began k l).pwr = s.pwr := by
  unfold State.began
  split <;> rfl

theorem State.begun_pwr (g : StartProg) : (s.begun g).pwr = { s.pwr with start := some g } := by
  have kept := State.began_pwr ({ s with obj := s.obj.filter (fun e => startKeeps g.warm e.1) }.oSet 0xF000 1 1) 0xF000 4
  exact congrArg (fun p : PowerSt => { p with start := some g }) kept

theorem State.begun_busy (g : StartProg) : (s.begun g).o 0xF000 1 = 1 := by
  rw [State.begun, State.modPwr_o, State.began_o _ (by decide), State.oSet_o_same]

theorem State.begun_o (g : StartProg) {i j : Nat} (hj : j < 256) (hi : i < 0x5100 ∨ 0x6000 ≤ i) (h : i ≠ 0x1100) (h0 : i ≠ 0xF000) : (s.begun g).o i j = s.o i j := by
  have key : okey i j / 256 = i := by unfold okey; omega
  have keeps : startKeeps g.warm (okey i j) = true := by
    have low : (decide (0x5100 ≤ i) && decide (i < 0x6000)) = false := by
      rw [← Bool.decide_and]
      exact decide_eq_false (by omega)
    rw [startKeeps, key, low, beq_false_of_ne h]
    simp only [Bool.false_and, Bool.and_false, Bool.not_false, Bool.and_self]
  have ne : ∀ l, l < 256 → okey i j ≠ okey 0xF000 l := fun l hl => okey_ne h0 hj hl
  rw [State.begun, State.modPwr_o, State.began_o _ (ne 4 (by decide)), State.o_oSet_of (ne 1 (by decide))]
  exact (tget_filter_key (objReset (okey i j)) s.obj (startKeeps g.warm) _).trans (if_pos keeps)

variable {s} {g : StartProg} {env : StartEnv}

/-- Steps 1 to 3 pass (R467). -/
theorem State.start1_passes (hp : s.pwr.pwrok = true) (hr : s.pwr.rstN = true) (ht : s.pwr.tap < 3) (hs : g.env.selfTest = none) (hf : g.env.fuseBlock = none)
    (h0 : s.o 0xF020 3 = 0) : s.start1 g = s.start4 g := by
  have pins : (!s.pwr.pwrok || !s.pwr.rstN) = false := by rw [hp, hr]; rfl
  have tap : ¬3 ≤ s.pwr.tap := by omega
  simp only [State.start1, pins, Bool.false_eq_true, if_false, if_neg tap, hs, hf, h0, if_true]

/-- The state in which a cold start has begun to read the log. -/
def State.logAsked (s : State) (g : StartProg) : State :=
  ((s.modRing (fun r => { r with storeBad := false, store := none, storeQ := [] })).modPwr (fun p => { p with log := [], start := some { g with wait := 4, seg := 0 } })).askStore 0 none

theorem State.start4_cold (hw : g.warm = false) (h : s.o 0x1110 1 ≠ 0xFF) : s.start4 g = s.logAsked g := by
  rw [State.start4, if_neg (by rw [hw]; decide)]
  exact if_neg h

/-- The state in which a warm start has the margin of its plan. -/
def State.warmPlan (s : State) (g : StartProg) : State :=
  (s.modPwr (fun p => { p with nvMax := if g.warm then p.nvMax else (850 - Config.vf) / 5, frozen := g.warm && p.frozen })).reguard

/-- The state in which a start has asked for the set point of its plan. -/
def State.pointAsked (s : State) (g : StartProg) : State :=
  ((s.warmPlan g).modPwr (fun p => { p with start := some { g with wait := 5 } })).askVreg
    (Config.vf + 5 * min ((s.warmPlan g).o 0x6000 4 + (s.warmPlan g).o 0x6000 5) (s.warmPlan g).pwr.nvMax)

theorem State.start4_warm (hw : g.warm = true) (h : s.o 0x1110 3 ≠ 0xFF) : s.start4 g = s.pointAsked g := by
  have vreg : (s.warmPlan g).o 0x1110 3 ≠ 0xFF := by
    rw [State.warmPlan, State.reguard_o _ (by decide) (by decide) (by decide) (by decide) (by decide) (by decide)]
    exact h
  rw [State.start4, if_pos hw, State.start5]
  exact if_neg vreg

/-- START_CMD in HOLD (R471). -/
theorem State.startCmd_begins {code : Nat} (hb : s.o 0xF000 1 ≠ 1) (hp : s.pstate = 1) (hc : code = 1 ∨ code = 2) :
    (s.startCmd code env).2 = s.startBegin (code == 2) env true := by
  rw [State.startCmd, if_neg hb, if_neg (by omega), if_neg (by omega)]

/-- A start in HOLD that passes steps 1 to 3. -/
theorem State.start_reaches4 (hp : s.pwr.pwrok = true) (hr : s.pwr.rstN = true) (ht : s.pwr.tap < 3) (hs : env.selfTest = none) (hf : env.fuseBlock = none)
    (h0 : s.o 0xF020 3 = 0) (asked : Bool) : s.startBegin asked env true = (s.begun (s.startOf asked env true)).start4 (s.startOf asked env true) := by
  rw [State.startBegin_eq]
  refine State.start1_passes ?_ ?_ ?_ hs hf ?_
  · rw [State.begun_pwr]; exact hp
  · rw [State.begun_pwr]; exact hr
  · rw [State.begun_pwr]; exact ht
  · rw [State.begun_o _ _ (by decide) (by decide) (by decide) (by decide)]; exact h0

/-! ## RESET_CMD -/

/-- RST_N asserted leaves AUTO (R465). -/
theorem State.rstAssert_auto (h : s.pwr.vddW = true) : s.rstAssert.o 0xF000 2 = s.o 0xF000 2 := by
  have hold : ∀ u : State, u.toHold.o 0xF000 2 = u.o 0xF000 2 := fun u => by
    unfold State.toHold
    split
    · exact u.loseMain_o (by decide) (by decide)
    · rw [State.enter_o_of _ 1 (by decide) (by decide) (by decide) (by decide) (by decide) (by decide) (by decide), State.o_oSet_of (by decide), State.o_oSet_of (by decide),
        State.o_oSet_of (by decide), State.o_oSet_of (by decide)]
      exact u.loseMain_o (by decide) (by decide)
  have ring : ∀ u : State, u.closeBypass.ringClear.newChallenge.o 0xF000 2 = u.o 0xF000 2 := fun u => by
    show ((u.closeBypass.oSet 0x1100 1 0xFE).oSet 0x1220 3 0xFF).o 0xF000 2 = u.o 0xF000 2
    rw [State.o_oSet_of (by decide), State.o_oSet_of (by decide)]
    rfl
  unfold State.rstAssert
  rw [if_neg (by rw [h]; decide), hold, ring]
  split
  · exact State.o_oSet_of (by decide)
  · rfl

/-- The pulse on RST_N of RESET_CMD gives HOLD without a ring address; AUTO clear begins nothing (R466). -/
theorem State.resetPulse_holds (h : s.pwr.vddW = true) (ha : bit (s.o 0xF000 2) 0 = false) :
    s.resetPulse.pstate = 1 ∧ s.resetPulse.addr = 0xFE ∧ s.resetPulse.pwr.rstN = s.pwr.rstN ∧ s.resetPulse.ring.bypassOpen = false := by
  obtain ⟨rst, hold, addr, bypass⟩ := State.rstAssert_hold h
  cases hr : s.pwr.rstN with
  | false =>
    have self : s.resetPulse = s.rstAssert := by simp only [State.resetPulse, hr, Bool.false_eq_true, if_false]
    rw [self]
    exact ⟨hold, addr, rst, bypass⟩
  | true =>
    have self : s.resetPulse = { s.rstAssert with free := s.rstAssert.free + 1 }.modPwr (fun p => { p with rstN := true }) := by
      simp only [State.resetPulse, hr, if_true, State.rstDeassert]
      split
      · refine State.autoStart_of_off ?_
        rw [← State.rstAssert_auto h] at ha
        exact ha
      · rfl
    rw [self]
    exact ⟨hold, addr, rfl, bypass⟩

theorem State.operWrite_reset (hp : s.pstate ≠ 0) : s.operWrite 0xF001 0 1 1 = (((s.oSet 0xF001 0 0).modRing (fun r => { r with after := 2 })).modRing (fun r => { r with after := 0 })).resetPulse := by
  rw [State.operWrite_cmd 1 (by decide) (by decide) (by decide) hp (.inl (by decide))]
  rfl

end

/-- Settles O9: the states in which a start waits for storage or for the regulator, and the pulse on RST_N. -/
theorem startsAndReset : Obligations.StartsAndReset := by
  unfold Obligations.StartsAndReset
  refine fun s env => ⟨fun hp hb hpw hrst ht hst hf h0 => ⟨fun hstore => ?_, fun hfell heq hfrc hvreg => ?_⟩, fun hv hp ha => ?_⟩
  · have cold : (s.startOf false env true).warm = false := rfl
    have asked : (s.begun (s.startOf false env true)).o 0x1110 1 ≠ 0xFF := by
      rw [State.begun_o _ _ (by decide) (by decide) (by decide) (by decide)]; exact hstore
    have go : (s.startCmd 1 env).2 = (s.begun (s.startOf false env true)).logAsked (s.startOf false env true) := by
      rw [State.startCmd_begins hb hp (.inl rfl), ← State.start4_cold cold asked]
      exact State.start_reaches4 hpw hrst ht hst hf h0 false
    refine ⟨_, congrArg Host.Outcome.next ((if_neg (by omega)).trans (congrArg State.settle go)), ?_, ?_, ?_⟩
    · rw [State.logAsked, State.askStore_o _ _ _ (by decide), State.modPwr_o, State.modRing_o, State.begun_busy]
    · rw [State.logAsked, State.askStore_pwr]
      rfl
    · exact State.askStore_asks _ 0 none
  · have warm : (s.startOf true env true).warm = true := by
      show (true && !s.pwr.pwrokFell && s.pwr.eqSaved && !bit (s.o 0xF000 3) 12) = true
      rw [hfell, heq, hfrc]
      rfl
    have asked : (s.begun (s.startOf true env true)).o 0x1110 3 ≠ 0xFF := by
      rw [State.begun_o _ _ (by decide) (by decide) (by decide) (by decide)]; exact hvreg
    have go : (s.startCmd 2 env).2 = (s.begun (s.startOf true env true)).pointAsked (s.startOf true env true) := by
      rw [State.startCmd_begins hb hp (.inr rfl), ← State.start4_warm warm asked]
      exact State.start_reaches4 hpw hrst ht hst hf h0 true
    refine ⟨_, congrArg Host.Outcome.next ((if_neg (by omega)).trans (congrArg State.settle go)), ?_, ?_⟩
    · rw [State.pointAsked, State.askVreg_pwr]
      rfl
    · exact State.askVreg_asks _ _
  · have quiet : bit ((((s.oSet 0xF001 0 0).modRing (fun r => { r with after := 2 })).modRing (fun r => { r with after := 0 })).o 0xF000 2) 0 = false := by
      rw [State.modRing_o, State.modRing_o, State.o_oSet_of (by decide)]
      exact ha
    exact ⟨_, congrArg (fun u => Host.Outcome.next (State.settle u)) (State.operWrite_reset hp), State.resetPulse_holds hv quiet⟩

end Sys2Proof.Machine
end

section
/-! Enables and quotas (R45, R62 to R66, R246, R287, R288, R323, R325). -/

namespace Sys2Proof.Machine

/-! ## Fields of a masked value -/

theorem fld_and (x m o w : Nat) (h : fld m o w = 2 ^ w - 1) : fld (x &&& m) o w = fld x o w := by
  have split : (x &&& m) / 2 ^ o = x / 2 ^ o &&& m / 2 ^ o := by
    rw [← Nat.shiftRight_eq_div_pow, ← Nat.shiftRight_eq_div_pow, ← Nat.shiftRight_eq_div_pow, Nat.shiftRight_and_distrib]
  rw [fld, fld, split, Nat.and_mod_two_pow]
  unfold fld at h
  rw [h, Nat.and_two_pow_sub_one_eq_mod, Nat.mod_mod]

theorem bit_and (x m n : Nat) : bit (x &&& m) n = (bit x n && bit m n) := by
  rw [bit_eq_testBit, bit_eq_testBit, bit_eq_testBit, Nat.testBit_and]

/-- Clearing one bit by a field of width 1. -/
theorem setFld_clear (x i : Nat) : setFld x i 1 0 = if bit x i = true then x - 2 ^ i else x := by
  have field : fld x i 1 = if bit x i = true then 1 else 0 := by
    unfold fld bit
    simp only [Nat.pow_one, beq_iff_eq]
    split <;> omega
  rw [setFld, field]
  split
  · omega
  · omega

theorem bit_setFld_clear (x i n : Nat) : bit (setFld x i 1 0) n = (bit x n && n != i) := by
  rw [setFld_clear]
  split
  · next h => exact bit_sub_pow h n
  · next h =>
    by_cases hn : n = i
    · subst hn
      rw [bne_self_eq_false, Bool.and_false]
      exact Bool.eq_false_iff.mpr h
    · rw [bne_iff_ne.mpr hn, Bool.and_true]

/-! ## Objects of the context table -/

/-- A row of which every context has one index, or one that no context has. -/
def ObjRow.everyCtx (r : ObjRow) : Bool := (r.step == 64 && decide (0x3000 ≤ r.lo) && decide (r.lo < 0x3040) && r.hi == r.lo + 4032) || decide (r.hi < 0x3000)

theorem ObjRow.everyCtx_hasIdx {r : ObjRow} (h : r.everyCtx = true) {c o : Nat} (hc : c < 64) (ho : o < 64) : r.hasIdx (0x3000 + 64 * c + o) = r.hasIdx (0x3000 + o) := by
  simp only [ObjRow.everyCtx, Bool.or_eq_true, Bool.and_eq_true, beq_iff_eq, decide_eq_true_eq] at h
  rw [Bool.eq_iff_iff]
  simp only [ObjRow.hasIdx, Bool.and_eq_true, decide_eq_true_eq, beq_iff_eq]
  rcases h with ⟨⟨⟨step, lo⟩, lo'⟩, hi⟩ | hi
  · rw [step]
    omega
  · omega

theorem rowsFor_ctx {c o : Nat} (hc : c < 64) (ho : o < 64) : rowsFor (0x3000 + 64 * c + o) = rowsFor (0x3000 + o) := by
  have obj : (0x3000 + 64 * c + o) % 64 = o := by omega
  have obj0 : (0x3000 + o) % 64 = o := by omega
  have low : 0x3000 ≤ 0x3000 + 64 * c + o ∧ 0x3000 + 64 * c + o < 0x4000 := by omega
  have low0 : 0x3000 ≤ 0x3000 + o ∧ 0x3000 + o < 0x4000 := by omega
  simp only [rowsFor, if_pos low, if_pos low0, obj, obj0]

theorem rowsFor_everyCtx {o : Nat} (ho : o < 64) : ∀ r ∈ rowsFor (0x3000 + o), r.everyCtx = true := by
  have all : ∀ k : Fin 64, (rowsFor (0x3000 + k.val)).all ObjRow.everyCtx = true := by decide +kernel
  exact List.all_eq_true.mp (all ⟨o, ho⟩)

/-- A search depends on what its test says of the members of the list alone. -/
theorem find?_agree {α : Type} {p q : α → Bool} {l : List α} (h : ∀ x ∈ l, p x = q x) : l.find? p = l.find? q := by
  induction l with
  | nil => rfl
  | cons x l ih => rw [List.find?_cons, List.find?_cons, h x List.mem_cons_self, ih fun y hy => h y (List.mem_cons_of_mem _ hy)]

/-- Every context has the same objects (R13). -/
theorem objInfo_ctx {c o : Nat} (hc : c < 64) (ho : o < 64) (sub : Nat) : objInfo (0x3000 + 64 * c + o) sub = objInfo (0x3000 + o) sub := by
  have same : (rowsFor (0x3000 + o)).find? (fun r => r.is (0x3000 + 64 * c + o) sub) = (rowsFor (0x3000 + o)).find? (fun r => r.is (0x3000 + o) sub) :=
    find?_agree fun r hr => by rw [ObjRow.is, ObjRow.is, ObjRow.everyCtx_hasIdx (rowsFor_everyCtx ho r hr) hc ho]
  rw [objInfo, objRow?, rowsFor_ctx hc ho, same]
  rfl

theorem objTop_ctx {c o : Nat} (hc : c < 64) (ho : o < 64) : objTop (0x3000 + 64 * c + o) = objTop (0x3000 + o) := by
  have same : (rowsFor (0x3000 + o)).filter (fun r => r.hasIdx (0x3000 + 64 * c + o)) = (rowsFor (0x3000 + o)).filter (fun r => r.hasIdx (0x3000 + o)) :=
    List.filter_congr fun r hr => ObjRow.everyCtx_hasIdx (rowsFor_everyCtx ho r hr) hc ho
  rw [objTop, rowsFor_ctx hc ho, same]
  rfl

/-- What the table says of object o of the contexts. -/
def ctxInfo (o sub : Nat) (info : OTy × Acc × Nat × Nat) : Bool := objInfo (0x3000 + o) sub == some info && (sub != 0 || objTop (0x3000 + o) == 0)

/-- A write of an object of the context table (R13, R45). -/
theorem State.ctxObj_write {s : State} {c o sub n mask : Nat} {acc : Acc} (v : Nat) (hc : c < 64) (ho : o < 64) (info : ctxInfo o sub (.u n, acc, 1, mask) = true) (hacc : acc ≠ .ro)
    (hl : s.live = true) : s.ctxObj c o sub n v = (s.ctxWrite c o sub (v % 256 ^ n &&& mask)).2.afterReq := by
  rw [ctxInfo, ← objInfo_ctx hc ho, ← objTop_ctx hc ho, Bool.and_eq_true, beq_iff_eq, Bool.or_eq_true, bne_iff_ne, beq_iff_eq] at info
  obtain ⟨known, top⟩ := info
  obtain ⟨row, hrow, hty, racc, hlvl, hmask⟩ := objRow_of_info known
  have run : 3 ≤ s.pstate := by
    unfold State.live at hl
    rw [Bool.or_eq_true, beq_iff_eq, beq_iff_eq] at hl
    omega
  have whole : ¬(sub = 0 ∧ 0 < objTop (0x3000 + 64 * c + o)) := by omega
  have which : (0x3000 + 64 * c + o - 0x3000) / 64 = c := by omega
  have object : (0x3000 + 64 * c + o - 0x3000) % 64 = o := by omega
  have ro : ¬row.acc = .ro := by rw [racc]; exact hacc
  rw [State.ctxObj, if_pos hc, State.operWrite_of v hrow hty (by omega) whole (by omega) (.inr run), hmask]
  unfold State.objWrite
  rw [if_neg ro, if_pos (by omega), which, object]

/-- A 32-bit write through a mask of 32 bits. -/
theorem word_mask (v : Word) (m : Nat) : v.toNat % 256 ^ 4 &&& m = v.toNat &&& m := by
  rw [Nat.mod_eq_of_lt (show v.toNat < 256 ^ 4 from v.isLt)]

theorem word_full (v : Word) : v.toNat &&& 4294967295 = v.toNat := by
  rw [show 4294967295 = 2 ^ 32 - 1 from rfl, Nat.and_two_pow_sub_one_eq_mod, Nat.mod_eq_of_lt v.isLt]

section
variable {s : State} {c : Nat} (v : Word) (hc : c < 64) (hl : s.live = true)
include hc hl

theorem State.ctxObj_ctrl : s.ctxObj c 0 0 4 v.toNat = (s.contextEnable c (v.toNat &&& 0xF07)).2.afterReq := by
  rw [State.ctxObj_write v.toNat hc (by decide) (show ctxInfo 0 0 (.u 4, .rw, 1, 0xF07) = true by decide +kernel) (by decide) hl, word_mask]
  rfl

theorem State.ctxObj_park : s.ctxObj c 1 0 4 v.toNat = (s.quotaWrite c 1 v.toNat).2.afterReq := by
  rw [State.ctxObj_write v.toNat hc (by decide) (show ctxInfo 1 0 (.u 4, .rw, 1, 4294967295) = true by decide +kernel) (by decide) hl, word_mask, word_full]
  rfl

theorem State.ctxObj_ext : s.ctxObj c 2 0 4 v.toNat = (s.quotaWrite c 2 v.toNat).2.afterReq := by
  rw [State.ctxObj_write v.toNat hc (by decide) (show ctxInfo 2 0 (.u 4, .rw, 1, 4294967295) = true by decide +kernel) (by decide) hl, word_mask, word_full]
  rfl

theorem State.ctxObj_reserve : s.ctxObj c 3 0 4 v.toNat = (s.quotaWrite c 3 v.toNat).2.afterReq := by
  rw [State.ctxObj_write v.toNat hc (by decide) (show ctxInfo 3 0 (.u 4, .rw, 1, 4294967295) = true by decide +kernel) (by decide) hl, word_mask, word_full]
  rfl

theorem State.ctxObj_bdk : s.ctxObj c 0x17 1 4 v.toNat = (s.bdkCtrl c (v.toNat &&& 1)).2.afterReq := by
  rw [State.ctxObj_write v.toNat hc (by decide) (show ctxInfo 0x17 1 (.u 4, .rw, 1, 1) = true by decide +kernel) (by decide) hl, word_mask]
  rfl

theorem State.ctxObj_ring {st : Nat} (hst : st < 8) : s.ctxObj c (0x19 + 5 * st) 0 4 v.toNat = (s.streamEnable c st (v.toNat &&& 0x31F07)).2.afterReq := by
  have info : ∀ t : Fin 8, ctxInfo (0x19 + 5 * t.val) 0 (.u 4, .rw, 1, 0x31F07) = true := by decide +kernel
  have idx : (0x19 + 5 * st - 0x18) / 5 = st := by omega
  rw [State.ctxObj_write v.toNat hc (by omega) (info ⟨st, hst⟩) (by decide) hl, word_mask]
  unfold State.ctxWrite
  rw [if_neg (by omega), if_neg (by omega), if_neg (by omega), if_neg (by omega), if_neg (by omega), if_neg (by omega), if_neg (by omega), if_neg (by omega), if_pos (by omega)]
  simp only [idx]
  rw [if_neg (by omega), if_pos (by omega)]

end

/-! ## CTX_CTRL and the quotas -/

/-- An enable of a context that is not in use (R64). -/
theorem State.contextEnable_on {s : State} {c v : Nat} (ht : fld v 8 4 = 1) (hen : s.ctxEn c = false) (hu : s.usagePark c = 0) (hr : s.releasing c = false)
    (hf : s.reservesFit c (s.co c 3) = true) : s.contextEnable c v = (0, s.coSet c 0 v) := by
  have free : (bit (s.co c 0) 0 || s.usagePark c != 0) = false := by
    rw [hu]
    exact (Bool.or_false _).trans hen
  simp only [State.contextEnable, free, ht, hr, hf, Bool.and_false, Bool.false_eq_true, if_false, bne_self_eq_false, Bool.not_true, Bool.or_self]

/-- A disable of a context that changes nothing else (R64). -/
theorem State.contextEnable_off {s : State} {c v : Nat} (hold : s.co c 0 = v + 1) (hv : bit v 0 = false) : s.contextEnable c v = (0, s.coSet c 0 v) := by
  have flip : ∀ n, 0 < n → bit (v + 1) n = bit v n := fun n hn => by
    have := bit_add_pow hv n
    rw [Nat.pow_zero, beq_false_of_ne (by omega), Bool.or_false] at this
    exact this
  have field : fld (v + 1) 8 4 = fld v 8 4 := by
    have even : v % 2 = 0 := by
      simp only [bit, Nat.pow_zero, Nat.div_one, beq_eq_false_iff_ne] at hv
      omega
    unfold fld
    rw [show (v + 1) / 2 ^ 8 = v / 2 ^ 8 by omega]
  simp only [State.contextEnable, hold, flip 1 (by decide), flip 2 (by decide), field, beq_self_eq_true, Bool.and_self, Bool.not_true, Bool.false_and, hv,
    Bool.false_eq_true, if_false]

/-! ## BDK_CTRL -/

theorem State.quotaSum_none {s : State} {c : Nat} (h : ∀ k, k < 64 → s.bdkEn k = false) : s.quotaSum c = 0 := by
  have walk : ∀ l : List Nat, (∀ k ∈ l, k < 64) → l.foldl (fun a k => if k ≠ c ∧ s.bdkEn k = true then a + s.bdk k 6 + s.bdk k 7 else a) 0 = 0 := fun l => by
    induction l with
    | nil => exact fun _ => rfl
    | cons k l ih =>
      intro hl
      rw [List.foldl_cons, if_neg (by rw [h k (hl k List.mem_cons_self)]; exact fun hk => Bool.false_ne_true hk.2)]
      exact ih fun x hx => hl x (List.mem_cons_of_mem _ hx)
  exact walk _ fun k hk => List.mem_range.mp hk

/-- The Bodkin of the only context that uses it is enabled (R287). -/
theorem State.bdkCtrl_on {s : State} {c : Nat} (hq : s.bdkQuiet c = true) (hn : ∀ k, k < 64 → s.bdkEn k = false) (hs : s.bdk c 6 + s.bdk c 7 ≤ 262144) :
    s.bdkCtrl c 1 = (0, (s.coSet c 0x17 1 1).modCtx c (fun y => { y with replies := 0, bcred := 0, replyFull := false, cmds := [] })) := by
  have alone : ((List.range 64).any (fun k => k != c && s.bdkEn k &&
      (rangesMeet (s.bdk c 2) (s.bdk c 3) (s.bdk k 2) (s.bdk k 3) || rangesMeet (s.bdk c 4) (s.bdk c 5) (s.bdk k 4) (s.bdk k 5)))) = false :=
    List.any_eq_false.mpr fun k hk => by simp only [hn k (List.mem_range.mp hk), Bool.and_false, Bool.false_and, Bool.false_eq_true, not_false_eq_true]
  have fits : decide (262144 < s.quotaSum c + s.bdk c 6 + s.bdk c 7) = false := by
    rw [State.quotaSum_none hn]
    exact decide_eq_false (by omega)
  simp only [State.bdkCtrl, hq, Bool.not_true, Bool.false_eq_true, if_false, Nat.one_mod, Nat.one_ne_zero, alone, fits, Bool.or_self]

/-! ## Endpoints and caches -/

/-- A row that every endpoint has, or one that none has. -/
def ObjRow.everyEndpoint (r : ObjRow) : Bool := (r.step == 1 && r.lo == 0x2C00 && r.hi == 0x2FFF) || decide (0x3000 ≤ r.lo)

/-- Every endpoint has the same objects (R288). -/
theorem objInfo_endpoint {e : Nat} (he : e < 1024) (sub : Nat) : objInfo (0x2C00 + e) sub = objInfo 0x2C00 sub := by
  have rows : rowsFor (0x2C00 + e) = rowsCtx := by
    unfold rowsFor
    rw [if_neg (by omega), if_pos (by omega)]
  have every : rowsCtx.all ObjRow.everyEndpoint = true := by decide +kernel
  have same : rowsCtx.find? (fun r => r.is (0x2C00 + e) sub) = rowsCtx.find? (fun r => r.is 0x2C00 sub) := find?_agree fun r hr => by
    have hr := List.all_eq_true.mp every r hr
    simp only [ObjRow.everyEndpoint, Bool.or_eq_true, Bool.and_eq_true, beq_iff_eq, decide_eq_true_eq] at hr
    have idx : r.hasIdx (0x2C00 + e) = r.hasIdx 0x2C00 := by
      rw [Bool.eq_iff_iff]
      simp only [ObjRow.hasIdx, Bool.and_eq_true, decide_eq_true_eq, beq_iff_eq]
      rcases hr with ⟨⟨step, lo⟩, hi⟩ | lo
      · rw [step]
        omega
      · omega
    rw [ObjRow.is, ObjRow.is, idx]
  rw [objInfo, objRow?, rows, same]
  rfl

theorem State.endpoint_write {s : State} {e : Nat} (v : Word) (he : e < 1024) (hl : s.live = true) (hv : v.toNat &&& 0x0F073F01 = v.toNat) :
    s.operWrite (0x2C00 + e) 1 4 v.toNat = (s.endpointCtrl e v.toNat).2.afterReq := by
  obtain ⟨row, hrow, hty, hacc, hlvl, hmask⟩ := objRow_of_info ((objInfo_endpoint he 1).trans (show objInfo 0x2C00 1 = some (.u 4, .rw, 1, 0x0F073F01) by decide))
  have run : 3 ≤ s.pstate := by
    unfold State.live at hl
    rw [Bool.or_eq_true, beq_iff_eq, beq_iff_eq] at hl
    omega
  have which : 0x2C00 + e - 0x2C00 = e := by omega
  rw [State.operWrite_of v.toNat hrow hty (by omega) (by omega) (by omega) (.inr run), hmask, word_mask, hv]
  unfold State.objWrite
  rw [if_neg (by rw [hacc]; decide), if_neg (by omega), if_neg (by rw [hacc]; decide), if_neg (by omega), if_neg (by omega), if_pos (by omega), if_pos rfl, which]

theorem State.cache_write {s : State} (v : Word) (hl : s.live = true) : s.operWrite 0x2310 0 4 v.toNat = (s.cacheCtl (v.toNat &&& 3)).2.afterReq := by
  obtain ⟨row, hrow, hty, hacc, hlvl, hmask⟩ := objRow_of_info (show objInfo 0x2310 0 = some (.u 4, .rw, 1, 3) by decide)
  have run : 3 ≤ s.pstate := by
    unfold State.live at hl
    rw [Bool.or_eq_true, beq_iff_eq, beq_iff_eq] at hl
    omega
  rw [State.operWrite_of v.toNat hrow hty (by omega) (by decide) (by omega) (.inr run), hmask, word_mask]
  unfold State.objWrite
  rw [if_neg (by rw [hacc]; decide), if_neg (by decide), if_neg (by rw [hacc]; decide), if_neg (by decide), if_neg (by decide), if_neg (by decide), if_neg (by decide), if_pos rfl]

/-- What is left of an INV bit of a cache (R323). -/
def cacheInv (old v n : Nat) : Nat := if bit old n = true ∧ bit v n = false then 0 else fld old (8 + n) 1

theorem State.cacheCtl_legal {s : State} {v : Nat} (h0 : bit v 0 = true → bit (s.o 0x2310 0) 0 = true ∨ bit (s.o 0x2310 0) 8 = true)
    (h1 : bit v 1 = true → bit (s.o 0x2310 0) 1 = true ∨ bit (s.o 0x2310 0) 9 = true) (hv : v < 4) :
    s.cacheCtl v = (0, s.oSet 0x2310 0 (v + cacheInv (s.o 0x2310 0) v 0 * 256 + cacheInv (s.o 0x2310 0) v 1 * 512)) := by
  have legal : ∀ n, (bit v n = true → bit (s.o 0x2310 0) n = true ∨ bit (s.o 0x2310 0) (8 + n) = true) →
      (bit v n && !bit (s.o 0x2310 0) n && !bit (s.o 0x2310 0) (8 + n)) = false := fun n h => by
    cases hb : bit v n with
    | false => rfl
    | true =>
      rcases h hb with h | h
      · rw [h]; rfl
      · rw [h, Bool.not_true, Bool.and_false]
  have inv : ∀ n, (if (bit (s.o 0x2310 0) n && !bit v n) = true then 0 else fld (s.o 0x2310 0) (8 + n) 1) = cacheInv (s.o 0x2310 0) v n := fun n => by
    simp only [cacheInv, Bool.and_eq_true, Bool.not_eq_true']
  have low : fld v 0 2 = v := by
    unfold fld
    omega
  simp only [State.cacheCtl, legal 0 h0, legal 1 h1, Bool.or_self, Bool.false_eq_true, if_false, inv, low]

/-! ## RING_CTRL -/

/-- A write of a stream that is not enabled, with a legal ring size (R45, R247). -/
theorem State.streamEnable_legal {s : State} {c st v : Nat} (hlo : 6 ≤ fld v 8 5) (hhi : fld v 8 5 ≤ 20) (hoff : s.ringEn c st = false)
    (hf : bit v 0 = true → s.rbFits (s.streamsOn.length + 1) (s.o 0x2410 1) = true) :
    s.streamEnable c st v = (0, if bit v 0 = true then (s.coSet c (0x19 + 5 * st) v).streamReset c st else s.coSet c (0x19 + 5 * st) v) := by
  have old : bit (s.ringCtrl c st) 0 = false := hoff
  have range : ¬(fld v 8 5 < 6 ∨ 20 < fld v 8 5) := by omega
  cases hb : bit v 0 with
  | false => simp only [State.streamEnable, old, hb, if_neg range, Bool.false_and, Bool.false_eq_true, if_false]
  | true => simp only [State.streamEnable, old, hb, if_neg range, hf hb, Bool.false_and, Bool.false_eq_true, if_false, Bool.not_false, Bool.not_true, Bool.and_self, Bool.and_false, if_true]

section
variable (s : State) (c st : Nat)

theorem State.resCtrl_setResBit (i : Nat) : (s.setResBit c st i false).resCtrl c st = setFld (s.resCtrl c st) i 1 0 := State.oSet_o_same _ _ _ _

theorem State.setResBit_st (i : Nat) (v : Bool) (c' st' : Nat) : (s.setResBit c st i v).st c' st' = s.st c' st' := rfl

theorem State.setResBit_after (i : Nat) (v : Bool) : (s.setResBit c st i v).ring.after = s.ring.after := rfl
theorem State.streamReset_after : (s.streamReset c st).ring.after = s.ring.after := by
  rw [State.streamReset, State.setResBit_after, State.setResBit_after]
  rfl

/-- A change of RES_CTRL leaves the context's other objects of subindex 0. -/
theorem State.setResBit_co (hst : st < 8) (i o : Nat) (v : Bool) : (s.setResBit c st i v).co c o = s.co c o :=
  State.o_oSet_of (by unfold okey; omega)

/-- A stream that is enabled starts anew (R45, R246). -/
theorem State.streamReset_starts (hst : st < 8) : let u := s.streamReset c st
    u.redir c st = false ∧ u.rfault c st = false ∧ u.ringCtrl c st = s.ringCtrl c st ∧ u.st c st = (s.st c st).restart (s.destSlot c st) := by
  refine ⟨?_, ?_, ?_, ?_⟩
  · rw [State.redir, State.streamReset, State.resCtrl_setResBit, State.resCtrl_setResBit, bit_setFld_clear, bit_setFld_clear]
    simp only [bne_self_eq_false, Bool.and_false, Bool.false_and]
  · rw [State.rfault, State.streamReset, State.resCtrl_setResBit, bit_setFld_clear, bne_self_eq_false, Bool.and_false]
  · rw [State.ringCtrl, State.streamReset, State.setResBit_co _ _ _ hst, State.setResBit_co _ _ _ hst, State.co, State.modSt_o]
    rfl
  · rw [State.streamReset, State.setResBit_st, State.setResBit_st, State.st_modSt]

end

/-- Settles O25: each write under its conditions. -/
theorem enablesAndQuotas : Obligations.EnablesAndQuotas := by
  unfold Obligations.EnablesAndQuotas
  intro s c st e v hl hs hc hst he
  have still := s.still_iff.mp hs
  have rest : ∀ {u t : State}, u = t.afterReq → t.Still → (Host.Outcome.next u.settle : Out) = .next t := fun h k => by rw [h, k.afterReq, k.settle]
  refine ⟨fun hb ht hen hu hr hf => ?_, fun hen hold hb hm => ?_, fun hlo hhi hen => ?_, fun hlo hres => ?_, fun hlo => ?_, fun hq => ⟨fun hx => ?_, fun hx hn hsum => ?_⟩,
    fun hlo hhi hoff hm hb => ?_, fun hlo hhi hb hoff hm => ?_, fun hlo hhi hb hoff hm hfit => ?_, fun h0 h1 hv => ?_⟩
  · refine rest ?_ (still.oSet _ _ _)
    have ty : fld (v.toNat &&& 0xF07) 8 4 = 1 := (fld_and _ _ _ _ (by decide)).trans ht
    rw [State.ctxObj_ctrl v hc hl, State.contextEnable_on ty hen hu hr hf]
  · refine rest ?_ (still.oSet _ _ _)
    rw [State.ctxObj_ctrl v hc hl, hm, State.contextEnable_off hold hb]
  · refine rest ?_ (still.oSet _ _ _)
    have legal : ¬(v.toNat < 64 ∨ s.co c 1 < v.toNat ∨ s.ctxEn c = true ∧ (!s.reservesFit c v.toNat) = true) := by
      rw [hen]
      simp only [Bool.false_eq_true, false_and, or_false]
      omega
    rw [quotaObj, State.ctxObj_reserve v hc hl, State.quotaWrite, if_neg (by decide), if_neg (by decide), if_neg legal]
  · refine congrArg (fun u => Host.Outcome.next (State.settle u)) ?_
    rw [quotaObj, State.ctxObj_park v hc hl, State.quotaWrite, if_pos rfl, if_neg (by omega)]
  · refine congrArg (fun u => Host.Outcome.next (State.settle u)) ?_
    rw [quotaObj, State.ctxObj_ext v hc hl, State.quotaWrite, if_neg (by decide), if_pos rfl, if_neg (by omega)]
  · refine rest ?_ (still.oSet _ _ _)
    rw [State.ctxObj_bdk v hc hl, hx, State.bdkCtrl, hq]
    rfl
  · refine rest ?_ ((still.oSet _ _ _).modCtx _ _)
    rw [State.ctxObj_bdk v hc hl, hx, show 1 &&& 1 = 1 from rfl, State.bdkCtrl_on hq hn hsum]
  · refine rest ?_ ((still.oSet _ _ _).modEp _ _)
    rw [if_pos he, State.endpoint_write v he hl hm, State.endpointCtrl]
    simp only [hoff, hb, Bool.false_and, Bool.false_eq_true, if_false, Bool.not_false, Bool.and_self, if_true]
    rw [if_neg (by omega)]
  · refine rest ?_ (still.oSet _ _ _)
    rw [if_pos hst, State.ctxObj_ring v hc hl hst, hm, State.streamEnable_legal hlo hhi hoff (by rw [hb]; exact fun h => absurd h Bool.false_ne_true), if_neg (by rw [hb]; decide)]
  · have write : (if st < 8 then s.ctxObj c (0x19 + 5 * st) 0 4 v.toNat else s) = ((s.coSet c (0x19 + 5 * st) v.toNat).streamReset c st).afterReq := by
      rw [if_pos hst, State.ctxObj_ring v hc hl hst, hm, State.streamEnable_legal hlo hhi hoff (fun _ => hfit), if_pos hb]
    have after : ((s.coSet c (0x19 + 5 * st) v.toNat).streamReset c st).afterReq = (s.coSet c (0x19 + 5 * st) v.toNat).streamReset c st :=
      State.afterReq_of_zero ((State.streamReset_after _ _ _).trans still.after)
    have run : exec (.streamEnable c st v) s = .next ((s.coSet c (0x19 + 5 * st) v.toNat).streamReset c st).afterReq.settle :=
      congrArg (fun u => Host.Outcome.next (State.settle u)) write
    obtain ⟨redir, rfault, ring, anew⟩ := (s.coSet c (0x19 + 5 * st) v.toNat).streamReset_starts c st hst
    refine ⟨run, _, by rw [run, after], ?_, redir, rfault, ?_⟩
    · have own : (s.coSet c (0x19 + 5 * st) v.toNat).ringCtrl c st = v.toNat := State.oSet_o_same _ _ _ _
      rw [State.ringEn, ring, own]
      exact hb
    · rw [anew]
      exact ⟨rfl, rfl, rfl, rfl, rfl, rfl⟩
  · refine rest ?_ (still.oSet _ _ _)
    have low : v.toNat &&& 3 = v.toNat := by
      rw [show 3 = 2 ^ 2 - 1 from rfl, Nat.and_two_pow_sub_one_eq_mod, Nat.mod_eq_of_lt hv]
    rw [State.cache_write v hl, low, State.cacheCtl_legal h0 h1 hv]
    rfl

end Sys2Proof.Machine
end

section
/-! CANCEL of streams and the ends of REDIR and RFAULT (R67, R253, R262). -/

namespace Sys2Proof.Machine

/-! ## CANCEL -/

/-- A write of CANCEL (R67). -/
theorem State.ctxObj_cancel {s : State} {c : Nat} (mask : Byte) (hc : c < 64) (hl : s.live = true) (h : s.cancelling c = false) :
    s.ctxObj c 7 0 1 mask.toNat = (s.cancel c mask.toNat).afterReq := by
  have byte : mask.toNat % 256 ^ 1 &&& 255 = mask.toNat := by
    rw [byte_mask, Nat.mod_eq_of_lt mask.isLt]
  have write : s.ctxWrite c 7 0 mask.toNat = (0, s.cancel c mask.toNat) := by
    unfold State.ctxWrite
    rw [if_neg (by decide), if_neg (by decide), if_pos rfl, h]
    rfl
  rw [State.ctxObj_write mask.toNat hc (by decide) (show ctxInfo 7 0 (.u 1, .cmd, 1, 255) = true by decide) (by decide) hl, byte, write]

/-- The mark that a stream of a cancelled context gets. -/
def StreamSt.cancelledUp (x : StreamSt) : StreamSt :=
  { x with cancelTo := if x.next = x.tail then none else some x.tail, gen := x.gen.map (fun g => { g with cancelled := true, ready := true }),
           old := x.old.map (fun r => { r with cancelTo := some r.stop }) }

/-- The queries of a stream that were admitted here. -/
def State.queriesOf (s : State) (c st : Nat) : List Nat := (s.slot.filter (fun e => e.2.qr.ctx == c && e.2.qr.stream == st && e.2.served.isNone)).map (fun e => e.1)

/-- CANCEL of one stream. -/
def State.cancelStream (s : State) (c st : Nat) : State :=
  ((s.modSt c st StreamSt.cancelledUp).queriesOf c st).foldl (fun (s : State) k => s.cancelSlot k) (s.modSt c st StreamSt.cancelledUp)

theorem State.cancel_eq (s : State) (c mask : Nat) : s.cancel c mask = ((List.range 8).filter (fun st => bit mask st)).foldl (fun (s : State) st => s.cancelStream c st) s := rfl

section
variable {s : State} {c : Nat}

theorem State.cancelStream_empty {st : Nat} (h : s.queriesOf c st = []) : s.cancelStream c st = s.modSt c st StreamSt.cancelledUp := by
  have same : (s.modSt c st StreamSt.cancelledUp).queriesOf c st = [] := h
  rw [State.cancelStream, same, List.foldl_nil]

/-- A walk over streams without queries marks them and changes nothing else of the streams. -/
theorem State.cancelStreams_empty (l : List Nat) (h : ∀ st ∈ l, s.queriesOf c st = []) (hl : ∀ st ∈ l, st < 8) :
    let u := l.foldl (fun (s : State) st => s.cancelStream c st) s
    u.slot = s.slot ∧ u.ring.after = s.ring.after ∧ ∀ st, st < 8 → (u.st c st).next = (s.st c st).next ∧ (u.st c st).tail = (s.st c st).tail ∧
      (st ∈ l → (u.st c st).cancelTo = if (s.st c st).next = (s.st c st).tail then none else some (s.st c st).tail) ∧ (st ∉ l → u.st c st = s.st c st) := by
  induction l generalizing s with
  | nil => exact ⟨rfl, rfl, fun st _ => ⟨rfl, rfl, fun hm => absurd hm List.not_mem_nil, fun _ => rfl⟩⟩
  | cons x l ih =>
    rw [List.foldl_cons, State.cancelStream_empty (h x List.mem_cons_self)]
    obtain ⟨slot, after, each⟩ := ih (s := s.modSt c x StreamSt.cancelledUp) (fun st hst => h st (List.mem_cons_of_mem _ hst)) (fun st hst => hl st (List.mem_cons_of_mem _ hst))
    refine ⟨slot, after, fun st hst => ?_⟩
    obtain ⟨next, tail, marked, left⟩ := each st hst
    have hx := hl x List.mem_cons_self
    by_cases hsx : st = x
    · subst hsx
      rw [State.st_modSt] at next tail marked left
      refine ⟨next, tail, fun _ => ?_, fun hm => absurd List.mem_cons_self hm⟩
      by_cases hmem : st ∈ l
      · exact marked hmem
      · rw [left hmem]
        rfl
    · rw [State.st_modSt_ne _ _ _ _ _ _ (by omega)] at next tail marked left
      exact ⟨next, tail, fun hm => marked ((List.mem_cons.mp hm).resolve_left hsx), fun hm => left fun hmem => hm (List.mem_cons_of_mem _ hmem)⟩

/-! ### A query that waits in a bin -/

theorem State.unbin_slot (s : State) (k : Nat) : (s.unbin k).slot = s.slot := by
  have chunk : (s.unchunk [k]).slot = s.slot := by
    unfold State.unchunk
    split <;> rfl
  exact (foldl_holds (P := fun t : State => t.slot = s.slot) chunk fun _ _ h => h)

theorem State.unbin_calm (s : State) (k : Nat) : s.Calm (s.unbin k) := .unbin (.refl s)

/-- What the trace of a query and the draw of an open field leave: the queries, the streams, and the answer to a request. -/
def State.SameQueries (s t : State) : Prop := t.slot = s.slot ∧ t.strm = s.strm ∧ t.ring.after = s.ring.after

theorem State.SameQueries.q {s t : State} (h : s.SameQueries t) (k : Nat) : t.q k = s.q k := by
  rw [State.q, h.1]
  rfl

theorem State.traceFlags_same {k : Nat} (hits : List Hit) (hc : (s.q k).qr.ctx < 64) : s.SameQueries (s.traceFlags k hits) := by
  have one : ∀ (t : State) o n d, s.SameQueries t → s.SameQueries (t.traceWrite k o n d) := fun t o n d ht => by
    obtain ⟨slot, strm, after⟩ := ht
    have wire : t.Wire (t.writeOut (t.q k).qr.ctx ((t.q k).traceAddr + o) (d * 2 ^ (8 * (((t.q k).traceAddr + o) % 64))) ((2 ^ n - 1) * 2 ^ (((t.q k).traceAddr + o) % 64)) false
        (.trace (t.q k).qr.ctx (t.q k).qr.stream) (t.q k).qr.stream) := .writeOut (by rw [State.q, slot]; exact hc) (.refl t)
    exact ⟨wire.slot.trans slot, wire.strm.trans strm, wire.after.trans after⟩
  have walk : ∀ l : List Nat, ∀ f : Nat → Nat, s.SameQueries (l.foldl (fun (s : State) n => s.traceWrite k (32 * n + 0x0B) 1 (f n)) s) := fun l f =>
    foldl_holds (P := s.SameQueries) ⟨rfl, rfl, rfl⟩ fun t n ht => one t _ _ _ ht
  unfold State.traceFlags
  dsimp only
  split
  · exact ⟨rfl, rfl, rfl⟩
  · split
    · exact walk _ _
    · exact one _ _ _ _ (walk _ _)

theorem State.openVal_same (s : State) (c : Nat) (key : List Nat) : s.SameQueries (s.openVal c key).2 := by
  unfold State.openVal
  split
  · exact ⟨rfl, rfl, rfl⟩
  · exact ⟨rfl, rfl, rfl⟩

theorem State.hemPut_slot (s : State) (c st : Nat) (i : HemItem) : (s.hemPut c st i).slot = s.slot ∧ (s.hemPut c st i).ring.after = s.ring.after := by
  have began : ∀ (t : State) k l, (t.began k l).slot = t.slot ∧ (t.began k l).ring.after = t.ring.after := fun t k l => by
    unfold State.began
    split <;> exact ⟨rfl, rfl⟩
  exact ⟨(began _ _ _).1.trans (began _ _ _).1, (began _ _ _).2.trans (began _ _ _).2⟩

theorem State.hemPut_hem (s : State) (c st : Nat) (i : HemItem) : ((s.hemPut c st i).st c st).hem = (s.st c st).hem ++ [i] := by
  have began : ∀ (t : State) k l, (t.began k l).strm = t.strm := fun t k l => by
    unfold State.began
    split <;> rfl
  have same : ((s.began 0x4310 6).began 0x4310 7).st c st = s.st c st := by
    rw [State.st, began, began]
    rfl
  rw [State.hemPut, State.st_modSt, same]

/-- What the Hem gets of a query that is no parent. -/
def State.hemItem (t : State) (k status : Nat) (recs : List Rec) : HemItem :=
  { slot := k, seq := (t.q k).qr.seq, recs := recs, terminal := true, status := status, pos := (t.q k).qr.grainPos (t.q k).genN, frees := true, handle := none,
    genS := (t.q k).qr.genS, desc := (t.q k).desc, dord := (t.q k).dord, flags := (t.q k).qr.rflags / 4 }

/-- A query with a status other than DONE goes to the Hem as no parent (R51, R58). -/
theorem State.toHem_ended (t : State) {k status : Nat} (recs : List Rec) (hs : status ≠ stDone) :
    t.toHem k status recs = (t.modQ k (fun q => { q with place := .hem })).hemPut (t.q k).qr.ctx (t.q k).qr.stream (t.hemItem k status recs) := by
  have parent : ((t.q k).qr.cont && status == stDone) = false := by rw [beq_false_of_ne hs, Bool.and_false]
  simp only [State.toHem, parent, Bool.false_eq_true, if_false, Bool.not_false]
  rfl

/-- The entries of the slots after a change of one query. -/
theorem State.mem_modQ {t : State} {k : Nat} {f : Query → Query} {e : Nat × Query} (he : e ∈ (t.modQ k f).slot) : e ∈ t.slot ∨ e.2 = f (t.q k) := by
  unfold State.modQ tmod tset at he
  split at he
  · exact .inl (List.mem_filter.mp he).1
  · rcases (mem_tins _ _ _ e).mp he with rfl | he
    · exact .inr rfl
    · exact .inl (List.mem_filter.mp he).1

/-- A query that ends with a status other than DONE is with the Hem, its record last of its stream (R58). -/
theorem State.completeEmpty_hem {k status : Nat} (hc : (s.q k).qr.ctx < 64) (hs : status ≠ stDone) : let u := s.completeEmpty k status
    u.q k = { s.q k with place := .hem } ∧ u.ring.after = s.ring.after ∧ (∀ e ∈ u.slot, e ∈ s.slot ∨ e.2 = { s.q k with place := .hem }) ∧
    ((u.st (s.q k).qr.ctx (s.q k).qr.stream).hem.getLast?.map (fun i => (i.slot, i.seq, i.status, i.terminal))) = some (k, (s.q k).qr.seq, status, true) := by
  have drawn := s.openVal_same (s.q k).qr.ctx (s.openKey (s.q k).qr (s.q k).body0 (s.q k).desc (s.q k).genN status)
  obtain ⟨t, recs, put, slot, strm, after⟩ : ∃ (t : State) (recs : List Rec), s.completeEmpty k status = t.toHem k status recs ∧ s.SameQueries t := by
    have traced := State.traceFlags_same (s := (s.openVal (s.q k).qr.ctx (s.openKey (s.q k).qr (s.q k).body0 (s.q k).desc (s.q k).genN status)).2) (k := k) []
      (by rw [drawn.q]; exact hc)
    exact ⟨_, _, rfl, traced.1.trans drawn.1, traced.2.1.trans drawn.2.1, traced.2.2.trans drawn.2.2⟩
  have hq : t.q k = s.q k := State.SameQueries.q ⟨slot, strm, after⟩ k
  rw [put, t.toHem_ended recs hs]
  have kept := (t.modQ k (fun q => { q with place := .hem })).hemPut_slot (t.q k).qr.ctx (t.q k).qr.stream (t.hemItem k status recs)
  refine ⟨?_, kept.2.trans after, fun e he => ?_, ?_⟩
  · have own := t.q_modQ k (fun q => { q with place := .hem })
    rw [State.q] at own ⊢
    rw [kept.1, own, hq]
  · rw [kept.1] at he
    rw [← slot, ← hq]
    exact State.mem_modQ he
  · rw [← hq, State.hemPut_hem, List.getLast?_append]
    rfl

theorem stCancelled_ends : stCancelled ≠ stDone ∧ stCancelled ≠ stAborted ∧ stCancelled ≠ stUnrecovered := by decide

/-- CANCEL of a query that waits in a bin (R67). -/
theorem State.cancelSlot_binned {k : Nat} (hp : (s.q k).place = .binned) (hv : (s.q k).served = none) : s.cancelSlot k = (s.unbin k).completeEmpty k stCancelled := by
  have hq : (s.unbin k).q k = s.q k := by
    rw [State.q, State.unbin_slot]
    rfl
  simp only [State.cancelSlot, hp, State.endSlot, hq, hv, Option.isSome_none, Bool.false_eq_true, if_false, if_neg stCancelled_ends.2.1, if_neg stCancelled_ends.2.2]

/-- CANCEL of the one query of a stream, which waits in a bin. -/
theorem State.cancelStream_binned {k : Nat} {q : Query} (h : s.slot = [(k, q)]) (hp : q.place = .binned) (hv : q.served = none) (hc : q.qr.ctx = c) (hc' : c < 64) :
    let u := s.cancelStream c q.qr.stream
    (u.q k).place = .hem ∧ u.ring.after = s.ring.after ∧ (∀ e ∈ u.slot, e.2.qr.stream = q.qr.stream) ∧
    ((u.st c q.qr.stream).hem.getLast?.map (fun i => (i.slot, i.seq, i.status, i.terminal))) = some (k, q.qr.seq, stCancelled, true) := by
  have marked : (s.modSt c q.qr.stream StreamSt.cancelledUp).slot = [(k, q)] := h
  have hq : (s.modSt c q.qr.stream StreamSt.cancelledUp).q k = q := by
    rw [State.q, marked]
    exact if_pos rfl
  have only : (s.modSt c q.qr.stream StreamSt.cancelledUp).queriesOf c q.qr.stream = [k] := by
    simp only [State.queriesOf, marked, List.filter_cons, hc, hv, beq_self_eq_true, Option.isNone_none, Bool.and_self, if_true, List.filter_nil, List.map_cons, List.map_nil]
  generalize hs : s.modSt c q.qr.stream StreamSt.cancelledUp = s1 at marked hq only
  have after : s1.ring.after = s.ring.after := by rw [← hs]; rfl
  have walk : s.cancelStream c q.qr.stream = (s1.unbin k).completeEmpty k stCancelled := by
    rw [State.cancelStream, hs, only, List.foldl_cons, List.foldl_nil, State.cancelSlot_binned (by rw [hq]; exact hp) (by rw [hq]; exact hv)]
  have hq2 : (s1.unbin k).q k = q := by
    rw [State.q, State.unbin_slot]
    exact hq
  obtain ⟨own, aft, slots, hem⟩ := State.completeEmpty_hem (s := s1.unbin k) (k := k) (status := stCancelled) (by rw [hq2, hc]; exact hc') stCancelled_ends.1
  rw [hq2, hc] at hem
  rw [walk]
  refine ⟨by rw [own], aft.trans ((s1.unbin_calm k).after.trans after), fun e he => ?_, hem⟩
  rcases slots e he with he | he
  · rw [State.unbin_slot, marked, List.mem_singleton] at he
    rw [he]
  · rw [he, hq2]

/-- What stands between two parts of a list without repetition is in neither. -/
theorem middle_of_nodup {α : Type} {x : α} {l r : List α} (h : (l ++ x :: r).Nodup) : x ∉ l ∧ x ∉ r := by
  obtain ⟨-, later, apart⟩ := List.nodup_append.mp h
  exact ⟨fun hx => apart _ hx _ List.mem_cons_self rfl, (List.nodup_cons.mp later).1⟩

/-- A CANCEL of the streams of a mask that holds the stream of the only query. -/
theorem State.cancel_binned {mask k : Nat} {q : Query} (h : s.slot = [(k, q)]) (hp : q.place = .binned) (hv : q.served = none) (hc : q.qr.ctx = c) (hc' : c < 64)
    (hst : q.qr.stream < 8) (hm : bit mask q.qr.stream = true) : let u := s.cancel c mask
    (u.q k).place = .hem ∧ u.ring.after = s.ring.after ∧
    ((u.st c q.qr.stream).hem.getLast?.map (fun i => (i.slot, i.seq, i.status, i.terminal))) = some (k, q.qr.seq, stCancelled, true) := by
  have small : ∀ st ∈ (List.range 8).filter (fun st => bit mask st), st < 8 := fun st hst => List.mem_range.mp (List.mem_filter.mp hst).1
  have distinct : ((List.range 8).filter (fun st => bit mask st)).Nodup := List.nodup_range.filter _
  obtain ⟨l1, l2, split⟩ := List.append_of_mem (List.mem_filter.mpr ⟨List.mem_range.mpr hst, hm⟩)
  rw [split] at small distinct
  obtain ⟨new1, new2⟩ := middle_of_nodup distinct
  rw [State.cancel_eq, split, List.foldl_append, List.foldl_cons]
  have others : ∀ {t : State} {l : List Nat}, q.qr.stream ∉ l → (∀ e ∈ t.slot, e.2.qr.stream = q.qr.stream) → ∀ st ∈ l, t.queriesOf c st = [] := fun hl ht st hmem => by
    refine List.map_eq_nil_iff.mpr (List.filter_eq_nil_iff.mpr fun e he => ?_)
    have ne : q.qr.stream ≠ st := fun heq => hl (by rw [heq]; exact hmem)
    rw [ht e he, beq_false_of_ne ne, Bool.and_false, Bool.false_and]
    exact Bool.false_ne_true
  obtain ⟨slot1, after1, each1⟩ := s.cancelStreams_empty (c := c) l1 (others new1 (by rw [h]; exact fun e he => by rw [List.mem_singleton.mp he]))
    fun st hmem => small st (List.mem_append_left _ hmem)
  generalize l1.foldl (fun (s : State) st => s.cancelStream c st) s = u1 at slot1 after1 each1
  obtain ⟨place, after2, slots, hem⟩ := State.cancelStream_binned (slot1.trans h) hp hv hc hc'
  generalize u1.cancelStream c q.qr.stream = u2 at place after2 slots hem
  obtain ⟨slot3, after3, each3⟩ := u2.cancelStreams_empty (c := c) l2 (others new2 slots) fun st hmem => small st (List.mem_append_right _ (List.mem_cons_of_mem _ hmem))
  obtain ⟨-, -, -, left⟩ := each3 _ hst
  refine ⟨?_, after3.trans (after2.trans after1), ?_⟩
  · rw [State.q, slot3]
    exact place
  · rw [left new2]
    exact hem

/-- A CANCEL of streams without queries (R67). -/
theorem State.cancel_empty (h : s.slot = []) (mask : Nat) : let u := s.cancel c mask
    u.ring.after = s.ring.after ∧ ∀ st, st < 8 → bit mask st = true → (u.st c st).cancelTo = if (s.st c st).next = (s.st c st).tail then none else some (s.st c st).tail := by
  obtain ⟨-, after, each⟩ := s.cancelStreams_empty (c := c) ((List.range 8).filter (fun st => bit mask st)) (fun st _ => by rw [State.queriesOf, h]; rfl)
    fun st hst => List.mem_range.mp (List.mem_filter.mp hst).1
  exact ⟨after, fun st hst hm => (each st hst).2.2.1 (List.mem_filter.mpr ⟨List.mem_range.mpr hst, hm⟩)⟩

end

/-! ## REDIR and RFAULT -/

theorem fld_low (x : Nat) : fld x 0 13 = x % 8192 := by
  unfold fld
  omega

/-- The value written leaves the fields of RES_CTRL and names one W1C bit. -/
theorem resBit_value {x i : Nat} (hx : x &&& 0x31F03 = x) (hi : i = 16 ∨ i = 17) : (fld x 0 13 + 2 ^ i) % 256 ^ 4 &&& 0x31F03 = fld x 0 13 + 2 ^ i := by
  have low : x % 8192 &&& 0x1F03 = x % 8192 := by
    rw [show 0x1F03 = 0x31F03 % 2 ^ 13 from rfl, show (8192 : Nat) = 2 ^ 13 from rfl, ← Nat.and_mod_two_pow, hx]
  have small : (x % 8192 + 2 ^ i) % 256 ^ 4 = 2 ^ i + x % 8192 := by
    rcases hi with rfl | rfl
    · omega
    · omega
  rw [fld_low, small, Nat.add_comm (x % 8192)]
  refine Nat.eq_of_testBit_eq fun n => ?_
  have digits : (x % 8192).testBit n = ((x % 8192).testBit n && Nat.testBit 0x1F03 n) := by
    rw [← Nat.testBit_and, low]
  have lt : x % 8192 < 2 ^ i := by
    rcases hi with rfl | rfl
    · omega
    · omega
  have or_eq : 2 ^ i + x % 8192 = 2 ^ i ||| x % 8192 := by
    have := Nat.two_pow_add_eq_or_of_lt lt 1
    rwa [Nat.mul_one] at this
  rw [or_eq, Nat.testBit_and, Nat.testBit_or, digits, Nat.testBit_two_pow]
  have mask : Nat.testBit 0x31F03 n = (Nat.testBit 0x1F03 n || decide (16 = n) || decide (17 = n)) := by
    rw [show (0x31F03 : Nat) = (0x1F03 ||| 2 ^ 16) ||| 2 ^ 17 from rfl, Nat.testBit_or, Nat.testBit_or, Nat.testBit_two_pow, Nat.testBit_two_pow]
  rw [mask]
  rcases hi with rfl | rfl
  · cases decide (16 = n) <;> cases Nat.testBit 0x1F03 n <;> simp
  · cases decide (17 = n) <;> cases Nat.testBit 0x1F03 n <;> simp

theorem fld_value {x i : Nat} (hi : i = 16 ∨ i = 17) : fld (fld x 0 13 + 2 ^ i) 0 13 = fld x 0 13 := by
  rw [fld_low, fld_low]
  rcases hi with rfl | rfl
  · omega
  · omega

theorem bit_value (x : Nat) {i n : Nat} (hi : 16 ≤ i) (hn : 16 ≤ n) : bit (fld x 0 13 + 2 ^ i) n = (n == i) := by
  have clear : ∀ m, 16 ≤ m → bit (fld x 0 13) m = false := fun m hm => by
    have lt : fld x 0 13 < 2 ^ m := Nat.lt_of_lt_of_le (by rw [fld_low]; omega : fld x 0 13 < 2 ^ 16) (Nat.pow_le_pow_right (by decide) hm)
    rw [bit, Nat.div_eq_of_lt lt]
    rfl
  rw [bit_add_pow (clear i hi), clear n hn, Bool.false_or]

theorem setFld_fld (x o w : Nat) : setFld x o w (fld x o w) = x := by
  have le : fld x o w * 2 ^ o ≤ x := Nat.le_trans (Nat.mul_le_mul_right _ (Nat.mod_le _ _)) (Nat.div_mul_le_self x (2 ^ o))
  rw [setFld, show fld x o w % 2 ^ w = fld x o w from Nat.mod_mod _ _]
  omega

section
variable {s : State} {c st : Nat}

/-- A write of RES_CTRL that leaves its fields and names one W1C bit. -/
theorem State.dlvWrite_bit {i : Nat} (hi : i = 16 ∨ i = 17) : s.dlvWrite c 0x12 st (fld (s.resCtrl c st) 0 13 + 2 ^ i) =
    (0, if i = 16 then (s.coSet c 0x12 (s.resCtrl c st) (1 + st)).redirClear c st else (s.coSet c 0x12 (s.resCtrl c st) (1 + st)).rfaultClear c st) := by
  have bits := fun n => bit_value (s.resCtrl c st) (i := i) (n := n) (by omega)
  rw [State.dlvWrite, if_pos rfl]
  simp only [fld_value hi, ne_eq, not_true_eq_false, false_and, if_false, setFld_fld, bits 16 (by decide), bits 17 (by decide)]
  rcases hi with rfl | rfl
  · rfl
  · rfl

/-- The write of one W1C bit of RES_CTRL (R253, R262). -/
theorem State.resBit_eq {i : Nat} (hc : c < 64) (hst : st < 8) (hl : s.live = true) (hx : s.resCtrl c st &&& 0x31F03 = s.resCtrl c st) (hi : i = 16 ∨ i = 17) :
    s.resBit c st i = (if i = 16 then (s.coSet c 0x12 (s.resCtrl c st) (1 + st)).redirClear c st else (s.coSet c 0x12 (s.resCtrl c st) (1 + st)).rfaultClear c st).afterReq := by
  have info : ∀ t : Fin 8, ctxInfo 0x12 (1 + t.val) (.u 4, .rw, 1, 0x31F03) = true := by decide +kernel
  have write : s.ctxWrite c 0x12 (1 + st) (fld (s.resCtrl c st) 0 13 + 2 ^ i) = s.dlvWrite c 0x12 st (fld (s.resCtrl c st) 0 13 + 2 ^ i) := by
    rw [State.ctxWrite, if_neg (by decide), if_neg (by decide), if_neg (by decide), if_neg (by decide), if_neg (by decide), if_neg (by decide), if_pos (by decide),
      Nat.add_sub_cancel_left]
  rw [State.resBit, if_pos hst, State.ctxObj_write _ hc (by decide) (info ⟨st, hst⟩) (by decide) hl, resBit_value hx hi, write, State.dlvWrite_bit hi]

/-- 1 written to REDIR of a stream in that state (R262). -/
theorem State.redirClear_ends (h : s.redir c st = true) : let u := s.redirClear c st
    u.redir c st = false ∧ u.rfault c st = s.rfault c st ∧ u.ring.after = s.ring.after := by
  rw [State.redirClear, if_pos h]
  refine ⟨?_, ?_, s.setResBit_after c st 16 false⟩
  · rw [State.redir, State.resCtrl_setResBit, bit_setFld_clear, bne_self_eq_false, Bool.and_false]
  · rw [State.rfault, State.resCtrl_setResBit, bit_setFld_clear]
    exact Bool.and_true _

theorem State.modSt_after (f : StreamSt → StreamSt) : (s.modSt c st f).ring.after = s.ring.after := rfl

/-- 1 written to RFAULT of a stream in that state (R253). -/
theorem State.rfaultClear_ends (h : s.rfault c st = true) : let u := s.rfaultClear c st
    u.rfault c st = false ∧ u.redir c st = s.redir c st ∧ (u.st c st).ringFail = none ∧
    (∀ p, (s.st c st).ringFail = some p → (s.st c st).retry = [] → (u.st c st).retry =
      ((s.st c st).ringOut.map (fun y => y.1)).filter (fun y => decide ((p - (s.st c st).prod).toNat ≤ (y - (s.st c st).prod).toNat))) ∧ u.ring.after = s.ring.after := by
  rw [State.rfaultClear, if_pos h]
  have ctrl : ∀ f, ((s.setResBit c st 17 false).modSt c st f).resCtrl c st = setFld (s.resCtrl c st) 17 1 0 := fun f => by
    rw [← State.resCtrl_setResBit, State.resCtrl, State.co, State.modSt_o]
    rfl
  refine ⟨?_, ?_, ?_, fun p hp hr => ?_, ?_⟩
  · rw [State.rfault, ctrl, bit_setFld_clear, bne_self_eq_false, Bool.and_false]
  · rw [State.redir, ctrl, bit_setFld_clear]
    exact Bool.and_true _
  · rw [State.st_modSt]
  · rw [State.st_modSt, hp, hr]
    rfl
  · rw [State.modSt_after, State.setResBit_after]

end

/-- Settles O26: CANCEL stream by stream, and the write that ends REDIR or RFAULT. -/
theorem streamCommands : Obligations.StreamCommands := by
  unfold Obligations.StreamCommands
  refine ⟨fun s c mask hl ha hc hn => ?_, fun s c st hl ha hc hst hx => ?_⟩
  · have run : exec (.cancel c mask) s = .next (s.cancel c mask.toNat).afterReq.settle :=
      congrArg (fun u => (Host.Outcome.next (State.settle u) : Out)) (State.ctxObj_cancel mask hc hl hn)
    refine ⟨run, fun h => (State.cancel_empty h _).2, fun h => ?_, fun k q h hp hv hq hqs hm => ?_⟩
    · obtain ⟨after, marked⟩ := State.cancel_empty (c := c) h mask.toNat
      rw [State.afterReq_of_zero (after.trans ha)] at run
      exact ⟨_, run, marked⟩
    · obtain ⟨place, after, hem⟩ := State.cancel_binned h hp hv hq hc hqs hm
      rw [State.afterReq_of_zero (after.trans ha)] at run
      exact ⟨_, run, place, hem⟩
  · have same : (s.coSet c 0x12 (s.resCtrl c st) (1 + st)).resCtrl c st = s.resCtrl c st := State.oSet_o_same _ _ _ _
    have redir : (s.coSet c 0x12 (s.resCtrl c st) (1 + st)).redir c st = s.redir c st := by rw [State.redir, same]; rfl
    have rfault : (s.coSet c 0x12 (s.resCtrl c st) (1 + st)).rfault c st = s.rfault c st := by rw [State.rfault, same]; rfl
    refine ⟨fun h => ?_, fun h => ?_⟩
    · obtain ⟨clear, other, after⟩ := State.redirClear_ends (redir.trans h)
      refine ⟨_, congrArg (fun u => (Host.Outcome.next (State.settle u) : Out)) ((State.resBit_eq hc hst hl hx (.inl rfl)).trans (State.afterReq_of_zero (after.trans ha))), clear, ?_⟩
      exact other.trans rfault
    · obtain ⟨clear, other, fail, again, after⟩ := State.rfaultClear_ends (rfault.trans h)
      refine ⟨_, congrArg (fun u => (Host.Outcome.next (State.settle u) : Out)) ((State.resBit_eq hc hst hl hx (.inr rfl)).trans (State.afterReq_of_zero (after.trans ha))), clear, ?_, fail, again⟩
      exact other.trans redir

end Sys2Proof.Machine
end

section
/-! The commands of the index table (R98). -/

namespace Sys2Proof.Machine

/-! ## What an invalidation of the node cache leaves -/

namespace State.Calm

variable {s0 s t : State} {b : Nat}

theorem modNc {set : Nat} {f : NcSet → NcSet} (h : s0.Calm s) : s0.Calm (s.modNc b set f) := h.of rfl

theorem oweLine {port line : Nat} (h : s0.Calm s) : s0.Calm (s.oweLine b port line) := .foldl h fun _ _ k => k.of rfl

theorem lockDrop (h : s0.Calm s) : s0.Calm (s.lockDrop b) :=
  .ite (oInc (by omega) (by decide) h) (.raise (by decide) (by decide) (oInc (by omega) (by decide) h))

theorem ncInvalidate {p : Nat → NcWay → Bool} (h : s0.Calm s) : s0.Calm (s.ncInvalidate b p).1 := by
  refine foldl_holds (P := fun acc : State × Nat => s0.Calm acc.1) h fun acc e h1 => foldl_holds (P := fun acc : State × Nat => s0.Calm acc.1) h1 fun acc w h2 => ?_
  dsimp only
  split
  · have cleared : s0.Calm (if w.filling = true then (acc.1.oweLine b w.port w.line).modNc b (e.1 % 1024) (fun x => x.put { w with noKeep := true, valid := 0 })
        else acc.1.modNc b (e.1 % 1024) (fun x => x.clear w)) := .ite (.modNc (.oweLine h2)) (.modNc h2)
    exact .ite cleared.lockDrop cleared
  · exact h2

end State.Calm

/-! ## The commands -/

section
variable {s : State} {c h : Nat}

/-- A write of IDX_CMD (R98). -/
theorem State.ctxObj_idx {code : Nat} (hc : c < 64) (hl : s.live = true) (hcode : code < 256) : s.ctxObj c 8 0 1 code = (s.idxCmd c code).2.afterReq := by
  have byte : code % 256 ^ 1 &&& 255 = code := by
    rw [byte_mask, Nat.mod_eq_of_lt hcode]
  rw [State.ctxObj_write code hc (by decide) (show ctxInfo 8 0 (.u 1, .cmd, 1, 255) = true by decide) (by decide) hl, byte]
  rfl

/-- LOAD of a free handle (R98). -/
theorem State.idxCmd_load (hh : s.co c 9 % 4096 = h) (hb : s.co c 8 ≠ 1) (hl : (s.hndOf h).loading = none) (hst : (s.hndOf h).state = 0) (hph : (s.hndOf h).phase = 0)
    (hal : s.co c 0xA % 64 = 0) : s.idxCmd c 1 =
    (0, ((s.coSet c 8 1).modHnd h (fun x => { x with loading := some c })).startJob (.idxImage c h) c (s.co c 0xA) 128 .rd noWhat) := by
  rw [State.idxCmd, hh]
  simp [hb, hl, hst, hph, hal]

theorem State.coSet_co (o v : Nat) : (s.coSet c o v).co c o = v := State.oSet_o_same _ _ _ _

theorem State.idxDone_calm (status : Nat) : (s.coSet c 8 status).Calm (s.idxDone c status) := by
  unfold State.idxDone
  dsimp only
  split
  · exact .refl _
  · have ended := (State.Calm.refl (s.coSet c 8 status)).modCtx (c := c) (f := fun x => { x with maintFrom := none }) fun _ => rfl
    exact .getD (fun _ e => .sendSeam ended e) ended

theorem calmReg_idx (hc : c < 64) : calmReg (0x3000 + 64 * c + 8) 0 = true := (calmReg_iff _ _).mpr ⟨by decide, by omega, by omega, .inl (by omega)⟩

/-- An index command ends: IDX_CMD reads its status (R98). -/
theorem State.idxDone_co (hc : c < 64) (status : Nat) : (s.idxDone c status).co c 8 = status :=
  ((s.idxDone_calm status).regs _ _ (calmReg_idx hc)).trans (s.coSet_co 8 status)

theorem State.idxDone_hnd (status : Nat) : (s.idxDone c status).hndOf h = s.hndOf h := by
  rw [State.hndOf, (s.idxDone_calm status).hnd]
  rfl

theorem State.residCheck_after : (s.residCheck h).ring.after = s.ring.after := by
  unfold State.residCheck
  dsimp only
  split
  · rfl
  · split
    · exact (congrArg (fun u => u.ring.after) (State.raise_core _ _ _ _) :)
    · rfl

/-- DROP of a handle that holds no query (R98). -/
theorem State.idxDrop_done (hc : c < 64) (t : State) : let u := ((t.pinTrim h 0).modHnd h (fun _ => {})).idxDone c 0
    u.hndOf h = {} ∧ u.co c 8 = 0 ∧ u.ring.after = t.ring.after := by
  refine ⟨?_, State.idxDone_co hc 0, (State.idxDone_calm 0).after.trans ?_⟩
  · rw [State.idxDone_hnd, State.hndOf_modHnd]
  · have after : (((t.pinTrim h 0).modHnd h (fun _ => {})).coSet c 8 0).ring.after = (t.pinTrim h 0).ring.after := rfl
    rw [after, State.pinTrim, State.residCheck_after]
    rfl

end

/-- The lines of the index of REFIT_END: those whose address a window of the context maps into its range (R98). -/
def State.refitLine (s : State) (c port line : Nat) : Bool :=
  (List.range 64).any (fun w =>
    let va := s.win c w 0 + line * 256 - s.win c w 1
    fld (s.win c w 2) 8 5 == port && decide (s.win c w 1 ≤ line * 256) && decide (s.co c 0xA ≤ va) && decide (va < s.co c 0xA + s.co c 0xB) &&
    firstIdx 64 (fun v => s.winCovers c v va) == some w)

/-- REFIT_END has taken the lines of the index from the caches. -/
def State.refitSwept (s : State) (c : Nat) : State :=
  (((List.range 48).foldl (fun (u : State) b => (u.ncInvalidate b (fun _ w => s.refitLine c w.port w.line)).1) (s.coSet c 8 1)).lcSweep
    (fun _ w => s.refitLine c w.port w.line) (fun e => s.refitLine c e.port e.line) false true).1

theorem State.refitSwept_calm (s : State) (c : Nat) : (s.coSet c 8 1).Calm (s.refitSwept c) :=
  .ofWire (.foldl (.refl _) fun _ _ k => .ncInvalidate k) (.lcSweep (.refl _))

/-- Settles O27: IDX_CMD code by code. -/
theorem indexCommands : Obligations.IndexCommands := by
  unfold Obligations.IndexCommands
  intro s c h hl ha hc hh hlt hbusy hload
  have hmod : s.co c 9 % 4096 = h := by rw [hh, Nat.mod_eq_of_lt hlt]
  refine ⟨fun hst hph hal => ?_, fun hown => ⟨fun hst => ?_, fun hst hin => ?_, fun hst hheld => ?_, fun hst ha8 hb8 => ?_⟩⟩
  · refine congrArg (fun u => (Host.Outcome.next (State.settle u) : Out)) ?_
    rw [State.ctxObj_idx hc hl (by decide), State.idxCmd_load hmod hbusy hload hst hph hal]
  · have write : s.ctxObj c 8 0 1 3 = ((s.coSet c 8 1).modHnd h (fun x => { x with state := 2 })).afterReq := by
      rw [State.ctxObj_idx hc hl (by decide), State.idxCmd, hmod]
      simp [hbusy, hload, hst, hown]
    refine ⟨_, congrArg (fun u => (Host.Outcome.next (State.settle u) : Out)) (write.trans (State.afterReq_of_zero ha)), ?_, s.coSet_co 8 1⟩
    rw [State.hndOf_modHnd]
  · have held : s.refitHeld h = (s.modHnd h (fun x => { x with state := 3 })).idxDone c 0 := by
      rw [State.refitHeld, if_pos ⟨hst, hin⟩, hown]
    refine ⟨_, congrArg (fun u => (Host.Outcome.next (State.settle u) : Out)) held, ?_, State.idxDone_co hc 0⟩
    rw [State.idxDone_hnd, State.hndOf_modHnd]
  · have write : s.ctxObj c 8 0 1 2 = ((((s.modTile (fun t => { t with holds := t.holds.filter (fun k => !([] : List Nat).contains k) })).pinTrim h 0).modHnd h (fun _ => {})).idxDone c 0).afterReq := by
      rw [State.ctxObj_idx hc hl (by decide), State.idxCmd, hmod]
      simp [hbusy, hload, hst, hown, hheld]
    obtain ⟨own, idle, after⟩ := State.idxDrop_done (h := h) hc (s.modTile (fun t => { t with holds := t.holds.filter (fun k => !([] : List Nat).contains k) }))
    exact ⟨_, congrArg (fun u => (Host.Outcome.next (State.settle u) : Out)) (write.trans (State.afterReq_of_zero (after.trans ha))), own, idle⟩
  · have write : s.ctxObj c 8 0 1 4 = ((s.refitSwept c).startCopy h c 2).afterReq := by
      rw [State.ctxObj_idx hc hl (by decide), State.idxCmd, hmod]
      simp only [hbusy, hload, hst, hown, ha8, hb8, ne_eq, not_true_eq_false, and_false, Option.isSome_none, Bool.false_eq_true, false_and, or_self, Nat.reduceEqDiff, Nat.lt_irrefl, if_false]
      rfl
    have swept := s.refitSwept_calm c
    exact ⟨_, congrArg (fun u => (Host.Outcome.next (State.settle u) : Out)) write, swept.hnd, (swept.regs _ _ (calmReg_idx hc)).trans (s.coSet_co 8 1)⟩

end Sys2Proof.Machine
end

section
/-! Frames on the ring: relaying, held events and ENUM (R400 to R410, R418, R420). -/

namespace Sys2Proof.Machine

section
variable {s : State} {f : RingFrame}

/-! ## Frames that are received -/

theorem State.frameIn_closed (own : Option (State → State)) (h : s.ring.bypassOpen = false) : s.frameIn f own = s := by
  rw [State.frameIn, h]
  rfl

section
variable (own : Option (State → State)) (hb : s.ring.bypassOpen = true) (hv : s.pwr.vddW = true) (hf : rxFault f = none)
include hb hv hf

/-- An intact frame that the ring interface receives (R400, R408). -/
theorem State.frameIn_open : s.frameIn f own =
    if s.addr ≠ 0xFE ∧ f.src.toNat = s.addr then s
    else if (f.dst.toNat == 0xFF || (s.addr != 0xFE && f.dst.toNat == s.addr)) = true then
      match own with
      | some k => k (s.oInc 0x1100 4)
      | none => if (f.dst.toNat == 0xFF) = true then (s.oInc 0x1100 4).relayRing f else s.oInc 0x1100 4
    else s.relayRing f := by
  rw [State.frameIn, hb, hv, hf]
  rfl

/-- The tile's own frame is stripped (R400). -/
theorem State.frameIn_stripped (ha : s.addr ≠ 0xFE) (hs : f.src.toNat = s.addr) : s.frameIn f own = s := by
  rw [State.frameIn_open own hb hv hf, if_pos ⟨ha, hs⟩]

/-- A frame for another member goes on as it came (R400). -/
theorem State.frameIn_relayed (hs : f.src.toNat ≠ s.addr ∨ s.addr = 0xFE) (hd : f.dst.toNat ≠ s.addr) (hd' : f.dst.toNat ≠ 0xFF) : s.frameIn f own = s.relayRing f := by
  rw [State.frameIn_open own hb hv hf, if_neg (fun mine => hs.elim (fun other => other mine.2) mine.1), beq_false_of_ne hd, beq_false_of_ne hd', Bool.and_false]
  rfl

/-- A broadcast frame (R407). -/
theorem State.frameIn_broadcast (hs : f.src.toNat ≠ s.addr ∨ s.addr = 0xFE) (hd : f.dst = 0xFF) : s.frameIn f own =
    (own.getD (fun t => t.relayRing f)) (s.oInc 0x1100 4) := by
  rw [State.frameIn_open own hb hv hf, if_neg (fun mine => hs.elim (fun other => other mine.2) mine.1), hd]
  cases own with
  | none => rfl
  | some k => rfl

/-- A frame for the tile (R407). -/
theorem State.frameIn_own (k : State → State) (hs : f.src.toNat ≠ s.addr) (ha : s.addr < 64) (hd : f.dst.toNat = s.addr) : s.frameIn f (some k) = k (s.oInc 0x1100 4) := by
  have near : s.addr ≠ 0xFE := by omega
  have far : f.dst.toNat ≠ 0xFF := by omega
  rw [State.frameIn_open _ hb hv hf, if_neg (fun h => hs h.2), beq_false_of_ne far, hd, bne_iff_ne.mpr near, beq_self_eq_true]
  rfl

end

theorem State.relayRing_open (hb : s.ring.bypassOpen = true) : s.relayRing f = { s with out := .ring f :: s.out } := if_pos hb

theorem State.sendRing_open (hb : s.ring.bypassOpen = true) : s.sendRing f = { s.oInc 0x1100 5 with out := .ring (sealFrame f) :: s.out } := if_pos hb

theorem State.frameDiscard_closed (why : RxFault) (hb : s.ring.bypassOpen = false) : s.frameDiscard why = s := by
  unfold State.frameDiscard
  rw [hb]
  exact if_pos rfl

/-- A discarded frame is counted (R408). -/
theorem State.frameDiscard_open (why : RxFault) (hb : s.ring.bypassOpen = true) (hv : s.pwr.vddW = true) : s.frameDiscard why = s.oInc 0x1100 (if why = .crc then 6 else 7) := by
  unfold State.frameDiscard
  rw [hb, hv]
  cases why <;> rfl

/-- An unaddressed tile in the ring announces itself (R410). -/
theorem State.announce_sent (hb : s.ring.bypassOpen = true) (hv : s.pwr.vddW = true) (ha : s.addr = 0xFE) :
    s.announce = { s.sendRing (announceFrame s) with free := s.free + 1 } := if_pos ⟨hb, hv, ha⟩

/-- RELAY of a frame that no other row takes (R400). -/
theorem execRelay_frameIn (h : ¬(s.addr ≠ 0xFE ∧ f.dst.toNat = s.addr ∧ 2 ≤ f.ftype.toNat ∧ f.ftype.toNat ≤ 4)) (hm : membersWrite f = false) (he : (ringBcast f && f.ftype == 1) = false) :
    exec (.relay f) s = .next (s.frameIn f none) := by
  have other : (decide (s.addr ≠ 0xFE) && decide (f.dst.toNat = s.addr) && decide (2 ≤ f.ftype.toNat) && decide (f.ftype.toNat ≤ 4)) = false := by
    rw [← Bool.decide_and, ← Bool.decide_and, ← Bool.decide_and]
    exact decide_eq_false fun k => h ⟨k.1.1.1, k.1.1.2, k.1.2, k.2⟩
  have mine : (decide (s.addr ≠ 0xFE) && decide (f.dst.toNat = s.addr) && decide (2 ≤ f.ftype.toNat) && decide (f.ftype.toNat ≤ 4) || membersWrite f || (ringBcast f && f.ftype == 1)) = false := by
    rw [other, hm, he]
    rfl
  exact congrArg (fun b : Bool => (Host.Outcome.next (if b = true then s else s.frameIn f none) : Out)) mine

end

/-! ## Held events -/

theorem firstIdx_append {α : Type} [Inhabited α] (p : α → Bool) (l r : List α) (x : α) (hx : p x = true) (hl : ∀ y ∈ l, p y = false) :
    firstIdx (l ++ x :: r).length (fun i => p ((l ++ x :: r).getD i default)) = some l.length := by
  rw [firstIdx, List.find?_range_eq_some]
  refine ⟨?_, ?_, fun j hj => ?_⟩
  · rw [List.getD_eq_getElem?_getD, List.getElem?_append_right (Nat.le_refl _), Nat.sub_self]
    exact hx
  · rw [List.mem_range, List.length_append, List.length_cons]
    omega
  · rw [List.getD_eq_getElem?_getD, List.getElem?_append_left hj, List.getElem?_eq_getElem hj, Option.getD_some, hl _ (List.getElem_mem hj)]
    rfl

/-- Settles O30: what the ring interface does with a frame for another, its own and a faulty one, and what it sends of itself. -/
theorem ringFrames : Obligations.RingFrames := by
  unfold Obligations.RingFrames
  refine ⟨fun s f why => ⟨fun hb => ⟨?_, ?_⟩, fun hb hv => ⟨fun hf hd hd' hs => ?_, fun hf hd hd' hs ha => ?_, fun hf hd ht hs ha => ?_, ?_⟩⟩,
    fun s eseq ev before rest hv => ⟨fun hb ha => ?_, fun hb ha => ?_, fun hb hp hr => ?_, fun hb => ?_, fun he hb ha hd => ?_, ?_, fun hp he hk hn => ?_, fun hp hn => ?_⟩⟩
  · have closed : exec (.relay f) s = .next (if _ then s else s.frameIn f none) := rfl
    rw [closed, State.frameIn_closed _ hb, ite_self]
  · exact congrArg Host.Outcome.next (State.frameDiscard_closed why hb)
  · have here : ringBcast f = false := beq_false_of_ne hd'
    rw [execRelay_frameIn (fun k => hd k.2.1) (by rw [membersWrite, here, Bool.and_false]; rfl) (by rw [here]; rfl),
      State.frameIn_relayed none hb hv hf hs hd (fun k => hd' (BitVec.eq_of_toNat_eq k)), State.relayRing_open hb]
  · have here : ringBcast f = false := beq_false_of_ne hd'
    rw [execRelay_frameIn (fun k => hd k.2.1) (by rw [membersWrite, here, Bool.and_false]; rfl) (by rw [here]; rfl), State.frameIn_stripped none hb hv hf ha hs]
  · have ty : ∀ n : BitVec 8, n.toNat < 4 → (f.ftype == n) = false := fun n hn => beq_false_of_ne fun k => by
      rw [k] at ht
      omega
    have far : ¬(s.addr ≠ 0xFE ∧ f.dst.toNat = s.addr ∧ 2 ≤ f.ftype.toNat ∧ f.ftype.toNat ≤ 4) := fun k => ha (by rw [← k.2.1, hd]; rfl)
    rw [execRelay_frameIn far (by rw [membersWrite, ty 3 (by decide)]; rfl) (by rw [ty 1 (by decide), Bool.and_false]), State.frameIn_broadcast none hb hv hf hs hd]
    exact congrArg Host.Outcome.next (State.relayRing_open (s := s.oInc 0x1100 4) hb)
  · exact congrArg Host.Outcome.next (State.frameDiscard_open why hb hv)
  · refine ⟨_, congrArg Host.Outcome.next (State.announce_sent hb hv ha), ?_, ?_, ?_⟩
    · rw [State.sendRing_open hb]
    · rw [State.sendRing_open hb]
      rfl
    · exact (s.sendRing_o_of _ (by decide)).trans ha
  · exact congrArg Host.Outcome.next (if_neg fun k => ha k.2.2)
  · have opened : s.bypassGo = ((s.modRing (fun r => { r with bypassOpen := true })).oSet 0x1100 1 0xFE).announce := by
      rw [State.bypassGo, hv, hp, hr, hb]
      rfl
    have addr : ((s.modRing (fun r => { r with bypassOpen := true })).oSet 0x1100 1 0xFE).addr = 0xFE := State.oSet_o_same _ _ _ _
    generalize ht : (s.modRing (fun r => { r with bypassOpen := true })).oSet 0x1100 1 0xFE = t at opened addr
    have topen : t.ring.bypassOpen = true := by rw [← ht]; rfl
    have tpwr : t.pwr = s.pwr := by rw [← ht]; rfl
    have tout : t.out = s.out := by rw [← ht]; rfl
    rw [State.announce_sent topen (by rw [tpwr]; exact hv) addr] at opened
    refine ⟨_, congrArg Host.Outcome.next opened, ?_, ?_, ?_⟩
    · rw [State.sendRing_open topen]
      exact topen
    · exact (t.sendRing_o_of _ (by decide)).trans addr
    · rw [State.sendRing_open topen, tout]
      exact List.cons_ne_self _ _
  · refine congrArg Host.Outcome.next (if_neg ?_)
    rw [hb]
    exact fun k => Bool.false_ne_true k.2.2.2
  · have sent : s.evtResend = { s.sendRing (eventFrame s ev) with free := s.free + 1 } := by
      rw [State.evtResend, if_pos hv, State.sendHeld, he, List.foldl_cons, List.foldl_nil, State.sendEvent, if_neg]
      omega
    refine ⟨_, congrArg Host.Outcome.next sent, ?_, ?_⟩
    · rw [State.sendRing_open hb]
    · rw [State.sendRing_open hb]
      exact he
  · exact congrArg Host.Outcome.next (if_pos hv)
  · have held : firstIdx s.ring.events.length (fun i => (s.ring.events.getD i default).1.toNat == eseq.toNat) = some before.length := by
      rw [he]
      exact firstIdx_append (fun e => e.1.toNat == eseq.toNat) before rest ev (by rw [hk]; exact beq_self_eq_true _)
        fun y hy => beq_false_of_ne fun k => hn y hy (BitVec.eq_of_toNat_eq k)
    have acked : s.evtAck eseq.toNat = (s.oSet 0x1120 2 eseq.toNat).modRing (fun r => { r with events := r.events.drop (before.length + 1) }) := by
      rw [State.evtAck, held]
    refine ⟨_, congrArg Host.Outcome.next ((if_neg hp).trans acked), ?_, State.oSet_o_same _ _ _ _⟩
    show s.ring.events.drop (before.length + 1) = rest
    rw [he, List.drop_append, List.drop_of_length_le (by omega), Nat.add_sub_cancel_left]
    rfl
  · have none : firstIdx s.ring.events.length (fun i => (s.ring.events.getD i default).1.toNat == eseq.toNat) = none := by
      rw [firstIdx, List.find?_eq_none]
      intro i hi
      rw [List.mem_range] at hi
      rw [List.getD_eq_getElem?_getD, List.getElem?_eq_getElem hi, Option.getD_some]
      exact fun k => hn _ (List.getElem_mem hi) (BitVec.eq_of_toNat_eq (eq_of_beq k))
    refine congrArg Host.Outcome.next ((if_neg hp).trans ?_)
    rw [State.evtAck, none]

/-! ## What sending leaves -/

/-- From s to t the tile has sent frames and named its peer requests anew. -/
structure State.Sent (s t : State) : Prop where
  core : t.core = (s.modRing (fun r => { r with store := t.ring.store, vreg := t.ring.vreg, nextTid := t.ring.nextTid })).core
  events : t.ring.events = s.ring.events
  regs : ∀ i j, okey i j ≠ okey 0x1100 5 → t.o i j = s.o i j

/-- The first half of `State.resendPeers`: the request to the store. -/
def State.resendStore (s : State) : State :=
  match s.ring.store with
  | some q =>
    let q' := { q with tid := s.ring.nextTid, dst := BitVec.ofNat 8 (s.o 0x1110 1) }
    (s.modRing (fun r => { r with store := some q', nextTid := r.nextTid + 1 })).sendPeer q'
  | none => s

theorem State.resendPeers_eq (s : State) : s.resendPeers =
    match s.resendStore.ring.vreg with
    | some q =>
      let q' := { q with tid := s.resendStore.ring.nextTid, dst := BitVec.ofNat 8 (s.resendStore.o 0x1110 3) }
      (s.resendStore.modRing (fun r => { r with vreg := some q', nextTid := r.nextTid + 1 })).sendPeer q'
    | none => s.resendStore := rfl

namespace State.Sent

variable {s0 s t : State}

theorem refl (s : State) : s.Sent s := ⟨rfl, rfl, fun _ _ _ => rfl⟩

theorem trans (h : s0.Sent s) (k : s.Sent t) : s0.Sent t := by
  refine ⟨k.core.trans ?_, k.events.trans h.events, fun i j n => (k.regs i j n).trans (h.regs i j n)⟩
  have step := congrArg (fun u => State.core (u.modRing (fun r => { r with store := t.ring.store, vreg := t.ring.vreg, nextTid := t.ring.nextTid }))) h.core
  exact step

theorem relayRing {f : RingFrame} (h : s0.Sent s) : s0.Sent (s.relayRing f) := by
  refine h.trans ?_
  unfold State.relayRing
  split
  · exact ⟨rfl, rfl, fun _ _ _ => rfl⟩
  · exact .refl s

theorem sendRing {f : RingFrame} (h : s0.Sent s) : s0.Sent (s.sendRing f) := by
  refine h.trans ⟨?_, ?_, fun _ _ n => s.sendRing_o_of f n⟩
  · unfold State.sendRing
    split
    · rfl
    · rfl
  · unfold State.sendRing
    split
    · rfl
    · rfl

theorem sendEvent {ev : BitVec 16 × List Byte} (h : s0.Sent s) : s0.Sent (s.sendEvent ev) := by
  unfold State.sendEvent
  split
  · exact h
  · exact (h.sendRing (f := eventFrame s ev)).trans ⟨rfl, rfl, fun _ _ _ => rfl⟩

theorem sendHeld (h : s0.Sent s) : s0.Sent s.sendHeld := foldl_holds h fun _ _ h1 => h1.sendEvent

theorem sendPeer {q : PeerReq} (h : s0.Sent s) : s0.Sent (s.sendPeer q) := by
  unfold State.sendPeer
  split
  · exact h
  · exact h.sendRing

/-- The outstanding peer requests are named anew (R404). -/
theorem setPeers (a b : Option PeerReq) (n : BitVec 8) (h : s0.Sent s) : s0.Sent (s.modRing (fun r => { r with store := a, vreg := b, nextTid := n })) :=
  h.trans ⟨rfl, rfl, fun _ _ _ => rfl⟩

theorem resendStore (h : s0.Sent s) : s0.Sent s.resendStore := by
  unfold State.resendStore
  split
  · exact (h.setPeers _ s.ring.vreg _).sendPeer
  · exact h

theorem resendPeers (h : s0.Sent s) : s0.Sent s.resendPeers := by
  rw [State.resendPeers_eq]
  split
  · exact (h.resendStore.setPeers s.resendStore.ring.store _ _).sendPeer
  · exact h.resendStore

theorem still (h : s.Sent t) (k : s.Still) : t.Still :=
  State.Still.of_core (s := s.modRing (fun r => { r with store := t.ring.store, vreg := t.ring.vreg, nextTid := t.ring.nextTid }))
    ⟨k.due, k.lcWait, k.goes, k.lossWait, k.keyWait, k.idle, k.queue, k.after⟩ h.core

end State.Sent

/-! ## ENUM -/

section
variable {s : State} {f : RingFrame} {v : Byte}

/-- Without held events and peer requests the new address sends nothing (R404, R420). -/
theorem State.resend_nothing (he : s.ring.events = []) (hs : s.ring.store = none) (hv : s.ring.vreg = none) : s.sendHeld.resendPeers = s := by
  have held : s.sendHeld = s := by
    rw [State.sendHeld, he]
    rfl
  rw [held, State.resendPeers, hs, hv]

theorem State.relay_alone (hb : s.ring.bypassOpen = true) (he : s.ring.events = []) (hs : s.ring.store = none) (hv : s.ring.vreg = none) :
    (s.relayRing f).sendHeld.resendPeers.out = .ring f :: s.out := by
  have ring : (s.relayRing f).ring = s.ring := by rw [State.relayRing_open hb]
  rw [State.resend_nothing (by rw [ring]; exact he) (by rw [ring]; exact hs) (by rw [ring]; exact hv), State.relayRing_open hb]

/-- What an ENUM clears (R409). -/
def State.enumCleared (s : State) : State := ((s.oSet 0x1100 3 0).oSet 0x1220 3 0xFF).modRing (fun r => { r with dup := [] })

theorem State.enumCleared_o (s : State) (i j : Nat) : s.enumCleared.o i j = ((s.oSet 0x1100 3 0).oSet 0x1220 3 0xFF).o i j := rfl

theorem State.enumCleared_out (s : State) : s.enumCleared.out = s.out := rfl

theorem State.enum_high (hd : f.data = [v]) (h : 63 < v.toNat) : s.enum f = (s.enumCleared.oSet 0x1100 1 0xFE).relayRing f := by
  have high : 63 < (f.data.headD 0).toNat := by rw [hd]; exact h
  exact if_pos high

theorem State.enum_low (hd : f.data = [v]) (h : v.toNat ≤ 63) : s.enum f =
    ((s.enumCleared.oSet 0x1100 1 v.toNat).relayRing (sealFrame { f with data := [v + 1] })).sendHeld.resendPeers := by
  have next : BitVec.ofNat 8 (v.toNat + 1) = v + 1 := by bv_omega
  have low : ¬63 < (f.data.headD 0).toNat := by rw [hd]; exact Nat.not_lt.mpr h
  rw [State.enum, if_neg low, hd, ← next]
  rfl

/-- After an ENUM has given an address (R409). -/
theorem State.enumCleared_sent {t : State} {n : Nat} (h : (s.enumCleared.oSet 0x1100 1 n).Sent t) :
    t.o 0x1100 3 = 0 ∧ t.o 0x1220 3 = 0xFF ∧ t.ring.dup = [] ∧ t.ring.events = s.ring.events ∧ t.o 0x1120 3 = s.o 0x1120 3 ∧ t.o 0x1100 4 = s.o 0x1100 4 ∧ t.addr = n := by
  have left : ∀ i j, okey i j ≠ okey 0x1100 5 → okey i j ≠ okey 0x1100 1 → okey i j ≠ okey 0x1220 3 → okey i j ≠ okey 0x1100 3 → t.o i j = s.o i j := fun i j h1 h2 h3 h4 =>
    (h.regs i j h1).trans ((State.o_oSet_of h2).trans ((s.enumCleared_o i j).trans ((State.o_oSet_of h3).trans (State.o_oSet_of h4))))
  refine ⟨?_, ?_, (congrArg (fun u => u.ring.dup) h.core :), h.events, left _ _ (by decide) (by decide) (by decide) (by decide),
    left _ _ (by decide) (by decide) (by decide) (by decide), (h.regs _ _ (by decide)).trans (State.oSet_o_same _ _ _ _)⟩
  · exact (h.regs _ _ (by decide)).trans ((State.o_oSet_of (by decide)).trans ((s.enumCleared_o _ _).trans ((State.o_oSet_of (by decide)).trans (State.oSet_o_same _ _ _ _))))
  · exact (h.regs _ _ (by decide)).trans ((State.o_oSet_of (by decide)).trans ((s.enumCleared_o _ _).trans (State.oSet_o_same _ _ _ _)))

theorem State.Still.enumCleared (h : s.Still) : s.enumCleared.Still := ⟨h.due, h.lcWait, h.goes, h.lossWait, h.keyWait, h.idle, h.queue, h.after⟩

end

/-- Settles O31: what an ENUM clears, the address it gives, and the frame passed on. -/
theorem enumeration : Obligations.Enumeration := by
  unfold Obligations.Enumeration
  intro s f v hb hv hs hf hd hsrc hdata
  have still := s.still_iff.mp hs
  refine ⟨fun ht => ?_, fun ht hi hsub hsr hl ha => ?_⟩
  · have heard : exec (.ringEnum f) s = .next ((s.oInc 0x1100 4).enum f).settle := by
      have row : s.ringRow f 1 (if ringBcast f = true then some (fun t : State => t.enum f) else none) = (s.oInc 0x1100 4).enum f := by
        rw [State.ringRow, if_pos ht, ringBcast, hd, State.frameIn_broadcast _ hb hv hf hsrc hd]
        rfl
      exact congrArg (fun u => (Host.Outcome.next (State.settle u) : Out)) row
    have cleared := (still.oInc 0x1100 4).enumCleared
    have count : (s.oInc 0x1100 4).o 0x1100 4 = (s.o 0x1100 4 + 1) % 2 ^ 64 := State.oSet_o_same _ _ _ _
    have other : (s.oInc 0x1100 4).o 0x1120 3 = s.o 0x1120 3 := State.o_oSet_of (by decide)
    rcases Nat.lt_or_ge 63 v.toNat with high | low
    · rw [State.enum_high hdata high] at heard
      have sent := (State.Sent.refl ((s.oInc 0x1100 4).enumCleared.oSet 0x1100 1 0xFE)).relayRing (f := f)
      rw [(sent.still (cleared.oSet _ _ _)).settle] at heard
      obtain ⟨members, unlock, dup, events, eseq, rx, addr⟩ := State.enumCleared_sent sent
      refine ⟨_, heard, members, unlock, dup, events, eseq.trans other, rx.trans count, fun h => absurd high (Nat.not_lt.mpr h), fun _ => ⟨addr, ?_⟩⟩
      have opened : ((s.oInc 0x1100 4).enumCleared.oSet 0x1100 1 0xFE).ring.bypassOpen = true := hb
      rw [State.relayRing_open opened, State.oSet_out, State.enumCleared_out, State.oInc_out]
    · rw [State.enum_low hdata low] at heard
      have relayed := (State.Sent.refl ((s.oInc 0x1100 4).enumCleared.oSet 0x1100 1 v.toNat)).relayRing (f := sealFrame { f with data := [v + 1] })
      have sent := relayed.sendHeld.resendPeers
      rw [(sent.still (cleared.oSet _ _ _)).settle] at heard
      obtain ⟨members, unlock, dup, events, eseq, rx, addr⟩ := State.enumCleared_sent sent
      refine ⟨_, heard, members, unlock, dup, events, eseq.trans other, rx.trans count, fun _ => ⟨addr, fun he hst hvr => ?_⟩, fun h => absurd h (Nat.not_lt.mpr low)⟩
      have opened : ((s.oInc 0x1100 4).enumCleared.oSet 0x1100 1 v.toNat).ring.bypassOpen = true := hb
      rw [State.relay_alone opened he hst hvr, State.oSet_out, State.enumCleared_out, State.oInc_out]
  · have row : (if membersWrite f = true then s.ringRow f 3 (some (fun t : State => t.members f)) else s) =
        { (s.oInc 0x1100 4).oSet 0x1100 3 v.toNat with out := .ring f :: s.out } := by
      have mine : membersWrite f = true := by
        rw [membersWrite, ringBcast, ht, hd, hi, hsub]
        rfl
      have same : (s.oInc 0x1100 4).addr = s.addr := State.o_oSet_of (by decide)
      have addr : (s.oInc 0x1100 4).addr ≠ 0xFE := by
        rw [same]
        exact ha
      have opened : ((s.oInc 0x1100 4).oSet 0x1100 3 v.toNat).ring.bypassOpen = true := hb
      rw [if_pos mine, State.ringRow, if_pos ht, State.frameIn_broadcast _ hb hv hf hsrc hd, Option.getD_some, State.members, if_pos ⟨addr, hsr, hl⟩, hdata]
      exact State.relayRing_open opened
    have quiet : State.Still { (s.oInc 0x1100 4).oSet 0x1100 3 v.toNat with out := .ring f :: s.out } := ((still.oInc 0x1100 4).oSet 0x1100 3 v.toNat).of_core rfl
    refine (congrArg (fun u => (Host.Outcome.next (State.settle u) : Out)) row).trans ?_
    rw [quiet.settle]

end Sys2Proof.Machine
end

section
/-! READ and WRITE requests of the ring (R413 to R415). -/

namespace Sys2Proof.Machine

section
variable {s : State} {f : RingFrame}

/-! ## The queue of the Tailor -/

theorem State.modRing_queue (h : s.ring.queue = []) : (s.modRing (fun r => { r with queue := [] })) = s := by
  have ring : { s.ring with queue := [] } = s.ring := by rw [← h]
  show { s with ring := { s.ring with queue := [] } } = s
  rw [ring]

theorem State.serveQueue_ring (n : Nat) {rest : List TReq} (h : s.ring.queue = .ring f :: rest) :
    State.serveQueue (n + 1) s = State.serveQueue n ((s.modRing (fun r => { r with queue := rest })).serveRing f) := by
  rw [State.serveQueue, h]
  rfl

/-- A request that finds nothing before it is served in the step of its arrival (R415). -/
theorem State.ringRequest_served (hd : s.ring.dup.find? (fun d => d.1 == f.src.toNat && d.2.1 == f.tid.toNat) = none) (hq : s.ring.queue = [])
    (hs : (s.serveRing f).ring.queue = []) : s.ringRequest f = s.serveRing f := by
  have room : ¬8 ≤ s.ring.queue.length := by rw [hq]; decide
  have queue : (s.modRing (fun r => { r with queue := r.queue ++ [.ring f] })).ring.queue = [.ring f] := congrArg (· ++ [TReq.ring f]) hq
  have taken : (s.modRing (fun r => { r with queue := r.queue ++ [.ring f] })).modRing (fun r => { r with queue := [] }) = s := State.modRing_queue hq
  rw [State.ringRequest, hd]
  dsimp only
  rw [if_neg room, State.tailor, queue, State.serveQueue_ring _ queue, taken, List.length_singleton, State.serveQueue, hs]

/-- A request that is repeated gets the kept answer (R415). -/
theorem State.ringRequest_repeated {g : RingFrame} {d : Nat × Nat × RingFrame} (hd : s.ring.dup.find? (fun d => d.1 == f.src.toNat && d.2.1 == f.tid.toNat) = some d) (hg : d.2.2 = g) :
    s.ringRequest f = (s.oInc 0x1100 0xB).sendRing g := by
  rw [State.ringRequest, hd, ← hg]

/-- A request that finds the queue full (R415). -/
theorem State.ringRequest_full (hd : s.ring.dup.find? (fun d => d.1 == f.src.toNat && d.2.1 == f.tid.toNat) = none) (hq : 8 ≤ s.ring.queue.length) :
    s.ringRequest f = (s.oInc 0x1100 8).sendRing (respTo s f 0x84 []) := by
  rw [State.ringRequest, hd]
  exact if_pos hq

/-! ## Reading -/

/-- What the checks of an access leave: nothing, or a denied source (R417). -/
theorem State.access_state (src : Src) (idx sub : Nat) : (s.access src idx sub).2 = s ∨ (s.access src idx sub).2 = s.deny src := by
  unfold State.access
  dsimp only
  split
  · split <;> split <;> exact .inl rfl
  · split
    · split
      · exact .inr rfl
      · exact .inl rfl
    · split
      · exact .inr rfl
      · split <;> split <;> exact .inl rfl

theorem State.freeObj_ring (n : Nat) : (s.freeObj n).2.ring = s.ring := rfl

theorem State.dictRead_ring (row : ObjRow) (idx sub : Nat) : (s.dictRead row idx sub).2.ring = s.ring := by
  unfold State.dictRead
  split
  · rfl
  · split
    · split
      · rfl
      · exact State.freeObj_ring _
    · split
      · rfl
      · split
        · rfl
        · split
          · rfl
          · rfl

theorem State.deny_ring (src : Src) : (s.deny src).ring.queue = s.ring.queue ∧ (s.deny src).ring.after = s.ring.after := by
  unfold State.deny
  dsimp only
  generalize (if bit (s.o 0x5800 1) 1 = true then s.ring.denied else []) = old
  split
  · exact ⟨rfl, rfl⟩
  · have core := (s.modRing (fun r => { r with denied := src.what :: old })).raise_core 0x5800 1 src.what
    exact ⟨(congrArg (fun u => u.ring.queue) core :), (congrArg (fun u => u.ring.after) core :)⟩

/-- A read leaves the queue and asks for no reset. -/
theorem State.readReq_ring (src : Src) (idx sub off len : Nat) :
    (s.readReq src idx sub off len).2.2.ring.queue = s.ring.queue ∧ (s.readReq src idx sub off len).2.2.ring.after = s.ring.after := by
  have access : (s.access src idx sub).2.ring.queue = s.ring.queue ∧ (s.access src idx sub).2.ring.after = s.ring.after := by
    rcases s.access_state src idx sub with h | h
    · rw [h]
      exact ⟨rfl, rfl⟩
    · rw [h]
      exact State.deny_ring src
  have read : ∀ row, (s.dictRead row idx sub).2.ring.queue = s.ring.queue ∧ (s.dictRead row idx sub).2.ring.after = s.ring.after := fun row => by
    rw [State.dictRead_ring]
    exact ⟨rfl, rfl⟩
  unfold State.readReq
  dsimp only
  split
  · exact access
  · split
    · split <;> exact ⟨rfl, rfl⟩
    · split
      · exact ⟨rfl, rfl⟩
      · next row _ =>
        split
        · split
          · exact ⟨rfl, rfl⟩
          · exact read row
        · generalize (if row.ty = .str then 13 else row.ty.size) = size
          split
          · exact ⟨rfl, rfl⟩
          · exact read row

/-! ## The rows -/

/-- A frame with an own address is no broadcast. -/
theorem ringBcast_false (ha : s.addr < 64) (hd : f.dst.toNat = s.addr) : ringBcast f = false := beq_false_of_ne fun k => by
  have far : f.dst.toNat = 255 := by rw [k]; rfl
  omega

section
variable (hb : s.ring.bypassOpen = true) (hv : s.pwr.vddW = true) (hf : rxFault f = none) (ha : s.addr < 64) (hd : f.dst.toNat = s.addr) (hs : f.src.toNat ≠ s.addr)
include hb hv hf ha hd hs

theorem execRingRead_request (ht : f.ftype = 2) : exec (.ringRead f) s = .next ((s.oInc 0x1100 4).ringRequest f).settle := by
  have own := ringBcast_false ha hd
  have row : s.ringRow f 2 (if ringBcast f = true then none else some (fun t : State => t.ringRequest f)) = (s.oInc 0x1100 4).ringRequest f := by
    rw [State.ringRow, if_pos ht, own]
    exact State.frameIn_own hb hv hf _ hs ha hd
  exact congrArg (fun u => (Host.Outcome.next (State.settle u) : Out)) row

theorem execRingWrite_request (ht : f.ftype = 3) : exec (.ringWrite f) s = .next ((s.oInc 0x1100 4).ringRequest f).settle := by
  have own := ringBcast_false ha hd
  have row : (if membersWrite f = true then s else s.ringRow f 3 (if ringBcast f = true then none else some (fun t : State => t.ringRequest f))) = (s.oInc 0x1100 4).ringRequest f := by
    have other : membersWrite f = false := by
      rw [membersWrite, own, Bool.and_false]
      rfl
    rw [other, State.ringRow, if_pos ht, own]
    exact (if_neg Bool.false_ne_true).trans (State.frameIn_own hb hv hf _ hs ha hd)
  exact congrArg (fun u => (Host.Outcome.next (State.settle u) : Out)) row

end

/-- The tile sends the answer to a request and keeps it for its source (R415). -/
def State.answered (s : State) (f g : RingFrame) : State :=
  ((s.sendRing g).modRing (fun x => { x with dup := (f.src.toNat, f.tid.toNat, g) :: x.dup.filter (fun d => d.1 != f.src.toNat) })).afterReq

theorem State.serveRing_read (ht : f.ftype = 2) : s.serveRing f =
    let r := s.readReq (.ring f.src.toNat) f.index.toNat f.sub.toNat f.offset.toNat f.len.toNat
    r.2.2.answered f (respTo s f r.1 r.2.1) := by
  rw [State.serveRing, if_pos ht]
  rfl

theorem State.serveRing_write (ht : f.ftype = 3) : s.serveRing f =
    let w := s.writeReq (.ring f.src.toNat) f.index.toNat f.sub.toNat f.offset.toNat f.len.toNat (ofBytes f.data) (bit f.fflags.toNat 0)
    w.2.answered f (respTo s f w.1 []) := by
  rw [State.serveRing, if_neg (by rw [ht]; decide)]
  rfl

/-- An answer in a state in which nothing waits. -/
theorem State.answered_still {g : RingFrame} (hb : s.ring.bypassOpen = true) (h : s.Still) : let t := s.answered f g
    t.Still ∧ t.out = .ring (sealFrame g) :: s.out ∧ t.o 0x1100 5 = (s.o 0x1100 5 + 1) % 2 ^ 64 ∧ ∀ i j, okey i j ≠ okey 0x1100 5 → t.o i j = s.o i j := by
  have sent : (s.sendRing g).Still := h.of_core (s.sendRing_core g)
  have kept : ((s.sendRing g).modRing (fun x => { x with dup := (f.src.toNat, f.tid.toNat, g) :: x.dup.filter (fun d => d.1 != f.src.toNat) })).Still :=
    ⟨sent.due, sent.lcWait, sent.goes, sent.lossWait, sent.keyWait, sent.idle, sent.queue, sent.after⟩
  rw [State.answered, kept.afterReq]
  refine ⟨kept, ?_, ?_, fun i j n => s.sendRing_o_of g n⟩
  · rw [State.modRing_out, State.sendRing_open hb]
  · rw [State.modRing_o, State.sendRing_open hb]
    exact State.oSet_o_same s _ _ _

theorem State.modRing_after (d : List (Nat × Nat × RingFrame) → List (Nat × Nat × RingFrame)) (h : s.ring.after = 0) : (s.modRing (fun x => { x with dup := d x.dup })).ring.after = 0 := h

theorem State.answered_ring (g : RingFrame) (h : s.ring.after = 0) : (s.answered f g).ring.queue = s.ring.queue := by
  have core := s.sendRing_core g
  have after : (s.sendRing g).ring.after = 0 := (congrArg (fun u => u.ring.after) core :).trans h
  rw [State.answered, State.afterReq_of_zero (State.modRing_after (fun d => (f.src.toNat, f.tid.toNat, g) :: d.filter (fun d => d.1 != f.src.toNat)) after)]
  exact (congrArg (fun u => u.ring.queue) core :)

end

/-! ## One object -/

section
variable {s : State}

/-- A request that may act on an object of a domain that answers (R414 to R417). -/
theorem State.access_free {src : Src} {idx sub : Nat} {row : ObjRow} (hrow : objRow? idx sub = some row) (htop : ¬(sub = 0 ∧ 0 < objTop idx)) (hlvl : row.lvl ≤ s.level src)
    (hon : alwaysOn idx = true ∨ 3 ≤ s.pstate) : s.access src idx sub = (0, s) := by
  have here : (!alwaysOn idx && decide (s.pstate < 3)) = false := by
    rcases hon with h | h
    · rw [h]
      rfl
    · rw [decide_eq_false (by omega), Bool.and_false]
  simp only [State.access, if_neg htop, hrow, if_neg (Nat.not_lt.mpr hlvl), Bool.and_assoc, here, Bool.and_false, Bool.false_eq_true, if_false]

section
variable {src : Src} {idx sub n : Nat} {row : ObjRow} (hrow : objRow? idx sub = some row) (hty : row.ty = .u n) (htop : ¬(sub = 0 ∧ 0 < objTop idx)) (hlvl : row.lvl ≤ s.level src)
  (hon : alwaysOn idx = true ∨ 3 ≤ s.pstate)
include hrow hty htop hlvl hon

theorem State.readReq_value {len v : Nat} (hlen : len = 0 ∨ len = n) (hread : s.dictRead row idx sub = (v, s)) : s.readReq src idx sub 0 len = (0, toBytes n v, s) := by
  have size : ¬(len ≠ 0 ∧ len ≠ n) := by omega
  simp only [State.readReq, State.access_free hrow htop hlvl hon, hrow, hty, ne_eq, not_true_eq_false, if_false, if_neg htop, OTy.size, reduceCtorEq, false_or, hread]
  exact if_neg size

theorem State.writeReq_value (v : Nat) (last : Bool) : s.writeReq src idx sub 0 n v last = s.objWrite src row idx sub (v % 256 ^ n &&& row.wmask) := by
  simp only [State.writeReq, State.access_free hrow htop hlvl hon, hrow, hty, ne_eq, not_true_eq_false, if_false, OTy.size, or_self]

end

/-- A write of EVT_RESEND (R420). -/
theorem State.writeReq_evtResend {src : Src} (hlvl : 1 ≤ s.level src) (v : Nat) (last : Bool) : s.writeReq src 0x1120 6 0 2 v last =
    if 1 ≤ v % 65536 ∧ v % 65536 ≤ 10000 then (0, s.oSet 0x1120 6 (v % 65536)) else (0x83, s) := by
  obtain ⟨row, hrow, hty, hacc, hl, hmask⟩ := objRow_of_info (show objInfo 0x1120 6 = some (.u 2, .rw, 1, 65535) by decide)
  have mask : v % 256 ^ 2 &&& 65535 = v % 65536 := by
    rw [show 65535 = 2 ^ 16 - 1 from rfl, Nat.and_two_pow_sub_one_eq_mod]
    omega
  have range : s.inRange 0x1120 6 (v % 65536) = (decide (1 ≤ v % 65536) && decide (v % 65536 ≤ 10000)) := rfl
  rw [State.writeReq_value hrow hty (by decide) (by rw [hl]; exact hlvl) (.inl (by decide)), hmask, mask]
  unfold State.objWrite
  rw [if_neg (by rw [hacc]; decide), if_neg (by decide), if_neg (by rw [hacc]; decide), if_neg (by decide), if_neg (by decide), if_neg (by decide), if_neg (by decide), if_neg (by decide),
    if_neg (by decide), range]
  by_cases hr : 1 ≤ v % 65536 ∧ v % 65536 ≤ 10000
  · have inside : ¬(!(decide (1 ≤ v % 65536) && decide (v % 65536 ≤ 10000))) = true := by
      rw [← Bool.decide_and, decide_eq_true hr]
      decide
    rw [if_pos hr, if_neg inside, if_neg (by decide), if_neg (by decide), if_neg (by decide), if_neg (by decide)]
  · have outside : (!(decide (1 ≤ v % 65536) && decide (v % 65536 ≤ 10000))) = true := by
      rw [← Bool.decide_and, decide_eq_false hr]
      rfl
    rw [if_neg hr, if_pos outside]

theorem State.pstate_oInc : (s.oInc 0x1100 4).pstate = s.pstate := State.pstate_congr rfl (State.o_oSet_of (by decide))

theorem State.level_oInc (src : Src) : (s.oInc 0x1100 4).level src = s.level src := by
  have same : ∀ i j, okey i j ≠ okey 0x1100 4 → (s.oInc 0x1100 4).o i j = s.o i j := fun i j h => State.o_oSet_of h
  have map : ∀ a, okey 0x1200 (1 + a) ≠ okey 0x1100 4 := fun a => by unfold okey; omega
  have box : ∀ a, okey 0x1210 (1 + a) ≠ okey 0x1100 4 := fun a => by unfold okey; omega
  cases src with
  | ring a => simp only [State.level, same _ _ (map a), same 0x1220 3 (by decide)]
  | mail h => exact same _ _ (box h)
  | oper => rfl

end

theorem State.respTo_oInc (s : State) (f : RingFrame) (stat : Nat) (data : List Byte) : respTo (s.oInc 0x1100 4) f stat data = respTo s f stat data := by
  have addr : (s.oInc 0x1100 4).addr = s.addr := State.o_oSet_of (by decide)
  rw [respTo, addr]
  rfl

/-- Settles O32: a request is repeated, refused, or served in the step of its arrival. -/
theorem ringRequests : Obligations.RingRequests := by
  unfold Obligations.RingRequests
  intro s f hb hv hf ha hd hs
  have quiet : s.still = true → s.Still := s.still_iff.mp
  refine ⟨fun g hg => ⟨fun ht => ?_, fun ht => ?_⟩, fun hn hstill => have still := quiet hstill; ⟨fun ht => ?_, fun ht row v n hrow hty htop hlvl hon hoff hlen hread => ?_, fun ht hi hsub hoff hlen hlast hlvl => ?_⟩,
    fun hn hq => ⟨fun ht => ?_, fun ht => ?_⟩⟩
  · rw [execRingRead_request hb hv hf ha hd hs ht, State.ringRequest_repeated (s := s.oInc 0x1100 4) hg rfl]
  · rw [execRingWrite_request hb hv hf ha hd hs ht, State.ringRequest_repeated (s := s.oInc 0x1100 4) hg rfl]
  · have served := State.ringRequest_served (s := s.oInc 0x1100 4) hn still.queue
    rw [execRingRead_request hb hv hf ha hd hs ht, served]
    rw [State.serveRing_read ht]
    obtain ⟨queue, after⟩ := (s.oInc 0x1100 4).readReq_ring (.ring f.src.toNat) f.index.toNat f.sub.toNat f.offset.toNat f.len.toNat
    exact (State.answered_ring _ (after.trans still.after)).trans (queue.trans still.queue)
  · have lvl : row.lvl ≤ (s.oInc 0x1100 4).level (.ring f.src.toNat) := by rw [State.level_oInc]; exact hlvl
    have on : alwaysOn f.index.toNat = true ∨ 3 ≤ (s.oInc 0x1100 4).pstate := by rw [State.pstate_oInc]; exact hon
    have len : f.len.toNat = 0 ∨ f.len.toNat = n := by
      rcases hlen with h | h
      · exact .inl (by rw [h]; rfl)
      · exact .inr (by rw [h, hty]; rfl)
    have size : row.ty.size = n := by rw [hty]; rfl
    have off : f.offset.toNat = 0 := by rw [hoff]; rfl
    have value := State.readReq_value hrow hty htop lvl on len hread
    have reply : (s.oInc 0x1100 4).serveRing f = (s.oInc 0x1100 4).answered f (respTo s f 0 (toBytes row.ty.size v)) := by
      rw [State.serveRing_read ht, off, value, size, ← State.respTo_oInc]
    obtain ⟨quiet, out, tx, -⟩ := State.answered_still (f := f) (g := respTo s f 0 (toBytes row.ty.size v)) (s := s.oInc 0x1100 4) hb (still.oInc 0x1100 4)
    have count : (s.oInc 0x1100 4).o 0x1100 5 = s.o 0x1100 5 := State.o_oSet_of (by decide)
    rw [count] at tx
    refine ⟨_, ?_, out, tx⟩
    have served := State.ringRequest_served (s := s.oInc 0x1100 4) hn still.queue (by rw [reply]; exact quiet.queue)
    rw [execRingRead_request hb hv hf ha hd hs ht, served, reply, quiet.settle]
  · have lvl : 1 ≤ (s.oInc 0x1100 4).level (.ring f.src.toNat) := by rw [State.level_oInc]; exact hlvl
    have write := (s.oInc 0x1100 4).serveRing_write ht
    rw [hi, hsub, hoff, hlen] at write
    have value := State.writeReq_evtResend lvl (ofBytes f.data) (bit f.fflags.toNat 0)
    by_cases hr : 1 ≤ ofBytes f.data % 65536 ∧ ofBytes f.data % 65536 ≤ 10000
    · have reply : (s.oInc 0x1100 4).serveRing f = ((s.oInc 0x1100 4).oSet 0x1120 6 (ofBytes f.data % 65536)).answered f (respTo s f 0 []) := by
        rw [if_pos hr] at value
        rw [← State.respTo_oInc]
        exact write.trans (congrArg (fun w : Nat × State => w.2.answered f (respTo (s.oInc 0x1100 4) f w.1 [])) value)
      obtain ⟨quiet, out, -, left⟩ := State.answered_still (f := f) (g := respTo s f 0 []) (s := (s.oInc 0x1100 4).oSet 0x1120 6 (ofBytes f.data % 65536)) hb ((still.oInc 0x1100 4).oSet _ _ _)
      refine ⟨_, ?_, fun _ => ⟨(left _ _ (by decide)).trans (State.oSet_o_same _ _ _ _), out⟩, fun h => absurd hr h⟩
      have served := State.ringRequest_served (s := s.oInc 0x1100 4) hn still.queue (by rw [reply]; exact quiet.queue)
      rw [execRingWrite_request hb hv hf ha hd hs ht, served, reply, quiet.settle]
    · have reply : (s.oInc 0x1100 4).serveRing f = (s.oInc 0x1100 4).answered f (respTo s f 0x83 []) := by
        rw [if_neg hr] at value
        rw [← State.respTo_oInc]
        exact write.trans (congrArg (fun w : Nat × State => w.2.answered f (respTo (s.oInc 0x1100 4) f w.1 [])) value)
      obtain ⟨quiet, out, -, left⟩ := State.answered_still (f := f) (g := respTo s f 0x83 []) (s := s.oInc 0x1100 4) hb (still.oInc 0x1100 4)
      refine ⟨_, ?_, fun h => absurd h hr, fun _ => ⟨(left _ _ (by decide)).trans (State.o_oSet_of (by decide)), out⟩⟩
      have served := State.ringRequest_served (s := s.oInc 0x1100 4) hn still.queue (by rw [reply]; exact quiet.queue)
      rw [execRingWrite_request hb hv hf ha hd hs ht, served, reply, quiet.settle]
  · rw [execRingRead_request hb hv hf ha hd hs ht, State.ringRequest_full (s := s.oInc 0x1100 4) hn hq, s.respTo_oInc f]
  · rw [execRingWrite_request hb hv hf ha hd hs ht, State.ringRequest_full (s := s.oInc 0x1100 4) hn hq, s.respTo_oInc f]

end Sys2Proof.Machine
end

section
/-! Requests to the peers of the tile, resets of the ring interface and UNLOCK (R402, R411 to R423). -/

namespace Sys2Proof.Machine

section
variable {s : State} {f : RingFrame} {q : PeerReq}

/-! ## Answers and timeouts -/

theorem execRingResp_peer (hb : s.ring.bypassOpen = true) (hv : s.pwr.vddW = true) (ha : s.addr < 64) (hf : rxFault f = none) (hd : f.dst.toNat = s.addr) (hs : f.src.toNat ≠ s.addr)
    (ht : f.ftype = 4) : exec (.ringResp f) s = .next ((s.oInc 0x1100 4).peerResp f).settle := by
  have row : s.ringRow f 4 (if ringBcast f = true then none else some (fun t : State => t.peerResp f)) = (s.oInc 0x1100 4).peerResp f := by
    rw [State.ringRow, if_pos ht, ringBcast_false ha hd]
    exact State.frameIn_own hb hv hf _ hs ha hd
  exact congrArg (fun u => (Host.Outcome.next (State.settle u) : Out)) row

theorem State.peerResp_store (hq : s.ring.store = some q) (ht : q.tid = f.tid) (hd : q.dst = f.src) : s.peerResp f = s.storeAnswer q (f.stat == 0) f.data := by
  unfold State.peerResp
  rw [hq]
  exact if_pos ⟨ht, hd⟩

theorem State.peerResp_vreg (hn : s.ring.store = none) (hq : s.ring.vreg = some q) (ht : q.tid = f.tid) (hd : q.dst = f.src) : s.peerResp f = s.vregAnswer q (f.stat == 0) := by
  unfold State.peerResp
  rw [hn, hq]
  exact if_pos ⟨ht, hd⟩

/-- A set point that the regulator confirms (R423). -/
theorem State.vregAnswer_confirmed (s : State) (q : PeerReq) : let u := s.vregAnswer q true
    u.ring.vreg = none ∧ u.o 0x4000 6 = q.mv ∧ u.pwr.settling = true ∧ u.pwr.nvConf = (q.mv - Config.vf) / 5 := by
  have confirmed : s.vregAnswer q true = (((s.modRing (fun r => { r with vreg := none })).oSet 0x4000 6 q.mv).modPwr
      (fun p => { p with settling := true, nvConf := (q.mv - Config.vf) / 5, start := p.start.map (fun g => { g with wait := 6 }) })).raise 0x5700 1 q.mv := rfl
  rw [confirmed]
  have core := State.raise_core (((s.modRing (fun r => { r with vreg := none })).oSet 0x4000 6 q.mv).modPwr
      (fun p => { p with settling := true, nvConf := (q.mv - Config.vf) / 5, start := p.start.map (fun g => { g with wait := 6 }) })) 0x5700 1 q.mv
  have pwr := State.pwr_of_core core
  refine ⟨(congrArg (fun u => u.ring.vreg) core :), ?_, by rw [pwr]; rfl, by rw [pwr]; rfl⟩
  rw [State.raise_o _ _ _ _ (by decide) (by decide) (by decide) (by decide) (by decide) (by decide), State.modPwr_o, State.oSet_o_same]

/-- A request that is sent again after a timeout (R421). -/
theorem State.sendPeer_again {u : State} (hb : u.ring.bypassOpen = true) (ha : s.addr < 64) (ho : ∀ i j, u.o i j = (s.oInc 0x1100 9).o i j) (hout : u.out = s.out) (n : Nat) :
    let v := u.sendPeer { q with retries := n }
    v.o 0x1100 9 = (s.o 0x1100 9 + 1) % 2 ^ 64 ∧ v.out = .ring (sealFrame (peerFrame s q)) :: s.out := by
  have addr : u.addr = s.addr := (ho _ _).trans (State.o_oSet_of (by decide))
  have frame : peerFrame u { q with retries := n } = peerFrame s q := by
    rw [peerFrame, addr]
    rfl
  refine ⟨?_, ?_⟩
  · rw [State.sendPeer_o _ _ (by decide), ho]
    exact State.oSet_o_same _ _ _ _
  · rw [State.sendPeer, if_neg (by rw [addr]; omega), frame, State.sendRing_open hb, hout]

end

/-- Settles O33: answers and timeouts service by service. -/
theorem peerRequests : Obligations.PeerRequests := by
  unfold Obligations.PeerRequests
  intro s f q hb hv ha
  refine ⟨fun hf hd hs ht htid hdst => ⟨fun hst => ?_, fun hst hvr => ?_, fun hst hvr h0 => ?_⟩, fun hq hr => ?_, fun hq hr => ?_, fun hq hr => ?_, fun hq hr => ?_⟩
  · rw [execRingResp_peer hb hv ha hf hd hs ht, State.peerResp_store (s := s.oInc 0x1100 4) hst htid hdst]
  · rw [execRingResp_peer hb hv ha hf hd hs ht, State.peerResp_vreg (s := s.oInc 0x1100 4) hst hvr htid hdst]
  · have confirmed := execRingResp_peer hb hv ha hf hd hs ht
    rw [State.peerResp_vreg (s := s.oInc 0x1100 4) hst hvr htid hdst, h0] at confirmed
    exact ⟨_, confirmed, State.vregAnswer_confirmed _ q⟩
  · have again : s.peerTimeout .store = ((s.oInc 0x1100 9).modRing (fun r => { r with store := some { q with retries := q.retries + 1 } })).sendPeer { q with retries := q.retries + 1 } := by
      simp only [State.peerTimeout, hq, decide_eq_true hr, if_true]
    refine ⟨_, congrArg (fun u => (Host.Outcome.next (State.settle u) : Out)) again, State.sendPeer_store _ _,
      State.sendPeer_again (u := (s.oInc 0x1100 9).modRing (fun r => { r with store := some { q with retries := q.retries + 1 } })) hb ha (fun _ _ => rfl) rfl _⟩
  · have again : s.peerTimeout .vreg = ((s.oInc 0x1100 9).modRing (fun r => { r with vreg := some { q with retries := q.retries + 1 } })).sendPeer { q with retries := q.retries + 1 } := by
      simp only [State.peerTimeout, hq, decide_eq_true hr, if_true]
    refine ⟨_, congrArg (fun u => (Host.Outcome.next (State.settle u) : Out)) again, State.sendPeer_vreg _ _,
      State.sendPeer_again (u := (s.oInc 0x1100 9).modRing (fun r => { r with vreg := some { q with retries := q.retries + 1 } })) hb ha (fun _ _ => rfl) rfl _⟩
  · have failed : s.peerTimeout .store = (s.oInc 0x1100 9).storeAnswer q false [] := by
      simp only [State.peerTimeout, hq, decide_eq_false (Nat.not_lt.mpr hr), Bool.false_eq_true, if_false]
    exact congrArg (fun u => (Host.Outcome.next (State.settle u) : Out)) failed
  · have failed : s.peerTimeout .vreg = (s.oInc 0x1100 9).vregAnswer q false := by
      simp only [State.peerTimeout, hq, decide_eq_false (Nat.not_lt.mpr hr), Bool.false_eq_true, if_false]
    exact congrArg (fun u => (Host.Outcome.next (State.settle u) : Out)) failed

/-! ## Causes of RNG -/

section
variable {s : State} {m : Nat}

theorem State.setCause_keeps_bit (leaf n what : Nat) (h : bit (s.o leaf 1) m = true) : bit ((s.setCause leaf n what).1.o leaf 1) m = true := by
  rw [State.setCause_cause]
  split
  · exact h
  · next hb => rw [bit_add_pow (Bool.eq_false_iff.mpr hb), h, Bool.true_or]

theorem State.setCause_sets_bit (leaf n what : Nat) : bit ((s.setCause leaf n what).1.o leaf 1) n = true := by
  rw [State.setCause_cause]
  split
  · next hb => exact hb
  · next hb => rw [bit_add_pow (Bool.eq_false_iff.mpr hb), beq_self_eq_true, Bool.or_true]

theorem State.pushEvent_cause (d : List Byte) : (s.pushEvent d).1.o 0x5800 1 = s.o 0x5800 1 := State.pushEvent_o_of _ _ (by decide) (by decide) (by decide)

/-- An event that is lost sets causes of RNG and clears none (R420). -/
theorem State.raiseLost_keeps_bit (q : Nat) (h : bit (s.o 0x5800 1) m = true) : bit ((s.raiseLost q).o 0x5800 1) m = true := by
  have first := State.setCause_keeps_bit 0x5800 3 q h
  unfold State.raiseLost
  split
  · next e => rw [e] at first; exact first
  · next s1 e =>
    rw [e] at first
    split
    · have pushed := s1.pushEvent_cause (causeData 0x5800 3 (s1.o 0x5800 0x13))
      split
      · next e2 =>
        rw [e2] at pushed
        refine State.setCause_keeps_bit 0x5800 3 _ ?_
        rw [pushed]
        exact first
      · next e2 =>
        rw [e2] at pushed
        rw [pushed]
        exact first
    · exact first

theorem State.event_keeps_bit (d : List Byte) (h : bit (s.o 0x5800 1) m = true) : bit ((s.event d).o 0x5800 1) m = true := by
  have pushed := s.pushEvent_cause d
  unfold State.event
  split
  · next e =>
    rw [e] at pushed
    refine State.raiseLost_keeps_bit _ ?_
    rw [pushed]
    exact h
  · next e =>
    rw [e] at pushed
    rw [pushed]
    exact h

/-- A raised cause of RNG reads 1 (R431). -/
theorem State.raise_rng_bit (n what : Nat) : bit ((s.raise 0x5800 n what).o 0x5800 1) n = true := by
  have set := s.setCause_sets_bit (n := n) 0x5800 what
  unfold State.raise
  split
  · next e =>
    rw [e] at set
    split
    · exact State.event_keeps_bit _ set
    · exact set
  · next e =>
    rw [e] at set
    exact set

end

/-! ## Resets of the ring interface -/

section
variable {s : State}

theorem State.ringClear_unlock (s : State) : s.ringClear.o 0x1220 3 = 0xFF := by
  show ((s.oSet 0x1100 1 0xFE).oSet 0x1220 3 0xFF).o 0x1220 3 = 0xFF
  rw [State.oSet_o_same]

/-- What a reset of the ring interface clears (R411). -/
theorem State.ringReset_clears (s : State) : let u := s.ringReset
    u.ring.bypassOpen = false ∧ u.addr = 0xFE ∧ u.ring.dup = [] ∧ u.o 0x1220 3 = 0xFF ∧ u.o 0x1100 0xA = (s.o 0x1100 0xA + 1) % 2 ^ 32 := by
  refine ⟨s.ringReset_bypassOpen, s.ringReset_addr, (congrArg (fun u => u.ring.dup) s.ringReset_core :), ?_, ?_⟩
  · rw [State.ringReset, State.raise_o_of _ _ _ _ (by decide) (by decide) (by decide) (by decide) (by decide) (by decide) (by decide), State.o_oSet_of (by decide), State.ringClear_unlock]
  · rw [State.ringReset, State.raise_o_of _ _ _ _ (by decide) (by decide) (by decide) (by decide) (by decide) (by decide) (by decide), State.oSet_o_same]

/-- RING_RST (R411, R425). -/
theorem State.operWrite_ringRst (hp : s.pstate ≠ 0) (v : Nat) : s.operWrite 0x1130 0 1 v =
    (if v % 256 = 1 then s.modRing (fun r => { r with after := 1 }) else s).afterReq := by
  rw [State.operWrite_cmd v (by decide) (by decide) (by decide) hp (.inl (by decide))]
  show (if v % 256 = 1 then (0, s.modRing (fun r => { r with after := 1 })) else (0x83, s)).2.afterReq = _
  split
  · rfl
  · rfl

/-- A reset of the ring interface that a request has asked for. -/
theorem State.afterReq_ringReset : (s.modRing (fun r => { r with after := 1 })).afterReq = ((s.modRing (fun r => { r with after := 1 })).modRing (fun r => { r with after := 0 })).ringReset := rfl

/-! ## UNLOCK -/

theorem State.newChallenge_o (s : State) (i j : Nat) : s.newChallenge.o i j = s.o i j := rfl

theorem State.newChallenge_after (s : State) : s.newChallenge.ring.after = s.ring.after := rfl

theorem State.domainCommit_unlock (v : Nat) : let u := (s.domainCommit .oper 0x1220 v 104).2
    (Config.unlockVerifies (putBytes v 1 7 0) s.challenge = true → v % 256 < 64 → u.o 0x1220 3 = v % 256) ∧
    (Config.unlockVerifies (putBytes v 1 7 0) s.challenge = false → u.o 0x1220 3 = s.o 0x1220 3 ∧ bit (u.o 0x5800 1) 2 = true) ∧ u.ring.after = s.ring.after := by
  refine ⟨fun hu hl => ?_, fun hu => ?_, ?_⟩
  · have good : s.domainCommit .oper 0x1220 v 104 = (0, (s.oSet 0x1220 3 (v % 256)).newChallenge) := by
      rw [State.domainCommit, if_pos rfl, if_pos ⟨rfl, hu, hl⟩]
    rw [good]
    exact State.oSet_o_same s _ _ _
  · have bad : s.domainCommit .oper 0x1220 v 104 = (0x83, (s.raise 0x5800 2 noWhat).newChallenge) := by
      rw [State.domainCommit, if_pos rfl, hu, if_neg (fun h => Bool.false_ne_true h.2.1)]
      rfl
    rw [bad]
    refine ⟨?_, State.raise_rng_bit 2 noWhat⟩
    exact s.raise_o_of _ _ _ (by decide) (by decide) (by decide) (by decide) (by decide) (by decide) (by decide)
  · unfold State.domainCommit
    rw [if_pos rfl]
    split
    · rfl
    · exact (congrArg (fun u => u.ring.after) (s.raise_core 0x5800 2 noWhat) :)

theorem toNat_lt_bytes {n : Nat} (x : BitVec (8 * n)) : x.toNat < 256 ^ n := by
  rw [show 256 = 2 ^ 8 from rfl, ← Nat.pow_mul]
  exact x.isLt

/-- A record written to UNLOCK in one segment (R418). -/
theorem State.operWrite_unlock (hp : s.pstate ≠ 0) (hw : s.ring.domW = []) (record : BitVec 832) : s.operWrite 0x1220 2 104 record.toNat =
    ((s.modRing (fun r => { r with domW := r.domW.filter (fun d => d.key != okey 0x1220 2) })).domainCommit .oper 0x1220 record.toNat 104).2.afterReq := by
  have known : (objRow? 0x1220 2).map (fun r => (r.ty, r.acc, r.lvl)) = some (.domain 104, .wo, 1) := by decide
  obtain ⟨row, hrow, heq⟩ := Option.map_eq_some_iff.mp known
  obtain ⟨hty, hacc, hlvl⟩ : row.ty = .domain 104 ∧ row.acc = .wo ∧ row.lvl = 1 := by
    simpa only [Prod.mk.injEq] using heq
  have on : ¬(s.pstate = 0 ∨ (!alwaysOn 0x1220) = true ∧ s.pstate < 3) := by
    rintro (h | ⟨h, -⟩)
    · exact hp h
    · exact absurd h (by decide)
  have free : s.access .oper 0x1220 2 = (0, s) := State.access_free hrow (by decide) (by rw [hlvl]; exact Nat.le_refl 1) (.inl (by decide))
  have whole : 0 % 256 ^ 0 + record.toNat % 256 ^ 104 * 256 ^ 0 = record.toNat := by
    rw [Nat.mod_eq_of_lt (toNat_lt_bytes (n := 104) record), Nat.pow_zero, Nat.mod_one, Nat.mul_one, Nat.zero_add]
  have write : s.writeReq .oper 0x1220 2 0 104 record.toNat true = s.domainSeg .oper 0x1220 2 104 0 104 record.toNat true := by
    simp only [State.writeReq, free, hrow, hty, hacc, ne_eq, not_true_eq_false, if_false, reduceCtorEq]
  rw [State.operWrite, if_neg on, write, State.domainSeg, hw, List.find?_nil]
  dsimp only
  rw [whole]
  rfl

end

/-- Settles O34: each cause of a reset of the ring interface, and the UNLOCK record with and without its proof. -/
theorem ringResetsAndUnlock : Obligations.RingResetsAndUnlock := by
  unfold Obligations.RingResetsAndUnlock
  intro s why index sub record hv hp ha
  refine ⟨fun hb => ?_, fun hb hw => ?_, ?_, fun code hc => ?_, rfl, fun hw => ?_⟩
  · have due : (s.pwr.vddW && (match why with | .firmware => true | _ => s.ring.bypassOpen)) = true := by
      rw [hv, hb]
      cases why <;> rfl
    exact ⟨_, congrArg Host.Outcome.next (if_pos due), s.ringReset_clears⟩
  · cases why with
    | firmware => exact absurd rfl hw
    | lostLock => exact congrArg Host.Outcome.next (if_neg (by rw [hb, Bool.and_false]; decide))
    | invalidOnly => exact congrArg Host.Outcome.next (if_neg (by rw [hb, Bool.and_false]; decide))
  · have write : s.operWrite 0x1130 0 1 (1 : Byte).toNat = ((s.modRing (fun r => { r with after := 1 })).modRing (fun r => { r with after := 0 })).ringReset := by
      rw [State.operWrite_ringRst hp]
      rfl
    obtain ⟨closed, addr, dup, unlock, count⟩ := State.ringReset_clears ((s.modRing (fun r => { r with after := 1 })).modRing (fun r => { r with after := 0 }))
    exact ⟨_, congrArg (fun u => (Host.Outcome.next (State.settle u) : Out)) write, closed, addr, dup, unlock, count⟩
  · have other : ¬code.toNat % 256 = 1 := fun h => hc (BitVec.eq_of_toNat_eq ((Nat.mod_eq_of_lt code.isLt).symm.trans h))
    refine congrArg (fun u => (Host.Outcome.next (State.settle u) : Out)) ?_
    rw [State.operWrite_ringRst hp, if_neg other, State.afterReq_of_zero ha]
  · obtain ⟨good, bad, after⟩ := State.domainCommit_unlock (s := s.modRing (fun r => { r with domW := r.domW.filter (fun d => d.key != okey 0x1220 2) })) record.toNat
    have run := congrArg (fun u => (Host.Outcome.next (State.settle u) : Out)) (State.operWrite_unlock hp hw record)
    rw [State.afterReq_of_zero (after.trans ha)] at run
    exact ⟨_, run, good, bad⟩

end Sys2Proof.Machine
end

section
/-! Completions on the ports, lane faults and failed ports (R338 to R349). -/

namespace Sys2Proof.Machine

section
variable {s : State} {p hdr data : Nat} {r : PReq}

theorem State.portOf_of {t : State} (h : t.port = s.port) (k : Nat) : t.portOf k = s.portOf k := by
  rw [State.portOf, h]
  rfl

theorem State.oSet_portOf (i j v k : Nat) : (s.oSet i j v).portOf k = s.portOf k := rfl

theorem State.raise_portOf (leaf n what k : Nat) : (s.raise leaf n what).portOf k = s.portOf k :=
  State.portOf_of (congrArg State.port (s.raise_core leaf n what) :) k

theorem State.raise_port_bit (n what : Nat) (hp : p < 256) : bit ((s.raise (0x5300 + p) n what).o (0x5300 + p) 1) n = true :=
  s.raise_bit _ _ _ (by omega) (by omega) (by omega)

theorem State.portUp_lt (h : s.portUp p = true) : p < 24 := by
  unfold State.portUp at h
  rw [Bool.and_eq_true, Bool.and_eq_true, decide_eq_true_eq] at h
  exact h.1.1

/-! ## Completions of reads -/

section
variable (hu : s.portUp p = true)
include hu

theorem State.cpldIn_bad (hb : pktBad hdr 9 = true) : s.cpldIn p hdr data = s.raise (0x5300 + p) 0 (bytesAt hdr 0 1) := by
  rw [State.cpldIn, hu, hb]
  rfl

theorem State.cplIn_bad (hb : pktBad hdr 8 = true) : s.cplIn p hdr = s.raise (0x5300 + p) 0 (bytesAt hdr 0 1) := by
  rw [State.cplIn, hu, hb]
  rfl

theorem State.cpldIn_late (hb : pktBad hdr 9 = false) (hn : (s.portOf p).rds.find? (fun e => e.1 == pktTag hdr) = none) : s.cpldIn p hdr data = s.raise (0x5300 + p) 2 (pktTag hdr) := by
  rw [State.cpldIn, hu, hb]
  dsimp only
  rw [hn]
  rfl

theorem State.cplIn_late (hb : pktBad hdr 8 = false) (hn : (s.portOf p).wrs.find? (fun e => e.1 == pktTag hdr) = none) : s.cplIn p hdr = s.raise (0x5300 + p) 2 (pktTag hdr) := by
  rw [State.cplIn, hu, hb]
  dsimp only
  rw [hn]
  rfl

section
variable (hb : pktBad hdr 9 = false) (hf : (s.portOf p).rds.find? (fun e => e.1 == pktTag hdr) = some (pktTag hdr, r))
include hb hf

/-- The only CPLD of a sector read (R339). -/
theorem State.cpldIn_only (he : r.err = false) (hbig : r.big = false) (hl : r.left = 1) (hs : pktStat hdr = 0) : s.cpldIn p hdr data =
    (((s.modPort p (fun ps => { ps.reqBack r with rds := tdel ps.rds (pktTag hdr) })).oAdd (0x4400 + p) 5 64).sectorIn p r 0 data true).drainAfter s p := by
  unfold State.cpldIn
  rw [hu, hb]
  dsimp only
  rw [hf]
  simp only [hbig, hl, hs, he, Bool.false_eq_true, if_false, bne_self_eq_false, Bool.or_self, Nat.pow_zero, Nat.sub_self, if_true, beq_self_eq_true, Bool.not_false, Bool.and_self, and_false,
    Bool.not_true]
  exact if_neg (by decide)

/-- The only CPLD of a sector read, with an error (R344). -/
theorem State.cpldIn_error (hbig : r.big = false) (hl : r.left = 1) (hs : pktStat hdr ≠ 0) : s.cpldIn p hdr data =
    ((s.modPort p (fun ps => { ps.reqBack r with rds := tdel ps.rds (pktTag hdr) })).failReq p { r with left := 0, err := true }).drainAfter s p := by
  unfold State.cpldIn
  rw [hu, hb]
  dsimp only
  rw [hf]
  simp only [hbig, hl, bne_iff_ne.mpr hs, Bool.false_eq_true, if_false, Bool.or_true, Nat.pow_zero, Nat.sub_self, if_true, and_self, Bool.not_true]
  exact if_neg (by decide)

/-- A CPLD of one sector of a line read (R339). -/
theorem State.cpldIn_sector (he : r.err = false) (hbig : r.big = true) (hl : bit r.left (pktSect hdr) = true) (hl' : r.left ≠ 2 ^ pktSect hdr) (hs : pktStat hdr = 0) : s.cpldIn p hdr data =
    (((s.modPort p (fun ps => { ps with rds := tins (tdel ps.rds (pktTag hdr)) (pktTag hdr) { r with left := r.left - 2 ^ pktSect hdr, jobs := r.jobs.filter (fun j => j.2.1 != pktSect hdr) } })).oAdd
      (0x4400 + p) 5 64).sectorIn p r (pktSect hdr) data false).drainAfter s p := by
  have due : ¬r.left - 2 ^ pktSect hdr = 0 := by
    have := pow_le_of_bit hl
    omega
  unfold State.cpldIn
  rw [hu, hb]
  dsimp only
  rw [hf]
  simp only [hbig, hl, hs, he, if_neg due, bne_self_eq_false, Bool.or_self, Bool.false_eq_true, if_false, if_true, and_false, Bool.not_true, beq_false_of_ne due, Bool.false_and]

end

/-! ## Completions of writes -/

section
variable (hb : pktBad hdr 8 = false) (hf : (s.portOf p).wrs.find? (fun e => e.1 == pktTag hdr) = some (pktTag hdr, r))
include hb hf

theorem State.cplIn_write : s.cplIn p hdr =
    (let s1 := s.modPort p (fun ps => { ps.reqBack r with wrs := tdel ps.wrs (pktTag hdr) })
     if pktStat hdr = 0 then (match r.wp with
          | some w => { s1 with due := s1.due ++ [.wrote r.ctx w false] }
          | none => s1)
     else s1.failReq p r (pktStat hdr == 3)).drainAfter s p := by
  unfold State.cplIn
  rw [hu, hb]
  dsimp only
  rw [hf]
  rfl

end
end
end

/-- Settles O35: each completion under its conditions. -/
theorem portCompletions : Obligations.PortCompletions := by
  unfold Obligations.PortCompletions
  intro s p hdr data r hu
  have next : ∀ {i : Instr} {u v : State}, exec i s = .next u.settle → u = v → exec i s = .next v.settle := fun h e => e ▸ h
  have small := State.portUp_lt hu
  refine ⟨fun hb hf hbig hl he => ⟨fun hs => ?_, fun hs => ?_⟩, fun hb hf hbig hl hl' hs he => ?_, fun hb hf => ⟨fun hs hw => ?_, fun w hs hw => ?_, fun hs => ?_⟩,
    fun hb hn => ?_, fun hb hn => ?_, fun hb => ?_, fun hb => ?_⟩
  · exact next rfl (State.cpldIn_only hu hb hf he hbig hl hs)
  · exact next rfl (State.cpldIn_error hu hb hf hbig hl hs)
  · exact next rfl (State.cpldIn_sector hu hb hf he hbig hl hl' hs)
  · refine next rfl ((State.cplIn_write hu hb hf).trans ?_)
    dsimp only
    rw [if_pos hs, hw]
  · refine next rfl ((State.cplIn_write hu hb hf).trans ?_)
    dsimp only
    rw [if_pos hs, hw]
    rfl
  · refine next rfl ((State.cplIn_write hu hb hf).trans ?_)
    dsimp only
    rw [if_neg hs]
  · exact ⟨_, next rfl (State.cpldIn_late hu hb hn), State.raise_port_bit _ _ (by omega), by rw [State.raise_portOf]⟩
  · exact ⟨_, next rfl (State.cplIn_late hu hb hn), State.raise_port_bit _ _ (by omega), by rw [State.raise_portOf]⟩
  · exact ⟨_, next rfl (State.cpldIn_bad hu hb), State.raise_port_bit _ _ (by omega), by rw [State.raise_portOf]⟩
  · exact ⟨_, next rfl (State.cplIn_bad hu hb), State.raise_port_bit _ _ (by omega), by rw [State.raise_portOf]⟩

/-! ## What goes on at the other ports after a completion -/

/-- From s to t requests have been issued at other ports than p. -/
structure State.Drained (p : Nat) (s t : State) : Prop where
  port : t.portOf p = s.portOf p
  first : ∀ i, t.o i 1 = s.o i 1

namespace State.Drained

variable {p : Nat} {s0 s : State}

theorem refl (p : Nat) (s : State) : s.Drained p s := ⟨rfl, fun _ => rfl⟩

theorem modPort {k : Nat} {f : PortSt → PortSt} (hk : p ≠ k) (h : s0.Drained p s) : s0.Drained p (s.modPort k f) :=
  ⟨(s.portOf_modPort_ne k p f hk).trans h.port, h.first⟩

theorem issue {k : Nat} {r : PReq} (hk : p ≠ k) (h : s0.Drained p s) : s0.Drained p (s.issue k r) := by
  have counted : ∀ {u : State} (n : Nat), s0.Drained p u → s0.Drained p (u.oAdd (0x4400 + k) 6 n) := fun n hu =>
    ⟨hu.port, fun i => (State.o_oSet_of (by unfold okey; omega)).trans (hu.first i)⟩
  have wired : ∀ {u : State} (x : List Output), s0.Drained p u → s0.Drained p { u with out := x } := fun x hu => ⟨hu.port, hu.first⟩
  unfold State.issue
  dsimp only
  refine wired (u := if r.wr = true then _ else _) _ ?_
  split
  · exact counted _ (h.modPort hk)
  · exact h.modPort hk

theorem drainPort {k : Nat} (hw : (s.portOf p).waiting = []) (h : s0.Drained p s) : s0.Drained p (s.drainPort k) := by
  by_cases hk : p = k
  · subst hk
    unfold State.drainPort
    rw [hw]
    refine ⟨?_, h.first⟩
    have same : { s.portOf p with waiting := [] } = s.portOf p := by rw [← hw]
    rw [List.foldl_nil, State.portOf_modPort, same]
    exact h.port
  · refine foldl_holds (P := fun u => s0.Drained p u) (h.modPort hk) fun u r hu => ?_
    split
    · exact hu.issue hk
    · exact hu.modPort hk

theorem drainAfter {k : Nat} {old : State} (hw : (s.portOf p).waiting = []) : s.Drained p (s.drainAfter old k) := by
  unfold State.drainAfter
  split
  · exact drainPort hw (refl p s)
  · refine foldl_holds (P := fun u => s.Drained p u) (refl p s) fun u j hu => hu.drainPort ?_
    rw [hu.port]
    exact hw

end State.Drained

/-! ## A failed port -/

section
variable {s : State} {p m : Nat}

/-- A cause of a port leaves the causes it has. -/
theorem State.raise_port_keeps (n what : Nat) {k : Nat} (hp : p < 256) (h : bit (s.o (0x5300 + p) 1) k = true) : bit ((s.raise (0x5300 + p) n what).o (0x5300 + p) 1) k = true := by
  rw [State.raise_o_setCause _ _ _ _ (by decide) (by omega) (by omega) (by omega)]
  exact State.setCause_keeps_bit _ _ _ h

theorem State.raise_lstate (n what : Nat) (hp : p < 256) (hn : n < 24) : (s.raise (0x5300 + p) n what).lstate p = s.lstate p :=
  s.raise_o _ _ _ hn (by decide) (by omega) (by omega) (by omega) (by omega)

/-- The registers and causes of a port that fails, or is rerouted where its REROUTE is set (R349). -/
def State.failed (s : State) (p m : Nat) : State :=
  let s3 := ((s.raise (0x5300 + p) 5 m).modPort p (fun ps => { ps with rds := [], wrs := [], waiting := [], retrain := false, faulty := 0, reqHead := 0, reqData := 0 })).oSet (0x4400 + p) 1 3
  if p < 16 ∧ bit (s3.o (0x2800 + p) 1) 11 then (s3.oSet (0x4400 + p) 1 4).raise (0x5300 + p) 6 (fld (s3.o (0x2800 + p) 1) 8 3) else s3

theorem State.failed_port (hp : p < 48) : let v := s.failed p m
    (v.portOf p).rds = [] ∧ (v.portOf p).wrs = [] ∧ (v.portOf p).waiting = [] ∧ (v.portOf p).retrain = false ∧ bit (v.o (0x5300 + p) 1) 5 = true ∧
      (if p < 16 ∧ bit (s.o (0x2800 + p) 1) 11 = true then v.lstate p = 4 ∧ bit (v.o (0x5300 + p) 1) 6 = true else v.lstate p = 3) := by
  have first : ∃ s3 : State, (s3.portOf p).rds = [] ∧ (s3.portOf p).wrs = [] ∧ (s3.portOf p).waiting = [] ∧ (s3.portOf p).retrain = false ∧ bit (s3.o (0x5300 + p) 1) 5 = true ∧
      s3.lstate p = 3 ∧ s3.o (0x2800 + p) 1 = s.o (0x2800 + p) 1 ∧ s.failed p m = if p < 16 ∧ bit (s3.o (0x2800 + p) 1) 11 = true then
        (s3.oSet (0x4400 + p) 1 4).raise (0x5300 + p) 6 (fld (s3.o (0x2800 + p) 1) 8 3) else s3 := by
    refine ⟨((s.raise (0x5300 + p) 5 m).modPort p (fun ps => { ps with rds := [], wrs := [], waiting := [], retrain := false, faulty := 0, reqHead := 0, reqData := 0 })).oSet (0x4400 + p) 1 3,
      ?_, ?_, ?_, ?_, ?_, State.oSet_o_same _ _ _ _, ?_, rfl⟩
    · rw [State.oSet_portOf, State.portOf_modPort]
    · rw [State.oSet_portOf, State.portOf_modPort]
    · rw [State.oSet_portOf, State.portOf_modPort]
    · rw [State.oSet_portOf, State.portOf_modPort]
    · rw [State.o_oSet_of (by unfold okey; omega), State.modPort_o]
      exact s.raise_port_bit _ _ (by omega)
    · rw [State.o_oSet_of (by unfold okey; omega), State.modPort_o]
      exact s.raise_o _ _ _ (by decide) (by decide) (by omega) (by omega) (by omega) (by omega)
  obtain ⟨s3, rds, wrs, waiting, retrain, cause, state, reroute, failed⟩ := first
  have set : bit ((s3.oSet (0x4400 + p) 1 4).o (0x5300 + p) 1) 5 = true := by
    rw [State.o_oSet_of (by unfold okey; omega)]
    exact cause
  rw [reroute] at failed
  rw [failed]
  by_cases hre : p < 16 ∧ bit (s.o (0x2800 + p) 1) 11 = true
  · rw [if_pos hre]
    dsimp only
    rw [if_pos hre, State.raise_portOf, State.oSet_portOf]
    refine ⟨rds, wrs, waiting, retrain, State.raise_port_keeps _ _ (by omega) set, ?_, State.raise_port_bit _ _ (by omega)⟩
    rw [State.raise_lstate _ _ (by omega) (by decide)]
    exact State.oSet_o_same _ _ _ _
  · rw [if_neg hre]
    dsimp only
    rw [if_neg hre]
    exact ⟨rds, wrs, waiting, retrain, cause, state⟩

/-- A port without requests and frames fails (R349). -/
theorem State.portFail_bare (hp : p < 48) (hr : (s.portOf p).rds = []) (hw : (s.portOf p).wrs = []) (hwait : (s.portOf p).waiting = []) (hq : (s.portOf p).seamQ = []) :
    let u := s.portFail p m
    (u.portOf p).rds = [] ∧ (u.portOf p).wrs = [] ∧ (u.portOf p).retrain = false ∧ bit (u.o (0x5300 + p) 1) 5 = true ∧
      (if p < 16 ∧ bit (s.o (0x2800 + p) 1) 11 = true then u.lstate p = 4 ∧ bit (u.o (0x5300 + p) 1) 6 = true else u.lstate p = 3) := by
  obtain ⟨v, hv, run⟩ : ∃ v, State.failed s p m = v ∧ s.portFail p m = (v.modPort p (fun ps => { ps with seamQ := [] })).drainAfter (s.raise (0x5300 + p) 5 m) p := by
    refine ⟨_, rfl, ?_⟩
    unfold State.portFail
    dsimp only
    rw [State.raise_portOf, hr, hw, hwait, hq]
    rfl
  obtain ⟨rds, wrs, waiting, retrain, cause, state⟩ := State.failed_port (m := m) (s := s) hp
  rw [hv] at rds wrs waiting retrain cause state
  have port : (v.modPort p (fun ps => { ps with seamQ := [] })).portOf p = { v.portOf p with seamQ := [] } := State.portOf_modPort _ _ _
  have drained := State.Drained.drainAfter (k := p) (old := s.raise (0x5300 + p) 5 m) (by rw [port]; exact waiting)
  rw [← run] at drained
  have same : (s.portFail p m).lstate p = v.lstate p := drained.first _
  dsimp only
  rw [same, drained.port, port, drained.first]
  exact ⟨rds, wrs, retrain, cause, state⟩

end

section
variable {s : State} {p m : Nat}

/-- A request that has waited too long leaves its tag (R344). -/
def State.timedOut (s : State) (p : Nat) (wr : Bool) (tag : Nat) (r : PReq) : State :=
  s.modPort p (fun ps => { ps.reqBack r with
    wrs := if wr then tdel ps.wrs tag else ps.wrs, rds := if wr then ps.rds else tdel ps.rds tag,
    forced := if ps.forced.contains (wr, tag) then ps.forced else ps.forced ++ [(wr, tag)] })

theorem State.laneFault_half (hf : ¬(!(decide (p < 48) && decide (m < portModules p) && s.live) || (s.portOf p).retrain) = true) (h : s.lstate p = 2) : s.laneFault p m = s.portFail p m := by
  rw [State.laneFault, if_neg hf, if_neg (by omega), if_pos h]

end

/-- Settles O36: a request that times out, a lane fault in each state of its port, and the ends of a retrain. -/
theorem portFaults : Obligations.PortFaults := by
  unfold Obligations.PortFaults
  intro s p m wr tag r hl hp hm
  have next : ∀ {i : Instr} {u v : State}, exec i s = .next u.settle → u = v → exec i s = .next v.settle := fun h e => e ▸ h
  have fault : (s.portOf p).retrain = false → ¬(!(decide (p < 48) && decide (m < portModules p) && s.live) || (s.portOf p).retrain) = true := fun h => by
    rw [decide_eq_true hp, decide_eq_true hm, hl, h]
    decide
  have timeout : (s.portOf p).retrain = true → s.retrainTimeout p m = s.portFail p m := fun h => by
    rw [State.retrainTimeout, decide_eq_true hp, decide_eq_true hm, hl, h]
    rfl
  refine ⟨fun h24 hf => ?_, fun h24 hf => ?_, fun hr => ⟨fun h1 => ?_, fun h2 => ?_, fun h2 hbare => ?_, fun h0 => ?_⟩, fun hr => ⟨?_, ?_, fun hbare => ?_⟩⟩
  · have on : ¬(!(decide (p < 24) && s.live)) = true := by
      rw [decide_eq_true h24, hl]
      decide
    have ended : s.cplTimeout p wr tag.toNat = (((s.timedOut p wr tag.toNat r).raise (0x5300 + p) 1 tag.toNat).failReq p r).drainAfter s p := by
      unfold State.cplTimeout
      dsimp only
      rw [if_neg on, hf]
      rfl
    refine ⟨_, next rfl ended, ?_, ?_, ?_, rfl⟩
    · rw [State.timedOut, State.portOf_modPort]
    · rw [State.timedOut, State.portOf_modPort]
    · rw [State.timedOut, State.portOf_modPort]
      dsimp only
      split
      · next h => exact List.contains_iff_mem.mp h
      · exact List.mem_append_right _ (List.mem_singleton_self _)
  · have idle : s.cplTimeout p wr tag.toNat = s := by
      unfold State.cplTimeout
      dsimp only
      rw [hf]
      exact ite_self s
    exact next rfl idle
  · have retrains : s.laneFault p m = s.modPort p (fun ps => { ps with retrain := true, faulty := m }) := by
      rw [State.laneFault, if_neg (fault hr), if_pos h1]
    refine ⟨_, next rfl retrains, h1, ?_, ?_, rfl⟩
    · rw [State.portOf_modPort]
    · rw [State.portOf_modPort]
  · exact next rfl (State.laneFault_half (fault hr) h2)
  · obtain ⟨hrd, hwr, hwait, hq⟩ := hbare
    exact ⟨_, next rfl (State.laneFault_half (fault hr) h2), State.portFail_bare hp hrd hwr hwait hq⟩
  · have idle : s.laneFault p m = s := by
      rw [State.laneFault, if_neg (fault hr), if_neg (by omega), if_neg (by omega)]
    exact next rfl idle
  · have on : (decide (p < 48) && s.live && (s.portOf p).retrain) = true := by
      rw [decide_eq_true hp, hl, hr]
      rfl
    refine ⟨?_, ?_, State.raise_port_bit _ _ (by omega), fun h => ?_, fun h => ?_⟩
    · rw [State.raise_lstate _ _ (by omega) (by decide)]
      exact State.oSet_o_same s _ _ _
    · rw [State.raise_portOf, State.portOf_modPort]
    · refine next rfl ((if_pos on).trans (if_pos h))
    · refine next rfl ((if_pos on).trans (if_neg (by omega)))
  · exact next rfl (timeout hr)
  · obtain ⟨hrd, hwr, hwait, hq⟩ := hbare
    exact ⟨_, next rfl (timeout hr), State.portFail_bare hp hrd hwr hwait hq⟩

end Sys2Proof.Machine
end

section
/-! Frames that arrive on a seam port (R354 to R357, R361, R364). -/

namespace Sys2Proof.Machine

section
variable {s : State} {sp : Nat} {f : SeamFrame}

/-! ## The way in -/

theorem State.seamRx_down (h : s.seamUp sp = false) (i : Instr) (k : State → State) : s.seamRx sp i k = s := by
  rw [State.seamRx, h]
  rfl

section
variable (hr : s.run = true) (hu : s.seamUp sp = true) {i : Instr} {k : State → State}
include hr hu

theorem State.seamRx_up : s.seamRx sp i k = k s := by
  have near : ¬s.pstate = 2 := by
    rw [State.run_pstate hr]
    decide
  rw [State.seamRx, hu, State.live_of_run hr, State.wakeEvent_of_run hr, if_neg near]
  rfl

theorem State.seamRow_seamIn (h : s.applyIn i = s.seamIn sp f k) : s.seamRow sp i = s.seamIn sp f k := (State.seamRx_up hr hu).trans h

/-- A frame that is discarded (R356, R361). -/
theorem State.seamIn_stale (hb : f.bad = true ∨ f.dst ≠ s.tileNo) : s.seamIn sp f k = (s.seamCredits sp f).migStale sp f := by
  rw [State.seamIn, hu, State.live_of_run hr]
  exact (if_neg (by decide)).trans (if_pos hb)

/-- A frame for this tile (R354). -/
theorem State.seamIn_good (hb : ¬(f.bad = true ∨ f.dst ≠ s.tileNo)) : s.seamIn sp f k = k (s.seamCredits sp f) := by
  rw [State.seamIn, hu, State.live_of_run hr]
  exact (if_neg (by decide)).trans (if_neg hb)

end

/-- Without frames that wait, the credits of a frame are all it brings (R354). -/
theorem State.seamCredits_alone (hq : (s.portOf (24 + sp)).seamQ = []) : s.seamCredits sp f =
    (s.modPort (24 + sp) (fun p => { p with
      credN := p.credN + f.crn, credE := p.credE + f.cre, retN := p.retN + (if bit f.fflags 0 then 0 else f.credits),
      retE := p.retE + (if bit f.fflags 0 then f.credits else 0) })).modPort (24 + sp) (fun p => { p with seamQ := [] }) := by
  unfold State.seamCredits State.seamDrain
  dsimp only
  rw [State.portOf_modPort, hq]
  rfl

/-- A discarded frame is counted and raises its cause (R361). -/
theorem State.migStale_counts (hsp : sp < 24) : bit ((s.migStale sp f).o (0x5300 + 24 + sp) 1) 9 = true ∧ (s.migStale sp f).o 0x4440 6 = (s.o 0x4440 6 + 1) % 2 ^ 64 := by
  refine ⟨State.raise_bit _ _ _ _ (by omega) (by omega) (by omega), ?_⟩
  rw [State.migStale, State.raise_o _ _ _ _ (by decide) (by decide) (by omega) (by decide) (by decide) (by decide)]
  exact State.oSet_o_same s _ _ _

theorem State.migvecIn_bytes : bytesAt (tget 0 (s.migvecIn f).tile.migVec (vecKey f)) (f.arg0 % 65536) f.plen = bytesAt f.payload 0 f.plen := by
  have put : tget 0 (s.migvecIn f).tile.migVec (vecKey f) = putBytes (tget 0 s.tile.migVec (vecKey f)) (f.arg0 % 65536) f.plen f.payload := tget_tset_same _ _ _ _
  rw [put, bytesAt_putBytes_same, bytesAt, Nat.pow_zero, Nat.div_one]

/-- MAINT of a tile that is not trusted, or of an object outside R364. -/
theorem State.maintIn_refused (h : ¬bit (s.o 0x2700 7) f.src = true ∨ fld f.arg0 8 6 < 8 ∨ 0xB < fld f.arg0 8 6) : s.maintIn f = s.maintAck f.src f.migid 0x80 := by
  unfold State.maintIn
  dsimp only
  split
  · rfl
  · next ht =>
    rw [Bool.not_eq_true', Bool.not_eq_false] at ht
    have ho := h.resolve_left (not_not_intro ht)
    split
    · omega
    · omega
    · omega
    · omega
    · rfl

/-- MAINT of a trusted tile (R364). -/
theorem State.maintIn_trusted (h : bit (s.o 0x2700 7) f.src = true) : s.maintIn f =
    match fld f.arg0 8 6 with
    | 8 =>
      if f.arg1 ≥ 256 ∨ s.co (fld f.arg0 0 6) 8 = 1 ∨ (s.ctxOf (fld f.arg0 0 6)).maintFrom.isSome then s.maintAck f.src f.migid 0x80
      else
        let r := (s.modCtx (fld f.arg0 0 6) (fun x => { x with maintFrom := some (f.src, f.migid) })).idxCmd (fld f.arg0 0 6) f.arg1
        if r.1 ≠ 0 then (r.2.modCtx (fld f.arg0 0 6) (fun x => { x with maintFrom := none })).maintAck f.src f.migid 0x80 else r.2
    | 9 => if f.arg1 < 65536 then (s.coSet (fld f.arg0 0 6) 9 (f.arg1 % 4096)).maintAck f.src f.migid 0 else s.maintAck f.src f.migid 0x80
    | 0xA => (s.coSet (fld f.arg0 0 6) 0xA f.arg1).maintAck f.src f.migid 0
    | 0xB => (s.coSet (fld f.arg0 0 6) 0xB f.arg1).maintAck f.src f.migid 0
    | _ => s.maintAck f.src f.migid 0x80 := by
  unfold State.maintIn
  dsimp only
  rw [h]
  rfl

theorem State.seamUp_lt (h : s.seamUp sp = true) : sp < 24 := by
  unfold State.seamUp at h
  rw [Bool.and_eq_true, decide_eq_true_eq] at h
  exact h.1

end

/-- Settles O37: the way into the tile of each frame, and MAINT object by object. -/
theorem seamArrival : Obligations.SeamArrival := by
  unfold Obligations.SeamArrival
  have next : ∀ {s : State} {i : Instr} {u v : State}, exec i s = .next u.settle → u = v → exec i s = .next v.settle := fun h e => e ▸ h
  have maint : ∀ {s : State} {sp : Nat} {f : SeamFrame}, s.run = true → s.seamUp sp = true → f.bad = false → f.dst = s.tileNo →
      s.seamRow sp (.maint sp f) = (s.seamCredits sp f).maintIn f := fun {s sp f} hr hu hf hd =>
    (State.seamRow_seamIn hr hu rfl).trans (State.seamIn_good hr hu (k := fun u => u.maintIn f) (by rw [hf, hd]; exact fun h => h.elim (fun h => Bool.false_ne_true h) (fun h => h rfl)))
  refine ⟨fun s sp f hr => ⟨fun hu => ⟨?_, ?_⟩, fun hu => ⟨fun hq => ?_, fun hb => ?_, fun hb => ?_⟩⟩, fun s sp f hr hu hf hd => ⟨fun hc => ?_, fun ht ho ha => ?_, fun ht ho => ?_, fun ht ho ha hm hco hst hph hl hal => ?_⟩⟩
  · exact next rfl (State.seamRx_down hu _ _)
  · exact next rfl (State.seamRx_down hu _ _)
  · rw [State.seamCredits_alone hq, State.portOf_modPort, State.portOf_modPort]
    exact ⟨rfl, rfl, rfl, rfl, rfl, rfl, rfl⟩
  · have stale : ∀ (i : Instr) (k : State → State), s.applyIn i = s.seamIn sp f k → s.seamRow sp i = (s.seamCredits sp f).migStale sp f := fun i k h =>
      (State.seamRow_seamIn hr hu h).trans (State.seamIn_stale hr hu hb)
    exact ⟨next rfl (stale (.migrate sp f) (fun u => u.migrateIn sp f) rfl), next rfl (stale (.migvec sp f) (fun u => u.migvecIn f) rfl), next rfl (stale (.result sp f) (fun u => u.resultIn sp f) rfl),
      next rfl (stale (.recs sp f) (fun u => u.recsIn sp f) rfl), next rfl (stale (.maint sp f) (fun u => u.maintIn f) rfl), next rfl (stale (.maintAck sp f) id rfl), next rfl (stale (.credit sp f) id rfl),
      State.migStale_counts (State.seamUp_lt hu)⟩
  · have good : ∀ (i : Instr) (k : State → State), s.applyIn i = s.seamIn sp f k → s.seamRow sp i = k (s.seamCredits sp f) := fun i k h =>
      (State.seamRow_seamIn hr hu h).trans (State.seamIn_good hr hu hb)
    exact ⟨next rfl (good (.credit sp f) id rfl), next rfl (good (.maintAck sp f) id rfl), next rfl (good (.migvec sp f) (fun u => u.migvecIn f) rfl), fun _ => State.migvecIn_bytes⟩
  · refine next rfl ((maint hr hu hf hd).trans (State.maintIn_refused ?_))
    exact hc
  · refine next rfl ((maint hr hu hf hd).trans ?_)
    rw [State.maintIn_trusted ht, ho]
    simp only [if_pos (show f.arg1 < 65536 by omega), Nat.mod_eq_of_lt ha]
  · refine next rfl ((maint hr hu hf hd).trans ?_)
    rw [State.maintIn_trusted ht]
    rcases ho with ho | ho
    · rw [ho]
      rfl
    · rw [ho]
      rfl
  · refine next rfl ((maint hr hu hf hd).trans ?_)
    have load := State.idxCmd_load (s := (s.seamCredits sp f).modCtx (fld f.arg0 0 6) (fun x => { x with maintFrom := some (f.src, f.migid) })) rfl hco hl hst hph hal
    rw [State.maintIn_trusted ht, ho]
    simp only [ha, hm, hco, Option.isSome_none, Bool.false_eq_true, or_self, or_false, load, ne_eq, not_true_eq_false, if_false]
    exact if_neg (by decide)

end Sys2Proof.Machine
end

section
/-! Binning a query, and a MIGRATE that arrives (R186, R198, R356 to R359). -/

namespace Sys2Proof.Machine

/-! ## Binning -/

/-- A query without its place and what it is keyed by. -/
def Query.unkeyed (q : Query) : Query := { q with place := .binned, age := 0, scheme := 0, insOrd := 0, key := 0, keySrc := 0 }

/-- From s to t the query of slot k has been keyed and put into a bin. -/
structure State.Binned (k : Nat) (s t : State) : Prop where
  calm : s.Calm t
  query : (t.q k).unkeyed = (s.q k).unkeyed
  place : (s.q k).place = .binned → (t.q k).place = .binned
  regs : ∀ i j, j < 256 → i < 0x5000 → i ≠ 0x1100 → i ≠ 0x1120 → i ≠ 0x4300 → t.o i j = s.o i j

namespace State.Binned

variable {k : Nat} {s0 s t : State}

theorem refl (k : Nat) (s : State) : s.Binned k s := ⟨.refl s, rfl, id, fun _ _ _ _ _ _ _ => rfl⟩

theorem modQ {f : Query → Query} (hf : ∀ q, (f q).unkeyed = q.unkeyed) (hp : ∀ q, q.place = .binned → (f q).place = .binned) (h : s0.Binned k s) : s0.Binned k (s.modQ k f) :=
  ⟨h.calm.modQ, by rw [State.q_modQ, hf]; exact h.query, fun h0 => by rw [State.q_modQ]; exact hp _ (h.place h0), h.regs⟩

theorem bin (h : s0.Binned k s) : s0.Binned k (s.modQ k (fun q => { q with place := .binned })) := by
  refine h.modQ ?_ ?_
  · exact fun _ => rfl
  · exact fun _ _ => rfl

theorem modTile {f : TileSt → TileSt} (h : s0.Binned k s) : s0.Binned k (s.modTile f) := ⟨h.calm.modTile, h.query, h.place, h.regs⟩

theorem modBin {i : Nat} {f : Bin → Bin} (h : s0.Binned k s) : s0.Binned k (s.modBin i f) := h.modTile

theorem tick (h : s0.Binned k s) : s0.Binned k s.tick.2 := ⟨h.calm.of rfl, h.query, h.place, h.regs⟩

theorem oInc {j : Nat} (hj : 2 < j ∧ j < 256) (h : s0.Binned k s) : s0.Binned k (s.oInc 0x4300 j) :=
  ⟨h.calm.oInc (by decide) hj, h.query, h.place, fun i l hl hi h11 h12 h43 => (State.o_oSet_of (by unfold okey; omega)).trans (h.regs i l hl hi h11 h12 h43)⟩

theorem raise {n what : Nat} (hn : n < 24) (h : s0.Binned k s) : s0.Binned k (s.raise 0x5400 n what) := by
  have same : (s.raise 0x5400 n what).q k = s.q k := by
    have slot : (s.raise 0x5400 n what).slot = s.slot := (congrArg State.slot (s.raise_core _ _ _) :)
    rw [State.q, slot]
    rfl
  refine ⟨h.calm.raise (by decide) hn, ?_, fun h0 => ?_, fun i l hl hi h11 h12 h43 => ?_⟩
  · rw [same]
    exact h.query
  · rw [same]
    exact h.place h0
  · rw [State.raise_o _ _ _ _ hn hl (by omega) h11 h12 (by omega)]
    exact h.regs i l hl hi h11 h12 h43

theorem toEscape (h : s0.Binned k s) : s0.Binned k (s.toEscape k) := by
  unfold State.toEscape
  dsimp only
  split
  · exact (h.modBin.bin.oInc (by decide)).raise (by decide)
  · exact h.modBin.bin.oInc (by decide)

theorem toBin (h : s0.Binned k s) : s0.Binned k (s.toBin k) := by
  unfold State.toBin
  dsimp only
  split
  · split
    · exact h.modBin.bin
    · exact h.modBin.bin.oInc (by decide)
  · exact h.toEscape

end State.Binned

section
variable {s : State} {k : Nat}

/-- A migrated query is binned at once (R187, R359). -/
theorem State.insert_served {v : Served} (hv : (s.q k).served = some v) : s.Binned k (s.insert k 2) := by
  have admitted : ¬(2 = 2 ∧ (s.q k).served = none ∧ ((s.hndOf (s.q k).qr.handle).state = 2 ∨ (s.hndOf (s.q k).qr.handle).state = 3)) := by
    rw [hv]
    exact fun h => Option.some_ne_none _ h.2.1
  have entered : s.Binned k (s.tick.2.modQ k (fun q => { q with place := .binned, age := s.clkF, scheme := s.scheme, insOrd := s.tick.1 })) := by
    refine .modQ ?_ ?_ (State.Binned.refl k s).tick
    · exact fun _ => rfl
    · exact fun _ _ => rfl
  unfold State.insert
  dsimp only
  rw [if_neg (show ¬2 = 1 by decide), if_neg admitted, hv]
  split
  · refine .modTile (.modQ ?_ ?_ (State.Binned.refl k s))
    · exact fun _ => rfl
    · exact fun _ _ => rfl
  · split
    · refine .toBin (.modQ ?_ ?_ entered)
      · exact fun _ => rfl
      · exact fun _ h => h
    · refine .toBin (.modQ ?_ ?_ entered)
      · exact fun _ => rfl
      · exact fun _ h => h

end

/-! ## MIGRATE -/

section
variable (s : State) (f : SeamFrame)

/-- What a MIGRATE brings beyond its query (R357, R359). -/
def State.stub (sp : Nat) : Served :=
  let p := f.payload
  let r := QRec.ofBytes (p % 2 ^ 512)
  let mf := bytesAt p 0x50 1
  { tile := f.src, sp := sp, migid := f.migid, hops := fld f.routew 16 2, baseLevel := fld f.routew 12 4, rcap := bytesAt p 0x58 4,
    root := f.arg0, instPath := (List.range (min 4 (fld mf 0 3))).map (fun i => let w := bytesAt p (0x40 + 4 * i) 4; (fld w 0 24, bit w 24)),
    closed := bit mf 3, octx := r.ctx, forceOpq := bit mf 4, tlo := bytesAt p 0x54 4, pleft := bytesAt p 0x5C 2,
    vec := if isMetric r.kind then (s.hndOf (f.routew % 4096)).elems (tget 0 s.tile.migVec (vecKey f)) (s.hndOf (f.routew % 4096)).dim else [] }

/-- The vector of a MIGRATE is taken. -/
def State.vecTaken : State := s.modTile (fun t => { t with migVec := tdel t.migVec (vecKey f) })

theorem State.vecTaken_slot : (s.vecTaken f).slot = s.slot := rfl
theorem State.vecTaken_o (i j : Nat) : (s.vecTaken f).o i j = s.o i j := rfl

/-- The query of a MIGRATE (R357, R359). -/
def State.migrated (sp : Nat) : Query :=
  let p := f.payload
  let r := QRec.ofBytes (p % 2 ^ 512)
  let body := if isMetric r.kind then putBytes r.body 0xE 2 (bytesAt p 0x5C 2) else r.body
  let lst := (List.range (min 256 (bytesAt p 0x52 2))).map (fun i =>
    let b := bytesAt p (0x60 + 16 * i) 16
    ({ t := b % 2 ^ 32, w := fld b 32 32, id := fld b 64 64 } : LEntry))
  { place := .binned, qr := { r with ctx := (s.hndOf (f.routew % 4096)).owner, handle := f.routew % 4096, body := body }, body0 := body, list := lst,
    served := some (s.stub f sp), uid := s.order, traceCap := servedCap, anyT := r.tmax }

/-- Whether the ROOT of a stub is a reference (R72). -/
def Handle.rootLegal (h : Handle) (root : Nat) : Bool := match longRef root with | some x => refOk h .stub x | none => false

theorem State.migrateIn_eq (sp : Nat) : s.migrateIn sp f =
    let h := s.hndOf (f.routew % 4096)
    let r := QRec.ofBytes (f.payload % 2 ^ 512)
    let back := fun (t : State) (st : Nat) => t.answer (s.stub f sp) 2 st r.trail 0x70 r.bytes (f.routew % 4096)
    if h.state = 0 ∨ !s.ctxEn h.owner ∨ !h.distrib then back (s.vecTaken f) stMigration
    else if h.rootLegal f.arg0 = false then back (s.vecTaken f) stFormat
    else if s.o 0x2700 2 ≤ s.poolUse (fun x => x == fld f.routew 16 2) ∨ min 16777216 s.parkUnits ≤ s.queriesIn then back ((s.vecTaken f).oInc 0x4440 3) 1
    else (((s.vecTaken f).tick.2.modQ s.freeSlot (fun _ => s.migrated f sp)).insert s.freeSlot 2).oInc 0x4440 2 := rfl

/-- A MIGRATE that is served (R359). -/
theorem State.migrated_binned (sp : Nat) : let u := (((s.vecTaken f).tick.2.modQ s.freeSlot (fun _ => s.migrated f sp)).insert s.freeSlot 2).oInc 0x4440 2
    u.o 0x4440 2 = (s.o 0x4440 2 + 1) % 2 ^ 64 ∧ (u.q s.freeSlot).place = .binned ∧ (u.q s.freeSlot).qr = (s.migrated f sp).qr ∧ (u.q s.freeSlot).uid = s.order ∧
    (u.q s.freeSlot).served = some (s.stub f sp) := by
  generalize hs : (s.vecTaken f).tick.2.modQ s.freeSlot (fun _ => s.migrated f sp) = t
  have own : t.q s.freeSlot = s.migrated f sp := by rw [← hs, State.q_modQ]
  have count : t.o 0x4440 2 = s.o 0x4440 2 := by rw [← hs]; rfl
  have binned := State.insert_served (s := t) (k := s.freeSlot) (v := s.stub f sp) (by rw [own]; rfl)
  have query := binned.query
  rw [own] at query
  refine ⟨?_, binned.place (by rw [own]; rfl), (congrArg Query.qr query :), (congrArg Query.uid query :), (congrArg Query.served query :)⟩
  have same := binned.regs 0x4440 2 (by decide) (by decide) (by decide) (by decide) (by decide)
  rw [count] at same
  rw [← same]
  exact State.oSet_o_same _ _ _ _

end

/-- Settles O38: the answers of R359 in their order, and the query that is binned. -/
theorem servingAMigration : Obligations.ServingAMigration := by
  unfold Obligations.ServingAMigration
  intro s sp f hr hu hf hd
  have good : ¬(f.bad = true ∨ f.dst ≠ s.tileNo) := by
    rw [hf, hd]
    exact fun h => h.elim (fun h => Bool.false_ne_true h) fun h => h rfl
  have run : exec (.migrate sp f) s = .next ((s.seamCredits sp f).migrateIn sp f).settle :=
    congrArg (fun u => (Host.Outcome.next (State.settle u) : Out)) ((State.seamRow_seamIn hr hu rfl).trans (State.seamIn_good hr hu (k := fun u => u.migrateIn sp f) good))
  rw [State.migrateIn_eq] at run
  generalize s.seamCredits sp f = s1 at run
  dsimp only at run ⊢
  have absent : ((s1.hndOf (f.routew % 4096)).state = 0 ∨ s1.ctxEn (s1.hndOf (f.routew % 4096)).owner = false ∨ (s1.hndOf (f.routew % 4096)).distrib = false) ↔
      ((s1.hndOf (f.routew % 4096)).state = 0 ∨ (!s1.ctxEn (s1.hndOf (f.routew % 4096)).owner) = true ∨ (!(s1.hndOf (f.routew % 4096)).distrib) = true) := by
    rw [Bool.not_eq_true', Bool.not_eq_true']
  have full : (s1.o 0x2700 2 ≤ s1.poolUse (fun x => x == fld f.routew 16 2) ∨ 16777216 ≤ s1.queriesIn ∨ s1.parkUnits ≤ s1.queriesIn) ↔
      (s1.o 0x2700 2 ≤ s1.poolUse (fun x => x == fld f.routew 16 2) ∨ min 16777216 s1.parkUnits ≤ s1.queriesIn) := by
    omega
  rw [absent, full]
  refine ⟨fun ha => ?_, fun ha hroot => ?_, fun ha hroot hfull => ?_, fun ha hroot hfull => ?_⟩
  · rw [if_pos ha] at run
    exact ⟨s1.stub f sp, s1.vecTaken f, rfl, rfl, s1.vecTaken_slot f, (s1.vecTaken_o f _ _).trans (if_neg (by decide)).symm, run⟩
  · have illegal : (s1.hndOf (f.routew % 4096)).rootLegal f.arg0 = false := hroot
    rw [if_neg ha, if_pos illegal] at run
    exact ⟨s1.stub f sp, s1.vecTaken f, rfl, rfl, s1.vecTaken_slot f, (s1.vecTaken_o f _ _).trans (if_neg (by decide)).symm, run⟩
  · have legal : (s1.hndOf (f.routew % 4096)).rootLegal f.arg0 = true := hroot
    rw [if_neg ha, if_neg (by rw [legal]; decide), if_pos hfull] at run
    refine ⟨s1.stub f sp, (s1.vecTaken f).oInc 0x4440 3, rfl, rfl, s1.vecTaken_slot f, ?_, run⟩
    rw [if_pos rfl, ← s1.vecTaken_o f]
    exact State.oSet_o_same _ _ _ _
  · have legal : (s1.hndOf (f.routew % 4096)).rootLegal f.arg0 = true := hroot
    rw [if_neg ha, if_neg (by rw [legal]; decide), if_neg hfull] at run
    obtain ⟨count, place, qr, uid, served⟩ := s1.migrated_binned f sp
    refine ⟨_, run, count, place, ?_, ?_, ?_, uid, ?_, ?_⟩
    · rw [qr]
      rfl
    · rw [qr]
      rfl
    · rw [qr]
      rfl
    · rw [served]
      rfl
    · rw [served]
      rfl

end Sys2Proof.Machine
end

section
/-! RESULT, BUSY and RECS at the origin of a migration (R361, R363, R365). -/

namespace Sys2Proof.Machine

section
variable {s : State} {sp e k : Nat} {f : SeamFrame} {m : MigInfo}

theorem State.modQ_migOf (s : State) (k e : Nat) (f : Query → Query) : (s.modQ k f).migOf e = s.migOf e := rfl
theorem State.modMig_q (s : State) (k e : Nat) (f : MigEntry → MigEntry) : (s.modMig e f).q k = s.q k := rfl

/-- Whether a frame is for the current migration of its entry (R361). -/
theorem State.migMatch_iff : s.migMatch f = true ↔ (s.migOf (f.migid % 65536)).used = true ∧ (s.migOf (f.migid % 65536)).gen = f.migid / 65536 := by
  rw [State.migMatch, Bool.and_eq_true, beq_iff_eq]

/-! ## Frames -/

theorem State.resultIn_stale (h : s.migMatch f = false) : s.resultIn sp f = s.migStale sp f := by
  rw [State.resultIn, h]
  rfl

theorem State.recsIn_stale (h : s.migMatch f = false) : s.recsIn sp f = s.migStale sp f := by
  rw [State.recsIn, h]
  rfl

section
variable (hm : s.migMatch f = true)
include hm

theorem State.resultIn_orphan (ho : (s.migOf (f.migid % 65536)).orphan = true) : s.resultIn sp f = s.migFree (f.migid % 65536) := by
  rw [State.resultIn, hm]
  exact (if_neg (by decide)).trans (if_pos ho)

theorem State.recsIn_orphan (ho : (s.migOf (f.migid % 65536)).orphan = true) : s.recsIn sp f = s := by
  rw [State.recsIn, hm]
  exact (if_neg (by decide)).trans (if_pos ho)

variable (ho : (s.migOf (f.migid % 65536)).orphan = false)
include ho

theorem State.resultIn_busy (hst : f.arg0 % 256 = 1) : s.resultIn sp f = s.modMig (f.migid % 65536) (fun x => { x with backoff := true, staged := [] }) := by
  rw [State.resultIn, hm]
  exact (if_neg (by decide)).trans ((if_neg (by rw [ho]; decide)).trans (if_pos hst))

theorem State.recsIn_staged : s.recsIn sp f = (s.modMig (f.migid % 65536) (fun x => { x with
    staged := x.staged ++ (List.range (f.arg0 % 65536)).map (fun i => (fld f.arg0 16 2, bytesAt f.payload (32 * i) 32)) })).migCheck sp (f.migid % 65536) := by
  rw [State.recsIn, hm]
  exact (if_neg (by decide)).trans (if_neg (by rw [ho]; decide))

/-- A RESULT that is kept until its records are in (R361). -/
theorem State.resultIn_kept (hst : f.arg0 % 256 ≠ 1)
    (hun : ¬(f.arg0 % 256 = stUnrecovered ∧ s.mending (s.q (s.migOf (f.migid % 65536)).slot).qr.ctx = true ∧ (s.q (s.migOf (f.migid % 65536)).slot).served = none)) :
    s.resultIn sp f = (s.modMig (f.migid % 65536) (fun x => { x with res := some f })).migCheck sp (f.migid % 65536) := by
  rw [State.resultIn, hm]
  exact (if_neg (by decide)).trans ((if_neg (by rw [ho]; decide)).trans ((if_neg hst).trans (if_neg hun)))

end

theorem State.migCheck_none (h : (s.migOf e).res = none) : s.migCheck sp e = s := by
  rw [State.migCheck, h]

theorem State.migCheck_waits (h : (s.migOf e).res = some f) (hn : (s.migOf e).staged.length < f.arg0 / 2 ^ 32) : s.migCheck sp e = s := by
  rw [State.migCheck, h]
  exact if_neg (Nat.not_le.mpr hn)

theorem State.migCheck_applies (h : (s.migOf e).res = some f) (hn : f.arg0 / 2 ^ 32 ≤ (s.migOf e).staged.length) : s.migCheck sp e = s.applyResult sp e f := by
  rw [State.migCheck, h]
  exact if_pos hn

/-! ## The records and the result -/

/-- A release of nothing leaves the migration table. -/
theorem State.releaseOut_nothing (hk : isStreamed (s.q k).qr.kind = false) : (s.releaseOut k [] []).mig = s.mig := by
  unfold State.releaseOut
  simp only [hk, Bool.false_eq_true, if_false, List.append_nil, List.map_nil, List.getLast?_nil]
  split
  · unfold State.sendRecs
    dsimp only
    split
    · rfl
    · rfl
  · rfl

/-- What the records of a RESULT give before its values are applied (R361). -/
def State.resultRecs (s : State) (e : Nat) : State :=
  (s.modMig e (fun x => { x with pages := 0 })).releaseOut (s.migOf e).slot (((s.migOf e).staged.filter (fun y => y.1 != 2)).map stagedRec)
    (stagedSamples (((s.migOf e).staged.filter (fun y => y.1 == 2)).map (fun y => y.2)))

section
variable (hq : (s.q (s.migOf e).slot).mig = some m)
include hq

/-- A RESULT with a fault (R361, R363). -/
theorem State.applyResult_fault (h : f.arg0 % 256 ≠ stDone ∧ f.arg0 % 256 ≠ stTruncated) :
    s.applyResult sp e f = ((s.resultRecs e).raise (0x5300 + 24 + sp) 8 (f.arg0 % 256 + m.home * 256)).migFault e := by
  unfold State.applyResult
  dsimp only
  rw [hq]
  exact if_pos h

/-- A RESULT with PARTIAL (R361). -/
theorem State.applyResult_again (h : f.arg0 % 256 = stDone) (hb : bit f.arg0 9 = true) :
    ∃ (u : State) (n : Nat), s.applyResult sp e f = (u.modMig e (fun y => { y with subtrail := f.arg1, attempts := 1, pages := n })).migAgain e := by
  unfold State.applyResult
  dsimp only
  rw [hq]
  dsimp only
  rw [if_neg (fun k => k.1 h), if_pos ⟨h, hb⟩]
  exact ⟨_, _, rfl⟩

/-- A RESULT of a closest hit (R361). -/
theorem State.applyResult_closest (h : f.arg0 % 256 = stDone) (hb : bit f.arg0 9 = false) (hc : m.closed = false) :
    ∃ (lst : List LEntry), s.applyResult sp e f =
      ((((((s.resultRecs e).modQ (s.migOf e).slot (fun q => q.takeResult (QRec.ofBytes (f.payload % 2 ^ 512)) lst (bytesAt f.payload 0x40 0x30) (bit f.arg0 8))).modQ (s.migOf e).slot
        (fun q => { q with remoteHit := if bit f.arg0 8 then { avalid := true, attrs := bytesAt f.payload 0x40 0x30 } else q.remoteHit })).migFree e).modQ (s.migOf e).slot
        (fun q => { q.afterStub m (bit f.arg0 8) (f.arg0 % 256 == stTruncated) with mig := none, nextItem := m.next })).insert (s.migOf e).slot 1) := by
  unfold State.applyResult
  dsimp only
  rw [hq]
  dsimp only
  rw [if_neg (fun k => k.1 h), if_neg (by rw [hb]; exact fun k => Bool.false_ne_true k.2), if_neg (by rw [hc]; exact fun k => Bool.false_ne_true k.1)]
  exact ⟨_, rfl⟩

end

theorem Query.takeResult_haveHit (q : Query) (r : QRec) (lst : List LEntry) (attrs : Nat) (valid : Bool) : (q.takeResult r lst attrs valid).qr.haveHit = r.haveHit := rfl

theorem Query.afterStub_kept (q : Query) (m : MigInfo) (valid trunc : Bool) : (q.afterStub m valid trunc).qr.haveHit = q.qr.haveHit ∧ (q.afterStub m valid trunc).remoteHit = q.remoteHit := by
  unfold Query.afterStub
  dsimp only
  split
  · split <;> exact ⟨rfl, rfl⟩
  · split <;> exact ⟨rfl, rfl⟩

/-- The record of a closest hit after its RESULT, and its entry, which is free (R358, R361). -/
theorem State.resultRecs_gen (hstg : (s.migOf e).staged = []) (hk : (s.q (s.migOf e).slot).qr.kind = kRayClosest) : ((s.resultRecs e).migOf e).gen = (s.migOf e).gen := by
  have streamed : isStreamed ((s.modMig e (fun x => { x with pages := 0 })).q (s.migOf e).slot).qr.kind = false := by
    rw [State.modMig_q, hk]
    rfl
  have table : (s.resultRecs e).mig = (s.modMig e (fun x => { x with pages := 0 })).mig := by
    rw [State.resultRecs, hstg]
    exact State.releaseOut_nothing streamed
  rw [State.migOf, table, ← State.migOf, State.migOf_modMig]

end

/-- Settles O39: a RESULT and a RECS frame by the state of the entry that they name, and what a RESULT that is applied leaves. -/
theorem migrationResults : Obligations.MigrationResults := by
  unfold Obligations.MigrationResults
  intro s sp f m hr hu hf hd
  have good : ¬(f.bad = true ∨ f.dst ≠ s.tileNo) := by
    rw [hf, hd]
    exact fun h => h.elim (fun h => Bool.false_ne_true h) fun h => h rfl
  have runResult : exec (.result sp f) s = .next ((s.seamCredits sp f).resultIn sp f).settle :=
    congrArg (fun u => (Host.Outcome.next (State.settle u) : Out)) ((State.seamRow_seamIn hr hu rfl).trans (State.seamIn_good hr hu (k := fun u => u.resultIn sp f) good))
  have runRecs : exec (.recs sp f) s = .next ((s.seamCredits sp f).recsIn sp f).settle :=
    congrArg (fun u => (Host.Outcome.next (State.settle u) : Out)) ((State.seamRow_seamIn hr hu rfl).trans (State.seamIn_good hr hu (k := fun u => u.recsIn sp f) good))
  generalize s.seamCredits sp f = s1 at runResult runRecs
  dsimp only
  have current : ((s1.migOf (f.migid % 65536)).used = true ∧ (s1.migOf (f.migid % 65536)).gen = f.migid / 65536) → s1.migMatch f = true := State.migMatch_iff.mpr
  have kept := fun hcur ho hst hun => congrArg (fun u => (Host.Outcome.next (State.settle u) : Out)) (State.resultIn_kept (sp := sp) (current hcur) ho hst hun)
  have held : ((s1.modMig (f.migid % 65536) (fun x => { x with res := some f })).migOf (f.migid % 65536)) = { s1.migOf (f.migid % 65536) with res := some f } := State.migOf_modMig _ _ _
  generalize hs2 : s1.modMig (f.migid % 65536) (fun x => { x with res := some f }) = s2 at kept held ⊢
  have slot : s2.slot = s1.slot := by rw [← hs2]; rfl
  have query : ∀ k, s2.q k = s1.q k := fun k => by rw [← hs2]; rfl
  obtain ⟨done1, trunc1, window1, doneUn, truncUn, doneWindow, truncWindow⟩ :
      stDone ≠ 1 ∧ stTruncated ≠ 1 ∧ 1 < stWindow ∧ stDone ≠ stUnrecovered ∧ stTruncated ≠ stUnrecovered ∧ stDone < stWindow ∧ stTruncated < stWindow := by decide
  have applied : ∀ {st : Nat}, (s1.migOf (f.migid % 65536)).used = true ∧ (s1.migOf (f.migid % 65536)).gen = f.migid / 65536 → (s1.migOf (f.migid % 65536)).orphan = false →
      f.arg0 % 256 = st → st ≠ 1 → st ≠ stUnrecovered → f.arg0 / 2 ^ 32 ≤ (s1.migOf (f.migid % 65536)).staged.length →
      exec (.result sp f) s = .next (s2.applyResult sp (f.migid % 65536) f).settle := fun {st} hcur ho hst h1 hun hn => by
    rw [runResult]
    refine (kept hcur ho (by rw [hst]; exact h1) (fun h => hun (hst.symm.trans h.1))).trans ?_
    rw [State.migCheck_applies (f := f) (by rw [held]) (by rw [held]; exact hn)]
  refine ⟨fun hcur => ?_, fun hcur ho => ?_, fun hcur ho => ⟨fun hst => ?_, fun hres => ?_, fun hst hmend hn => ?_, fun hn hst => ?_, fun hstg hm hk ht hc hn hst hb => ?_, fun hstg hm hn hst hb => ?_, fun hstg hm hn hst hun => ?_⟩⟩
  · have other : s1.migMatch f = false := Bool.eq_false_iff.mpr fun h => hcur (State.migMatch_iff.mp h)
    rw [runResult, runRecs, State.resultIn_stale other, State.recsIn_stale other]
    exact ⟨rfl, rfl⟩
  · rw [runResult, runRecs, State.resultIn_orphan (current hcur) ho, State.recsIn_orphan (current hcur) ho]
    exact ⟨rfl, rfl⟩
  · rw [State.resultIn_busy (current hcur) ho hst] at runResult
    refine ⟨_, runResult, ?_, ?_, ?_, rfl⟩
    · rw [State.migOf_modMig]
    · rw [State.migOf_modMig]
    · rw [State.migOf_modMig]
  · rw [State.recsIn_staged (current hcur) ho, State.migCheck_none (by rw [State.migOf_modMig]; exact hres)] at runRecs
    refine ⟨_, runRecs, ?_, rfl⟩
    rw [State.migOf_modMig, List.length_append, List.length_map, List.length_range]
  · have h1 : f.arg0 % 256 ≠ 1 := by omega
    rw [State.resultIn_kept (current hcur) ho h1 (fun h => Bool.false_ne_true (hmend.symm.trans h.2.1)), hs2, State.migCheck_waits (f := f) (by rw [held]) (by rw [held]; exact hn)] at runResult
    exact ⟨s2, runResult, by rw [held], slot⟩
  · exact applied hcur ho rfl (by omega) (by omega) hn
  · obtain ⟨lst, result⟩ := State.applyResult_closest (s := s2) (sp := sp) (e := f.migid % 65536) (f := f) (m := m) (by rw [held, query]; exact hm) hst hb hc
    have run := applied hcur ho hst done1 doneUn (by rw [hn]; exact Nat.zero_le _)
    rw [result, held] at run
    have gen := State.resultRecs_gen (s := s2) (e := f.migid % 65536) (by rw [held]; exact hstg) (by rw [held, query]; exact hk)
    rw [held] at gen
    refine ⟨_, run, ?_, ?_, ?_, ?_, fun hv => ?_⟩
    · rw [State.modQ_migOf, State.migFree, State.migOf_modMig]
    · rw [State.modQ_migOf, State.migFree, State.migOf_modMig]
      exact gen
    · rw [State.q_modQ]
    · rw [State.q_modQ]
      refine (Query.afterStub_kept _ _ _ _).1.trans ?_
      rw [State.migFree, State.modMig_q, State.q_modQ, State.q_modQ]
      rfl
    · rw [State.q_modQ]
      refine (Query.afterStub_kept _ _ _ _).2.trans ?_
      rw [State.migFree, State.modMig_q, State.q_modQ, hv]
      rfl
  · obtain ⟨u, n, result⟩ := State.applyResult_again (s := s2) (sp := sp) (e := f.migid % 65536) (f := f) (m := m) (by rw [held, query]; exact hm) hst hb
    have run := applied hcur ho hst done1 doneUn (by rw [hn]; exact Nat.zero_le _)
    rw [result] at run
    refine ⟨_, run, ?_, ?_⟩
    · rw [State.migOf_modMig]
    · rw [State.migOf_modMig]
  · have result := State.applyResult_fault (s := s2) (sp := sp) (e := f.migid % 65536) (f := f) (m := m) (by rw [held, query]; exact hm) (by omega)
    have run := applied hcur ho rfl (by omega) hun (by rw [hn]; exact Nat.zero_le _)
    rw [result] at run
    have near := State.seamUp_lt hu
    exact ⟨_, run, State.raise_bit _ _ _ _ (by omega) (by omega) (by omega)⟩

end Sys2Proof.Machine
end

section
/-! Migrations that go out, go out again, and fail (R358, R363, R365). -/

namespace Sys2Proof.Machine

section
variable {s : State}

/-! ## Sending leaves the migration table -/

theorem State.quotaCheck_mig (s : State) (c : Nat) : (s.quotaCheck c).mig = s.mig := by
  unfold State.quotaCheck
  dsimp only
  split
  · exact State.raise_mig _ _ _ _
  · rfl

theorem State.freeQuery_mig (s : State) (k : Nat) : (s.freeQuery k).mig = s.mig := by
  unfold State.freeQuery
  dsimp only
  split
  · rfl
  · rw [State.quotaCheck_mig]
    exact foldl_holds (P := fun u : State => u.mig = s.mig) rfl fun _ _ h => h

theorem State.resultSent_mig (s : State) (f : SeamFrame) : (s.resultSent f).mig = s.mig := by
  unfold State.resultSent
  split
  · rfl
  · exact foldl_holds (P := fun u : State => u.mig = s.mig) rfl fun u k h => (u.freeQuery_mig k).trans h

theorem State.seamOut_mig (s : State) (k : Nat) (f : SeamFrame) (esc : Bool) : (s.seamOut k f esc).mig = s.mig := by
  unfold State.seamOut
  dsimp only
  rw [State.resultSent_mig]
  show State.mig (if _ then _ else _) = s.mig
  split
  · rfl
  · rfl

theorem State.seamTry_mig (s : State) (k : Nat) (f : SeamFrame) : (s.seamTry k f).mig = s.mig := by
  unfold State.seamTry
  dsimp only
  split
  · rfl
  · split
    · exact State.seamOut_mig _ _ _ _
    · split
      · exact State.seamOut_mig _ _ _ _
      · rfl

theorem State.sendSeam_mig {u : State} {home : Nat} {f : SeamFrame} (h : s.sendSeam home f = some u) : u.mig = s.mig := by
  unfold State.sendSeam at h
  split at h
  · cases h
  · rw [← Option.some.inj h, State.seamTry_mig]
    split
    · exact State.raise_mig _ _ _ _
    · split
      · rfl
      · rfl

theorem State.trySeam_mig (s : State) (home : Nat) (f : SeamFrame) : ((s.sendSeam home f).getD s).mig = s.mig := by
  cases h : s.sendSeam home f with
  | none => rfl
  | some u => exact State.sendSeam_mig h

theorem State.sendVec_mig (s : State) (home migid rw bytes n : Nat) : (s.sendVec home migid rw bytes n).mig = s.mig :=
  foldl_holds (P := fun u : State => u.mig = s.mig) rfl fun u _ h => (u.trySeam_mig _ _).trans h

/-- The MIGRATE of an entry leaves the table (R358). -/
theorem State.migOut_mig (s : State) (e : Nat) : (s.migOut e).mig = s.mig := by
  unfold State.migOut
  dsimp only
  split
  · rfl
  · split
    · rfl
    · refine (State.trySeam_mig _ _ _).trans ?_
      split
      · exact State.sendVec_mig _ _ _ _ _ _
      · rfl

theorem State.migOut_migOf (s : State) (e n : Nat) : (s.migOut e).migOf n = s.migOf n := by
  rw [State.migOf, State.migOut_mig]
  rfl

/-- The MIGRATE goes out again under the next GEN (R361, R363). -/
theorem State.migAgain_migOf (s : State) (e : Nat) : (s.migAgain e).migOf e =
    { s.migOf e with gen := ((s.migOf e).gen + 1) % 65536, staged := [], res := none, backoff := false } := by
  rw [State.migAgain, State.migOut_migOf, State.migOf_modMig]

/-! ## Timeouts -/

theorem State.migTimeout_orphan {n : Nat} (hl : s.live = true) (hu : (s.migOf n).used = true) (ho : (s.migOf n).orphan = true) : s.migTimeout n =
    if s.o 0x2700 5 ≤ (s.migOf n).attempts then s.migFree n else s.modMig n (fun x => { x with attempts := x.attempts + 1 }) := by
  rw [State.migTimeout, hl, hu, ho]
  rfl

theorem State.migTimeout_retry {n : Nat} (hr : s.run = true) (hu : (s.migOf n).used = true) (ho : (s.migOf n).orphan = false) (hb : (s.migOf n).backoff = false) : s.migTimeout n = s.migRetry n := by
  rw [State.migTimeout, State.live_of_run hr, hu, ho, hb, hr]
  rfl

theorem State.migTimeout_backoff {n : Nat} (ho : (s.migOf n).orphan = false) (hb : (s.migOf n).backoff = true) : s.migTimeout n = s := by
  rw [State.migTimeout, ho, hb]
  exact ite_self s

/-- Outside a mending context MIG_RETRY further attempts are made (R363). -/
theorem State.migRetry_plain {n : Nat} (hm : s.mending (s.q (s.migOf n).slot).qr.ctx = false) : s.migRetry n =
    if (s.migOf n).attempts < s.o 0x2700 5 + 1 then ((s.oInc 0x4440 4).modMig n (fun x => { x with attempts := x.attempts + 1 })).migAgain n else s.migFault n := by
  simp only [State.migRetry, hm, Bool.and_false, Bool.false_eq_true, if_false]

/-! ## Sending -/

theorem firstIdx_some {n i : Nat} {p : Nat → Bool} (hi : i < n) (hp : p i = true) (hl : ∀ j, j < i → p j = false) : firstIdx n p = some i := by
  rw [firstIdx, List.find?_range_eq_some]
  refine ⟨hp, List.mem_range.mpr hi, fun j hj => ?_⟩
  rw [hl j hj]
  rfl

end

/-- Settles O40: the entry that MIGRATE_SEND takes, and what each timer does with it. -/
theorem migrationsOut : Obligations.MigrationsOut := by
  unfold Obligations.MigrationsOut
  intro s k i m hr
  have next : ∀ {i : Instr} {u v : State}, exec i s = .next u.settle → u = v → exec i s = .next v.settle := fun h e => e ▸ h
  refine ⟨fun hp hkill hab hent hmet hmig hrecs hi hfree hfull => ?_, fun n hu => ⟨fun ho => ?_, fun ho hb hm => ⟨fun ha => ?_, fun ha => ?_⟩, fun ho hb => ⟨?_, ?_⟩⟩⟩
  · have start : s.migrateSend k = s.migStart k := by
      rw [State.migrateSend, hr, hp, hkill, hab, hent, hmet]
      rfl
    have entry : firstIdx 16384 (fun i => !(s.migOf (16384 * (s.q k).hops + i)).used) = some i :=
      firstIdx_some hi (by rw [hfree]; rfl) fun j hj => by rw [hfull j hj]; rfl
    have sent : s.migStart k = (s.modMig (16384 * (s.q k).hops + i) (fun x =>
        { used := true, ctx := (s.q k).qr.ctx, slot := k, gen := (x.gen + 1) % 65536, home := m.home, attempts := 1 })).migOut (16384 * (s.q k).hops + i) := by
      unfold State.migStart
      dsimp only
      rw [hmig, entry, hrecs]
      rfl
    refine ⟨_, next rfl (start.trans sent), rfl, ?_⟩
    rw [State.migOf_modMig]
  · refine ⟨_, next rfl (State.migTimeout_orphan (State.live_of_run hr) hu ho), ?_⟩
    split
    · rw [State.migFree, State.migOf_modMig]
    · rw [State.migOf_modMig]
  · have again := (State.migTimeout_retry hr hu ho hb).trans ((State.migRetry_plain hm).trans (if_pos (Nat.lt_succ_of_le ha)))
    refine ⟨_, next rfl again, ?_⟩
    refine (State.migAgain_migOf _ _).trans ?_
    rw [State.migOf_modMig, hb]
    rfl
  · exact next rfl ((State.migTimeout_retry hr hu ho hb).trans ((State.migRetry_plain hm).trans (if_neg (by omega))))
  · have again : s.migBackoff n = (s.oInc 0x4440 4).migAgain n := by
      rw [State.migBackoff, hr, hu, hb, ho]
      rfl
    refine ⟨_, next rfl again, ?_⟩
    exact State.migAgain_migOf _ _
  · exact next rfl (State.migTimeout_backoff ho hb)

end Sys2Proof.Machine
end

section
/-! The key of a query (R186, R187). -/

namespace Sys2Proof.Machine

/-! ## Hashes, cells and octants -/

theorem xorFields_lt (n w a : Nat) : xorFields n w a < 2 ^ w := by
  induction n generalizing a with
  | zero => exact Nat.pow_pos (by decide)
  | succ n ih => exact Nat.xor_lt_two_pow (Nat.mod_lt _ (Nat.pow_pos (by decide))) (ih _)

theorem hashW_lt (w a : Nat) : hashW w a < 2 ^ w := xorFields_lt 44 w _

theorem b2n_le (b : Bool) : b2n b ≤ 1 := by
  cases b <;> decide

theorem interleave_lt (lvl x y z : Nat) : interleave lvl x y z < 8 ^ lvl := by
  induction lvl with
  | zero => exact Nat.one_pos
  | succ l ih =>
    have code : b2n (bit x l) * 4 + b2n (bit y l) * 2 + b2n (bit z l) ≤ 7 := by
      have hx := b2n_le (bit x l)
      have hy := b2n_le (bit y l)
      have hz := b2n_le (bit z l)
      omega
    have top := Nat.mul_le_mul_right (8 ^ l) code
    rw [interleave, Nat.pow_succ]
    omega

theorem Handle.cellGeo_lt (h : Handle) (r : QRec) (lvl : Nat) : h.cellGeo r lvl < 8 ^ lvl := by
  unfold Handle.cellGeo
  split
  · exact interleave_lt _ _ _ _
  · exact Nat.pow_pos (by decide)

/-- Bits put one below the other from bit w - 1 on. -/
theorem bitsDown_le (p : Nat → Bool) (w n : Nat) (hn : n ≤ w) : (List.range n).foldl (fun a i => a + b2n (p i) * 2 ^ (w - 1 - i)) 0 + 2 ^ (w - n) ≤ 2 ^ w := by
  induction n with
  | zero => exact Nat.le_of_eq (Nat.zero_add _)
  | succ n ih =>
    have prev := ih (by omega)
    have half : 2 ^ (w - n) = 2 ^ (w - 1 - n) + 2 ^ (w - (n + 1)) := by
      rw [show w - n = (w - (n + 1)) + 1 by omega, show w - 1 - n = w - (n + 1) by omega, Nat.pow_succ]
      omega
    have digit := Nat.mul_le_mul_right (2 ^ (w - 1 - n)) (b2n_le (p n))
    rw [List.range_succ, List.foldl_append, List.foldl_cons, List.foldl_nil]
    omega

theorem Handle.cellMet_lt (h : Handle) (bytes : Option Nat) (lvl : Nat) : h.cellMet bytes lvl < 8 ^ lvl := by
  have width : (8 : Nat) ^ lvl = 2 ^ (3 * lvl) := by rw [Nat.pow_mul, show 2 ^ 3 = 8 from rfl]
  unfold Handle.cellMet
  split
  · exact Nat.pow_pos (by decide)
  · next v =>
    have low := bitsDown_le (fun i => elemPos h.vfmt (h.elem v i)) (3 * lvl) (min (3 * lvl) h.dim) (Nat.min_le_left _ _)
    have pos : 0 < 2 ^ (3 * lvl - min (3 * lvl) h.dim) := Nat.pow_pos (by decide)
    rw [width]
    omega

theorem QRec.octant_ray {r : QRec} (h : isRay r.kind = true) : r.octant = b2n (fNeg (r.b32 0x20)) * 4 + b2n (fNeg (r.b32 0x24)) * 2 + b2n (fNeg (r.b32 0x28)) := if_pos h

theorem QRec.octant_other {r : QRec} (h : isRay r.kind = false) : r.octant = 0 := if_neg (Bool.eq_false_iff.mp h)

theorem QRec.octant_lt (r : QRec) : r.octant < 8 := by
  cases h : isRay r.kind with
  | false =>
    rw [QRec.octant_other h]
    decide
  | true =>
    have hx := b2n_le (fNeg (r.b32 0x20))
    have hy := b2n_le (fNeg (r.b32 0x24))
    have hz := b2n_le (fNeg (r.b32 0x28))
    rw [QRec.octant_ray h]
    omega

theorem octant_testBit (x y z : Bool) : let n := b2n x * 4 + b2n y * 2 + b2n z
    n.testBit 2 = x ∧ n.testBit 1 = y ∧ n.testBit 0 = z := by
  cases x <;> cases y <;> cases z <;> decide

/-! ## The key -/

section
variable (s : State) (r : QRec) (a : Nat) (vec : Option Nat)

/-- The cell of a record at a level (R187). -/
def State.cellAt (lvl : Nat) : Nat := if (s.hndOf r.handle).metric then (s.hndOf r.handle).cellMet vec lvl else (s.hndOf r.handle).cellGeo r lvl

theorem State.cellAt_lt (lvl : Nat) : s.cellAt r vec lvl < 8 ^ lvl := by
  unfold State.cellAt
  split
  · exact Handle.cellMet_lt _ _ _
  · exact Handle.cellGeo_lt _ _ _

theorem State.keyFor_mark (scheme : Nat) (h : r.kind = 0) : s.keyFor r a scheme vec = 0 := if_pos h

/-- The key by scheme (R186). -/
theorem State.keyFor_scheme (scheme : Nat) (h : r.kind ≠ 0) : s.keyFor r a scheme vec =
    match scheme with
    | 0 => r.octant * 2 ^ 21 + s.cellAt r vec 3 * 2 ^ 12 + hashW 12 a
    | 1 => hashW 24 a
    | 2 => r.octant * 2 ^ 21 + hashW 21 a
    | 3 => s.cellAt r vec 4 * 2 ^ 12 + hashW 12 a
    | 4 => r.octant * 2 ^ 21 + s.cellAt r vec 4 * 2 ^ 9 + hashW 9 a
    | _ => r.handle % 4096 * 2 ^ 12 + hashW 12 a := if_neg h

theorem State.keyFor_lt (scheme : Nat) : s.keyFor r a scheme vec < 2 ^ 24 := by
  by_cases h : r.kind = 0
  · rw [State.keyFor_mark _ _ _ _ _ h]
    decide
  · have octant := r.octant_lt
    have cell3 := s.cellAt_lt r vec 3
    have cell4 := s.cellAt_lt r vec 4
    have h9 := hashW_lt 9 a
    have h12 := hashW_lt 12 a
    have h21 := hashW_lt 21 a
    rw [State.keyFor_scheme _ _ _ _ _ h]
    split
    · omega
    · exact hashW_lt 24 a
    · omega
    · omega
    · omega
    · omega

/-- The octant stands in the top three bits (R186). -/
theorem State.keyFor_octant {scheme : Nat} (h : r.kind ≠ 0) (hs : scheme = 0 ∨ scheme = 2 ∨ scheme = 4) : s.keyFor r a scheme vec / 2 ^ 21 = r.octant := by
  have cell3 := s.cellAt_lt r vec 3
  have cell4 := s.cellAt_lt r vec 4
  have h9 := hashW_lt 9 a
  have h12 := hashW_lt 12 a
  have h21 := hashW_lt 21 a
  rw [State.keyFor_scheme _ _ _ _ _ h]
  split
  · omega
  · omega
  · omega
  · omega
  · omega
  · next h0 _ h2 _ h4 =>
    exact (hs.elim h0 fun k => k.elim h2 h4).elim

/-- The hash of the next item's address stands in the low bits (R186). -/
theorem State.keyFor_hash {scheme : Nat} (h : r.kind ≠ 0) (hs : scheme = 0 ∨ scheme = 3 ∨ 4 < scheme) : s.keyFor r a scheme vec % 2 ^ 12 = hashW 12 a := by
  have h12 := hashW_lt 12 a
  rw [State.keyFor_scheme _ _ _ _ _ h]
  split
  · omega
  · omega
  · omega
  · omega
  · omega
  · omega

end

/-- Settles O43: the key scheme by scheme, from the widths of its fields. -/
theorem keysHave24Bits : Obligations.KeysHave24Bits := by
  unfold Obligations.KeysHave24Bits
  intro s k scheme vec
  refine ⟨s.keyFor_lt _ _ _ _, s.keyFor_mark _ _ _ _, s.keyFor_octant _ _ _, s.keyFor_hash _ _ _, QRec.octant_other, fun h => ?_⟩
  rw [QRec.octant_ray h]
  exact octant_testBit _ _ _

end Sys2Proof.Machine
end

section
/-! The commands of the tile: images, partition, maintenance, withdrawals and firmware (R220, R300 to R302, R317 to R321, R394, R426). -/

namespace Sys2Proof.Machine

/-! ## What a read through a node cache leaves -/

/-- The state without what a read through a node cache can change. -/
def State.unread (s : State) : State := { s.wire with nc := [], bob := [] }

/-- From s to t only traffic and reads through the node caches have gone on. -/
structure State.Fetch (s t : State) : Prop where
  unread : t.unread = s.unread
  regs : ∀ i j, quietReg i j = true → t.o i j = s.o i j

namespace State.Fetch

variable {s0 s t : State} {α : Type} {b : Nat}

theorem refl (s : State) : s.Fetch s := ⟨rfl, fun _ _ _ => rfl⟩

theorem trans (h : s0.Fetch s) (k : s.Fetch t) : s0.Fetch t := ⟨k.unread.trans h.unread, fun i j q => (k.regs i j q).trans (h.regs i j q)⟩

theorem ofWire (h : s0.Fetch s) (k : s.Wire t) : s0.Fetch t :=
  h.trans ⟨congrArg (fun u : State => { u with nc := [], bob := [] }) k.wire, k.regs⟩

/-- A change that neither the registers nor the rest shows. -/
theorem of (h : s0.Fetch s) (e : t.unread = s.unread) (o : t.obj = s.obj) : s0.Fetch t :=
  h.trans ⟨e, fun i j _ => by rw [State.o, o]; rfl⟩

theorem ite {c : Prop} [Decidable c] (h : s0.Fetch s) (k : s0.Fetch t) : s0.Fetch (if c then s else t) := by
  split
  · exact h
  · exact k

theorem after (h : s.Fetch t) : t.ring.after = s.ring.after := (congrArg (fun u => u.ring.after) h.unread :)
theorem maint (h : s.Fetch t) : t.tile.maint = s.tile.maint := (congrArg (fun u => u.tile.maint) h.unread :)

theorem modNc {k : Nat} {f : NcSet → NcSet} (h : s0.Fetch s) : s0.Fetch (s.modNc b k f) := h.of rfl rfl
theorem modBob {f : BobSt → BobSt} (h : s0.Fetch s) : s0.Fetch (s.modBob b f) := h.of rfl rfl

/-- A counter of a node cache. -/
theorem ncCount {j : Nat} (hb : b < 48) (hj : j < 256) (h : s0.Fetch s) : s0.Fetch (s.oInc (0x4340 + b) j) := by
  refine h.trans ⟨rfl, fun i l q => ?_⟩
  obtain ⟨hl, -, -, hlc, -, -⟩ := (quietReg_iff i l).mp q
  exact State.o_oSet_of (by unfold okey; omega)

theorem wakeBob (h : s0.Fetch s) : s0.Fetch (s.wakeBob b) := by
  unfold State.wakeBob
  split
  · exact h.modBob
  · exact h.modBob
  · exact .ite h.modBob h

theorem ncFromLc {port line : Nat} {w : LcWay} {all : Bool} (hb : b < 48) (h : s0.Fetch s) : s0.Fetch (s.ncFromLc b port line w all) := by
  unfold State.ncFromLc
  dsimp only
  split
  · exact h
  · exact .ite (.ncCount hb (by decide) h.modNc.modBob) h.modNc

theorem lcRead {port line sec c : Nat} {full : Bool} {want : PReq → PReq} {got : LcWay → Bool → State → State}
    (hgot : ∀ w all u, s0.Fetch u → s0.Fetch (got w all u)) (h : s0.Fetch s) : s0.Fetch (s.lcRead port line sec c full want got) := by
  have count : ∀ {u : State} {j}, j < 256 → s0.Fetch u → s0.Fetch (u.oInc 0x4330 j) := fun hj k => k.ofWire (.lcCount hj (.refl _))
  unfold State.lcRead
  dsimp only
  split
  · next w _ =>
    refine .ite (hgot _ _ _ (count (by decide) (h.ofWire (.modLc (.refl _))))) ?_
    have missed : s0.Fetch ((if full = true then got w false s else s).oInc 0x4330 2) := count (by decide) (.ite (hgot _ _ _ h) h)
    split
    · exact missed.ofWire (.joinRead (.refl _) ‹_›)
    · exact missed.ofWire (.send (.refl _))
  · split
    · have back := h.ofWire (.rescue (.refl _) ‹_›)
      split
      · exact hgot _ _ _ (count (by decide) back)
      · exact back
    · have missed := count (j := 2) (by decide) h
      split
      · exact missed.ofWire (.send (.lcAlloc (.refl _) ‹_›))
      · exact missed.ofWire (.send (.refl _))

theorem ncFill {c h a way : Nat} {t : Trans} {locked : Bool} (hb : b < 48) (k : s0.Fetch s) : s0.Fetch (s.ncFill b c h a t way locked) := by
  unfold State.ncFill
  dsimp only
  refine .ite (.ncCount hb (by decide) k.modNc) (.ite (.ite (.ncCount hb (by decide) ?_) ?_) (.ncCount hb (by decide) (k.modNc.modBob.ofWire (.send (.refl _)))))
  · exact .lcRead (fun _ _ _ k1 => k1.ncFromLc hb) k.modNc.modBob
  · exact .lcRead (fun _ _ _ k1 => k1.ncFromLc hb) k.modNc.modBob

theorem lockLine {c h va : Nat} {r : State × Bool} (hb : b < 48) (hc : c < 64) (k : s0.Fetch s) (e : s.lockLine b c h va = some r) : s0.Fetch r.1 := by
  have woken : s0.Fetch (if (s.bobOf b).clock = 1 then s.wakeBob b else s) := .ite k.wakeBob k
  unfold State.lockLine at e
  dsimp only at e
  generalize (if (s.bobOf b).clock = 1 then s.wakeBob b else s) = u at e woken
  split at e
  · exact Option.some.inj e ▸ k
  · split at e
    · cases e
    · split at e
      · exact Option.some.inj e ▸ woken.ofWire (.windowFault hc (.refl _))
      · split at e
        · split at e
          · exact Option.some.inj e ▸ woken
          · split at e
            · exact Option.some.inj e ▸ woken.modNc
            · exact Option.some.inj e ▸ woken.ncCount hb (by decide)
        · split at e
          · split at e
            · exact Option.some.inj e ▸ woken.ncFill hb
            · cases e
          · split at e
            · split at e
              · exact Option.some.inj e ▸ woken.ncFill hb
              · cases e
            · exact Option.some.inj e ▸ woken.ncCount hb (by decide)

theorem lockDrop (hb : b < 48) (h : s0.Fetch s) : s0.Fetch (s.lockDrop b) :=
  have counted := h.ncCount (j := 8) hb (by decide)
  .ite counted (counted.ofWire (.raise (by decide) (by decide) (by decide) (.refl _)))

end State.Fetch

/-! ## The maintenance operation in progress -/

/-- The operation in progress with its operands. -/
def State.mtNow (s : State) : Option (Nat × Nat × List Nat) := s.tile.maint.map fun m => (m.op, m.word, m.bobs)

/-- The maintenance operation goes on: it, MT_CMD and MT_OP are as they were. -/
structure State.Upkeep (s t : State) : Prop where
  after : t.ring.after = s.ring.after
  now : t.mtNow = s.mtNow
  cmd : t.o 0xF010 1 = s.o 0xF010 1
  word : t.o 0xF010 2 = s.o 0xF010 2

namespace State.Upkeep

variable {s0 s t : State}

theorem refl (s : State) : s.Upkeep s := ⟨rfl, rfl, rfl, rfl⟩

theorem trans (h : s0.Upkeep s) (k : s.Upkeep t) : s0.Upkeep t :=
  ⟨k.after.trans h.after, k.now.trans h.now, k.cmd.trans h.cmd, k.word.trans h.word⟩

theorem ofFetch (h : s0.Upkeep s) (k : s.Fetch t) : s0.Upkeep t :=
  h.trans ⟨k.after, congrArg (Option.map _) k.maint, k.regs _ _ (by decide), k.regs _ _ (by decide)⟩

theorem ofWire (h : s0.Upkeep s) (k : s.Wire t) : s0.Upkeep t := h.ofFetch (.ofWire (.refl _) k)

theorem modNc {b k : Nat} {f : NcSet → NcSet} (h : s0.Upkeep s) : s0.Upkeep (s.modNc b k f) := h.ofFetch (.modNc (.refl _))

theorem count {v : Nat} (h : s0.Upkeep s) : s0.Upkeep (s.oSet 0xF010 7 v) :=
  h.trans ⟨rfl, rfl, State.o_oSet_of (by decide), State.o_oSet_of (by decide)⟩

theorem modMaint {f : MaintOp → MaintOp} (hf : ∀ m, ((f m).op, (f m).word, (f m).bobs) = (m.op, m.word, m.bobs)) (h : s0.Upkeep s) : s0.Upkeep (s.modMaint f) := by
  refine h.trans ⟨rfl, ?_, rfl, rfl⟩
  show (s.tile.maint.map f).map _ = s.tile.maint.map _
  rw [Option.map_map]
  exact congrArg (fun g => s.tile.maint.map g) (funext hf)

theorem ite {c : Prop} [Decidable c] (h : s0.Upkeep s) (k : s0.Upkeep t) : s0.Upkeep (if c then s else t) := by
  split
  · exact h
  · exact k

theorem oweLine {b port line : Nat} (h : s0.Upkeep s) : s0.Upkeep (s.oweLine b port line) := foldl_holds h fun _ _ k => k.trans ⟨rfl, rfl, rfl, rfl⟩

theorem ncInvalidate {p : Nat → NcWay → Bool} {b : Nat} (hb : b < 48) (h : s0.Upkeep s) : s0.Upkeep (s.ncInvalidate b p).1 := by
  refine foldl_holds (P := fun acc : State × Nat => s0.Upkeep acc.1) h fun acc e h1 => foldl_holds (P := fun acc : State × Nat => s0.Upkeep acc.1) h1 fun acc w h2 => ?_
  dsimp only
  split
  · have cleared : s0.Upkeep (if w.filling = true then (acc.1.oweLine b w.port w.line).modNc b (e.1 % 1024) (fun x => x.put { w with noKeep := true, valid := 0 })
        else acc.1.modNc b (e.1 % 1024) (fun x => x.clear w)) := .ite h2.oweLine.modNc h2.modNc
    exact .ite (cleared.ofFetch (.lockDrop hb (.refl _))) cleared
  · exact h2

theorem lockWork {c : Nat} {todo : List (Nat × Nat)} (hc : c < 64) (hb : ∀ e ∈ todo, e.1 < 48) (h : s0.Upkeep s) : s0.Upkeep (s.lockWork c todo).1 := by
  refine List.foldlRecOn (motive := fun acc : State × List (Nat × Nat) => s0.Upkeep acc.1) todo _ h fun acc h1 e he => ?_
  split
  · dsimp only
    split
    · exact h1
    · exact h1.ofFetch (.wakeBob (.refl _))
  · next u ok e1 =>
    have locked := h1.ofFetch (.lockLine (hb e he) hc (.refl _) e1)
    dsimp only
    split
    · exact locked.count
    · exact locked

end State.Upkeep

theorem fld6_lt (w : Nat) : fld w 8 6 < 64 := Nat.mod_lt _ (by decide)

/-- The node of a walk is visited by the Bobbins of the operation alone. -/
theorem State.Upkeep.lockVisit {s : State} {m : MaintOp} {v : Nat} (hb : ∀ b ∈ m.bobs, b < 48) : s.Upkeep (s.lockVisit m v) := by
  unfold State.lockVisit
  split
  · exact .refl _
  · dsimp only
    refine .ite (.modMaint (f := fun m => { m with refs := _, reading := false }) (fun _ => rfl) (.refl _)) ?_
    · refine .modMaint ?_ (.lockWork (fld6_lt _) (fun e he => ?_) (.refl _))
      · exact fun _ => rfl
      obtain ⟨a, -, hm⟩ := List.mem_flatMap.mp he
      obtain ⟨b, hbm, rfl⟩ := List.mem_map.mp hm
      exact hb b hbm

/-- The Bobbins of the operation in progress are those of the tile. -/
def State.mtReal (s : State) : Prop := ∀ op word bobs, s.mtNow = some (op, word, bobs) → ∀ b ∈ bobs, b < 48

theorem State.Upkeep.real {s t : State} (h : s.Upkeep t) (hr : s.mtReal) : t.mtReal := fun op word bobs e => hr op word bobs (h.now.symm.trans e)

theorem State.Upkeep.lockNext {s0 s : State} (n : Nat) (hr : s0.mtReal) (h : s0.Upkeep s) : s0.Upkeep (State.lockNext n s) := by
  induction n generalizing s with
  | zero => exact h
  | succ n ih =>
    have skip := fun rest => ih (h.modMaint (f := fun m => { m with refs := rest }) fun _ => rfl)
    unfold State.lockNext
    split
    · exact h
    · next m hm =>
      split
      · exact h
      · split
        · exact h
        · dsimp only
          split
          · exact skip _
          · split
            · exact skip _
            · refine .ite ?_ ?_
              · exact ih (h.trans (.lockVisit fun b hb => (h.real hr) m.op m.word m.bobs (by rw [State.mtNow, hm]; rfl) b hb))
              · exact (h.modMaint (f := fun m => { m with reading := true }) fun _ => rfl).ofWire (.startJob (fld6_lt _) (.refl _))

/-! ## The commands of maintenance -/

section
variable {s u v : State}

theorem State.mtBobs_lt : ∀ b ∈ s.mtBobs, b < 48 := fun _ hb => List.mem_range.mp (List.mem_filter.mp hb).1

/-- A sweep leaves the operation that is asked for (R318). -/
theorem State.mtSweep_upkeep (wb inv : Bool) : s.Upkeep (s.mtSweep wb inv).1 := by
  have lining : ∀ (p : Nat → LcWay → Bool) (ev : EvLine → Bool) (r : State × Nat), s.Upkeep r.1 →
      s.Upkeep (if s.mtTarget ≠ 0 then ((r.1.lcSweep p ev wb inv).1, r.2 + (r.1.lcSweep p ev wb inv).2) else r).1 := by
    intro p ev r h
    split
    · exact h.ofWire (.lcSweep (.refl _))
    · exact h
  refine lining _ _ _ ?_
  split
  · exact List.foldlRecOn (motive := fun acc : State × Nat => s.Upkeep acc.1) _ _ (.refl _) fun acc h b hb => .ncInvalidate (State.mtBobs_lt b hb) h
  · exact .refl _

/-- An operation that has begun is in progress, MT_CMD reads busy, and its Bobbins are those of the tile (R317). -/
theorem State.mtBegin_now (n : Nat) (fills : List (Nat × Nat × Nat)) :
    (v.mtBegin n fills).o 0xF010 1 = 1 ∧ (v.mtBegin n fills).mtNow = some (v.mtOp, v.o 0xF010 2, v.mtBobs) :=
  ⟨(State.o_oSet_of (by decide)).trans (State.oSet_o_same _ _ _ _), rfl⟩

theorem State.mtBegin_real (n : Nat) (fills : List (Nat × Nat × Nat)) : (v.mtBegin n fills).mtReal := fun _ _ _ e => by
  cases (State.mtBegin_now n fills).2.symm.trans e
  exact State.mtBobs_lt

/-- What has gone on since an operation of s has begun leaves it in progress. -/
theorem State.Upkeep.busy {n : Nat} {fills : List (Nat × Nat × Nat)} (h : (v.mtBegin n fills).Upkeep u) (hw : v.o 0xF010 2 = s.o 0xF010 2) :
    u.o 0xF010 1 = 1 ∧ u.tile.maint.map (fun m => (m.op, m.word)) = some (s.mtOp, s.o 0xF010 2) := by
  obtain ⟨cmd, now⟩ := State.mtBegin_now (v := v) n fills
  refine ⟨h.cmd.trans cmd, ?_⟩
  have e : u.mtNow.map (fun m => (m.1, m.2.1)) = some (v.mtOp, v.o 0xF010 2) := by rw [h.now, now]; rfl
  rw [State.mtNow, Option.map_map] at e
  rw [State.mtOp, ← hw]
  exact e

/-- A write of MT_CMD in RUN (R317). -/
theorem State.operWrite_mt (hr : s.run = true) : s.operWrite 0xF010 1 1 1 = (s.mtCmd 1).2.afterReq := by
  have hp := State.run_pstate hr
  rw [State.operWrite_cmd 1 (by decide) (by decide) (by decide) (by omega) (.inr (by omega))]
  rfl

end

end Sys2Proof.Machine
end

section
/-! The commands of the tile: images, partition, maintenance, withdrawals and firmware, and what ends them (R220, R300 to R305, R317 to R321,
R394, R426). -/

namespace Sys2Proof.Machine

/-! ## The operations that MT_OP asks for -/

section
variable {s : State}

theorem State.mtCmd_sweep (hb : s.o 0xF010 1 ≠ 1) (hc : s.mtCheck = 0) :
    (s.mtOp = 1 → s.mtCmd 1 = (0, (s.mtSweep true false).1.mtBegin (s.mtSweep true false).2 s.mtFills)) ∧
    (s.mtOp = 2 → s.mtCmd 1 = (0, (s.mtSweep false true).1.mtBegin (s.mtSweep false true).2 s.mtFills)) ∧
    (s.mtOp = 3 → s.mtCmd 1 = (0, (s.mtSweep true true).1.mtBegin (s.mtSweep true true).2 s.mtFills)) := by
  unfold State.mtCmd
  rw [if_neg hb, if_neg (by decide), if_neg (not_not_intro hc)]
  exact ⟨fun h => by rw [h]; rfl, fun h => by rw [h]; rfl, fun h => by rw [h]; rfl⟩

/-- The lines that LOCK takes, Bobbin by Bobbin (R321). -/
def State.lockLines (s : State) : List (Nat × Nat) :=
  (((List.range (s.mtLen / 256)).map (fun i => s.o 0xF010 3 + 256 * i)).filter (fun a => (s.translate s.mtCtx a).isSome)).flatMap
    (fun a => s.mtBobs.map (fun b => (b, a)))

theorem State.mtCmd_lock (hb : s.o 0xF010 1 ≠ 1) (hc : s.mtCheck = 0) (ho : s.mtOp = 4) : s.mtCmd 1 =
    (0, ((s.mtBegin 0 []).lockWork s.mtCtx s.lockLines).1.modMaint (fun m => { m with todo := ((s.mtBegin 0 []).lockWork s.mtCtx s.lockLines).2 })) := by
  unfold State.mtCmd
  rw [if_neg hb, if_neg (by decide), if_neg (not_not_intro hc), ho]
  rfl

theorem State.mtCmd_lockIndex (hb : s.o 0xF010 1 ≠ 1) (hc : s.mtCheck = 0) (ho : s.mtOp = 6) : s.mtCmd 1 =
    (0, State.lockNext 65536 ((s.mtBegin 0 []).modMaint (fun m => { m with refs := [((s.hndOf m.handle).root, 0)] }))) := by
  unfold State.mtCmd
  rw [if_neg hb, if_neg (by decide), if_neg (not_not_intro hc), ho]
  rfl

/-- What UNLOCK does in Bobbin b (R321, R322). -/
def State.unlockBob (s : State) (acc : State × Nat) (b : Nat) : State × Nat :=
  (acc.1.nc.filter (fun e => e.1 / 1024 == b)).foldl (fun (acc : State × Nat) e =>
    e.2.ways.foldl (fun (acc : State × Nat) w =>
      if w.locked && (s.mtScope == 3 || ((w.valid != 0 || w.filling) && s.mtHits (e.1 % 1024) w.way w.port w.line)) then
        (acc.1.modNc b (e.1 % 1024) (fun x =>
          if w.valid != 0 || w.filling then x.put { w with locked := false }
          else { x with ways := x.ways.filter (fun v => v.way != w.way) }), acc.2 + 1)
      else acc) acc) acc

theorem State.mtCmd_unlock (hb : s.o 0xF010 1 ≠ 1) (hc : s.mtCheck = 0) (ho : s.mtOp = 5) {r : State × Nat}
    (hr : (if s.mtTarget = 1 then [] else s.mtBobs).foldl s.unlockBob (s, 0) = r) : s.mtCmd 1 = (0, r.1.mtBegin r.2 []) := by
  unfold State.mtCmd
  rw [if_neg hb, if_neg (by decide), if_neg (not_not_intro hc), ho, ← hr]
  rfl

/-- UNLOCK does nothing in a Bobbin without cached lines. -/
theorem State.unlockBob_empty {acc : State × Nat} {b : Nat} (h : ∀ e ∈ acc.1.nc, e.1 / 1024 ≠ b) : s.unlockBob acc b = acc := by
  have none_of : acc.1.nc.filter (fun e => e.1 / 1024 == b) = [] := List.filter_eq_nil_iff.mpr fun e he => by
    rw [beq_iff_eq]
    exact h e he
  rw [State.unlockBob, none_of]
  rfl

theorem State.unlockBob_empties {acc : State × Nat} {l : List Nat} (h : ∀ b ∈ l, ∀ e ∈ acc.1.nc, e.1 / 1024 ≠ b) : l.foldl s.unlockBob acc = acc :=
  foldl_eq_self fun b hb => State.unlockBob_empty (h b hb)

/-- UNLOCK of all scope unlocks the one line of a Bobbin that is locked. -/
theorem State.unlockBob_one {t : State} {n b set : Nat} {w : NcWay} (hsc : s.mtScope = 3) (hset : set < 1024) (hn : t.nc = [(b * 1024 + set, { ways := [w] })])
    (hl : w.locked = true) (hv : w.valid ≠ 0) : s.unlockBob (t, n) b = (t.modNc b set (fun x => x.put { w with locked := false }), n + 1) := by
  have own : (b * 1024 + set) / 1024 = b := by omega
  have its : (b * 1024 + set) % 1024 = set := by omega
  simp [State.unlockBob, hn, own, its, hsc, hl, hv]

/-- UNLOCK of all scope over every Bobbin of the operation, of which one holds a line. -/
theorem State.unlock_one {b set : Nat} {w : NcWay} (hsc : s.mtScope = 3) (hb : b ∈ s.mtBobs) (hset : set < 1024) (hn : s.nc = [(b * 1024 + set, { ways := [w] })])
    (hl : w.locked = true) (hv : w.valid ≠ 0) :
    s.mtBobs.foldl s.unlockBob (s, 0) = (s.modNc b set (fun x => x.put { w with locked := false }), 1) := by
  obtain ⟨before, later, split⟩ := List.append_of_mem hb
  have once : (before ++ b :: later).Nodup := split ▸ List.nodup_range.filter _
  obtain ⟨not_before, not_later⟩ := middle_of_nodup once
  have away : ∀ {acc : State × Nat} {x : NcSet}, acc.1.nc = [(b * 1024 + set, x)] → ∀ b', b' ∈ before ∨ b' ∈ later → ∀ e ∈ acc.1.nc, e.1 / 1024 ≠ b' := by
    intro acc x h b' hb' e he heq
    rw [h, List.mem_singleton] at he
    have : (b * 1024 + set) / 1024 = b := by omega
    rw [he, this] at heq
    exact hb'.elim (heq ▸ not_before) (heq ▸ not_later)
  have after : (s.modNc b set (fun x => x.put { w with locked := false })).nc = [(b * 1024 + set, { ways := [{ w with locked := false }] })] := by
    simp [State.modNc, tmod, tset, tdel, tins, tget, hn, NcSet.put]
  rw [split, List.foldl_append, List.foldl_cons, State.unlockBob_empties fun b' h => away hn b' (.inl h), State.unlockBob_one hsc hset hn hl hv,
    State.unlockBob_empties fun b' h => away after b' (.inr h)]

end

/-! ## Writes of the lifetime log -/

/-- The state without the lifetime log, what goes to storage, registers and outputs. -/
def State.unlogged (s : State) : State :=
  { s.core with ring := { s.core.ring with store := none, storeQ := [], nextTid := 0 }, pwr := { s.pwr with log := [], logExists := false } }

/-- From s to t only the lifetime log has been written. -/
structure State.Logged (s t : State) : Prop where
  rest : t.unlogged = s.unlogged
  regs : ∀ i j, okey i j ≠ okey 0x1100 5 → t.o i j = s.o i j

namespace State.Logged

variable {s0 s t : State}

theorem refl (s : State) : s.Logged s := ⟨rfl, fun _ _ _ => rfl⟩

theorem trans (h : s0.Logged s) (k : s.Logged t) : s0.Logged t := ⟨k.rest.trans h.rest, fun i j n => (k.regs i j n).trans (h.regs i j n)⟩

theorem part (h : s.Logged t) : t.part = s.part := (congrArg State.part h.rest :)
theorem tile (h : s.Logged t) : t.tile = s.tile := (congrArg State.tile h.rest :)
theorem lc (h : s.Logged t) : t.lc = s.lc := (congrArg State.lc h.rest :)
theorem hnd (h : s.Logged t) : t.hnd = s.hnd := (congrArg State.hnd h.rest :)
theorem slot (h : s.Logged t) : t.slot = s.slot := (congrArg State.slot h.rest :)
theorem pin (h : s.Logged t) : t.pin = s.pin := (congrArg State.pin h.rest :)
theorem after (h : s.Logged t) : t.ring.after = s.ring.after := (congrArg (fun u => u.ring.after) h.rest :)

theorem askStore {g : Nat} {d : Option (List Byte)} : s.Logged (s.askStore g d) :=
  ⟨congrArg (fun u : State => { u with ring := { u.ring with store := none, storeQ := [], nextTid := 0 }, pwr := { u.pwr with log := [], logExists := false } })
    (State.sendPeer_core _ _), fun _ _ h => State.askStore_o _ _ _ h⟩

theorem storeNext : s.Logged s.storeNext := by
  unfold State.storeNext
  split
  · exact trans (s := s.modRing _) ⟨rfl, fun _ _ _ => rfl⟩ .askStore
  · exact .refl _

theorem logWrite {segs : List (Nat × Nat)} {jhead : Nat} : s.Logged (s.logWrite segs jhead) := by
  unfold State.logWrite
  split
  · exact .refl _
  · dsimp only
    refine trans ?_ .storeNext
    exact ⟨rfl, fun _ _ _ => rfl⟩

theorem logJournal {kind : Nat} {segs : List (Nat × Nat)} : s.Logged (s.logJournal kind segs) :=
  trans (s := s.draw.2) ⟨rfl, fun _ _ _ => rfl⟩ .logWrite

end State.Logged

theorem State.storeNext_pwr (s : State) : s.storeNext.pwr = s.pwr := by
  unfold State.storeNext
  split
  · exact State.askStore_pwr _ _ _
  · rfl

/-- Two writes of one table at different keys commute for a reader of the first. -/
theorem tget_foldl_tset {l : List (Nat × Nat)} {t : Tbl Nat} {k : Nat} (h : ∀ e ∈ l, k ≠ e.1) : tget 0 (l.foldl (fun t e => tset 0 t e.1 e.2) t) k = tget 0 t k :=
  List.foldlRecOn (motive := fun u => tget 0 u k = tget 0 t k) l _ rfl fun _ hu e he => (tget_tset_ne _ _ _ _ _ _ (h e he)).trans hu

/-- A segment written once, and not the header, reads back what was written (R459). -/
theorem State.logWrite_seg {s : State} {g v jhead : Nat} {segs : List (Nat × Nat)} (hb : s.ring.storeBad = false) (hg : 1 < g) (h : ∀ e ∈ segs, g ≠ e.1) :
    (s.logWrite ((g, v) :: segs) jhead).seg g = v := by
  unfold State.logWrite
  rw [if_neg (by rw [hb]; exact Bool.false_ne_true), State.seg, State.storeNext_pwr]
  refine (tget_foldl_tset (t := tset 0 s.pwr.log g v) fun e he => ?_).trans (tget_tset_same _ _ _ _)
  rcases List.mem_append.mp he with he | he
  · exact h e he
  · rw [List.mem_singleton] at he
    rw [he]
    dsimp only
    omega

/-! ## The commands -/

theorem State.Still.modTile {s : State} (h : s.Still) {f : TileSt → TileSt} (lc : (f s.tile).lcWait = s.tile.lcWait) (loss : (f s.tile).lossWait = s.tile.lossWait)
    (key : (f s.tile).keyWait = s.tile.keyWait) : (s.modTile f).Still :=
  ⟨h.due, lc.trans h.lcWait, h.goes, loss.trans h.lossWait, key.trans h.keyWait, h.idle, h.queue, h.after⟩

theorem State.Still.modNc {s : State} (h : s.Still) (b k : Nat) (f : NcSet → NcSet) : (s.modNc b k f).Still :=
  ⟨h.due, h.lcWait, h.goes, h.lossWait, h.keyWait, h.idle, h.queue, h.after⟩

theorem State.Still.mtBegin {s : State} (h : s.Still) (n : Nat) (fills : List (Nat × Nat × Nat)) : (s.mtBegin n fills).Still :=
  ((h.oSet 0xF010 1 1).oSet 0xF010 7 n).modTile rfl rfl rfl

theorem State.mtBegin_count (s : State) (n : Nat) (fills : List (Nat × Nat × Nat)) : (s.mtBegin n fills).o 0xF010 7 = n :=
  (State.modTile_o _ _ _ _).trans (State.oSet_o_same _ _ _ _)

theorem State.takeUnits_after (n : Nat) (s : State) : (State.takeUnits n s).ring.after = s.ring.after := by
  induction n generalizing s with
  | zero => rfl
  | succ n ih =>
    unfold State.takeUnits
    split
    · rfl
    · exact (ih _).trans State.residCheck_after

theorem State.shiftGo_after (s : State) (p : Part) : (s.shiftGo p).ring.after = s.ring.after :=
  (State.Wire.refl _).lcFlush.after.trans (State.takeUnits_after _ _)

section
variable {s : State} (hr : s.run = true)
include hr

theorem State.operWrite_img (hb : s.o 0x2500 3 ≠ 1) (hc : s.o 0x2500 1 < 64) (he : s.ctxEn (s.o 0x2500 1) = true) :
    s.operWrite 0x2500 3 1 1 = ((s.oSet 0x2500 3 1).modTile (fun t => { t with imgStep := 1 })).afterReq := by
  have hp := State.run_pstate hr
  rw [State.operWrite_cmd 1 (by decide) (by decide) (by decide) (by omega) (.inr (by omega))]
  show (s.imgLoad 1).2.afterReq = _
  rw [State.imgLoad, if_neg hb, if_neg (by decide), if_pos ⟨hc, he⟩]

theorem State.operWrite_part (code : Nat) (hc : code < 256) : s.operWrite 0x2300 6 1 code = (s.partCmd code).2.afterReq := by
  have hp := State.run_pstate hr
  rw [State.operWrite_cmd code (by decide) (by decide) (by decide) (by omega) (.inr (by omega)), Nat.mod_eq_of_lt hc]
  rfl

theorem State.operWrite_readmit : s.operWrite 0x7010 7 1 1 = (s.readmitCmd 1).2.afterReq := by
  have hp := State.run_pstate hr
  rw [State.operWrite_cmd 1 (by decide) (by decide) (by decide) (by omega) (.inr (by omega))]
  rfl

theorem State.operWrite_stage : s.operWrite 0xF020 2 1 1 = (s.stage 1).2.afterReq := by
  have hp := State.run_pstate hr
  rw [State.operWrite_cmd 1 (by decide) (by decide) (by decide) (by omega) (.inr (by omega))]
  rfl

end

theorem State.partCmd_apply {s : State} (hb : s.o 0x2300 6 ≠ 1) (hi : s.idle = true) (hc : partCheck s.staged (s.o 0x2300 8) = 0) :
    s.partCmd 1 = (0, ((s.oSet 0x2300 6 1).modTile (fun t => { t with partOp := some (true, s.staged) })).lcFlush) := by
  simp only [State.partCmd, if_neg hb, if_true, hi, Bool.not_true, Bool.false_eq_true, if_false, hc, ne_eq, not_true_eq_false]

/-- The way entries of the log that a READMIT changes (R394). -/
def State.readmitWays (s : State) : List (Nat × Nat) :=
  ((List.range 8).map (fun g => (53 + g, (List.range 63).foldl (fun a i =>
    let e := bytesAt (s.seg (53 + g)) (4 * i) 4
    if e ≠ 0 ∧ (e - 1) / 16384 = s.o 0x7010 6 then a else a + e * 2 ^ (32 * i)) 0))).filter (fun w => w.2 != s.seg w.1 % 2 ^ (8 * 252))

theorem State.readmitWays_seg {s : State} : ∀ e ∈ s.readmitWays, 4 ≠ e.1 := by
  intro e he
  obtain ⟨g, -, rfl⟩ := List.mem_map.mp (List.mem_filter.mp he).1
  dsimp only
  omega

theorem State.readmitCmd_of {s : State} (hb : s.o 0x7010 6 < 48) : s.readmitCmd 1 =
    (0, (s.oSet 0x7010 7 0).logWrite ((4, (s.oSet 0x7010 7 0).wdSeg (s.o 0x7010 6) 0 0 0) :: s.readmitWays) (s.oSet 0x7010 7 0).jhead) := by
  unfold State.readmitCmd
  dsimp only
  rw [if_neg (by decide), if_neg (by omega)]
  rfl

/-- The result of a STAGE of an image of n bytes (R426). -/
def State.staged426 (s : State) (r : Nat × BitVec 32) : State := if r.1 = 0 then (s.oSet 0xF020 2 0).oSet 0xF020 3 r.2.toNat else s.oSet 0xF020 2 r.1

theorem State.stage_of {s : State} {n : Nat} (h : s.ring.fwLen = some n) : (s.stage 1).2 = s.staged426 (Config.imageVerdict s.ring.fwBytes n) := by
  unfold State.stage State.staged426
  rw [if_pos rfl, h]
  dsimp only
  split
  · rfl
  · rfl

theorem State.Still.staged426 {s : State} (h : s.Still) (r : Nat × BitVec 32) : (s.staged426 r).Still := by
  unfold State.staged426
  split
  · exact (h.oSet _ _ _).oSet _ _ _
  · exact h.oSet _ _ _

/-- A maintenance row runs the operation that MT_OP asks for, which is then in progress (R317). -/
theorem State.mtRow_leads {s u v : State} {i : Instr} {op n : Nat} {fills : List (Nat × Nat × Nat)} (hi : exec i s = .next (s.mtRow op).settle) (hr : s.run = true) (ha : s.ring.after = 0)
    (ho : s.mtOp = op) (hm : s.mtCmd 1 = (0, u)) (hv : s.Upkeep v) (hu : (v.mtBegin n fills).Upkeep u) :
    exec i s = .next u.afterReq.settle ∧ Leads i s (fun u => u.o 0xF010 1 = 1 ∧ u.tile.maint.map (fun m => (m.op, m.word)) = some (op, s.o 0xF010 2)) := by
  have after : u.ring.after = 0 := hu.after.trans (hv.after.trans ha)
  have run : exec i s = .next u.afterReq.settle := by rw [hi, State.mtRow, if_pos ho, State.operWrite_mt hr, hm]
  refine ⟨run, u.afterReq, run, ?_⟩
  rw [State.afterReq_of_zero after, ← ho]
  exact hu.busy hv.word

/-- Settles O28: each command by its meaning where its conditions hold; what it starts leaves the operation in progress. -/
theorem tileCommands : Obligations.TileCommands := by
  unfold Obligations.TileCommands
  intro s hr hs
  have still := s.still_iff.mp hs
  have ha := still.after
  have next : ∀ {i} {u v : State}, exec i s = .next u.settle → u = v → exec i s = .next v.settle := fun h e => e ▸ h
  refine ⟨fun hb hc he => ?_, fun hb hi hc => ?_, fun hb hc hp hn hrb hsum hm => ?_, fun hb hc => ?_, fun hb => ?_, fun n hn => ?_⟩
  · have loading : ((s.oSet 0x2500 3 1).modTile (fun t => { t with imgStep := 1 })).Still := (still.oSet _ _ _).modTile rfl rfl rfl
    rw [next rfl (State.operWrite_img hr hb hc he), loading.afterReq, loading.settle]
  · have run := next (i := .apply) rfl ((State.operWrite_part hr 1 (by decide)).trans (congrArg (fun r : Nat × State => r.2.afterReq) (State.partCmd_apply hb hi hc)))
    have flush := (State.Wire.refl ((s.oSet 0x2300 6 1).modTile (fun t => { t with partOp := some (true, s.staged) }))).lcFlush
    refine ⟨run, _, run, ?_⟩
    rw [State.afterReq_of_zero (flush.after.trans ha)]
    exact ⟨(flush.regs _ _ (by decide)).trans ((State.modTile_o _ _ _ _).trans (State.oSet_o_same s _ _ _)), flush.partOp⟩
  · have run := next (i := .shift) rfl ((State.operWrite_part hr 2 (by decide)).trans (congrArg (fun r : Nat × State => r.2.afterReq) (State.partCmd_shift hb hp hn hrb hsum hc hm)))
    refine ⟨run, _, run, ?_⟩
    dsimp only
    rw [State.afterReq_of_zero ((State.shiftGo_after (s.oSet 0x2300 6 1) _).trans ha)]
    exact ⟨(State.shiftGo_o _ _ (by decide)).trans (State.oSet_o_same s _ _ _), State.shiftGo_partOp _ _⟩
  · obtain ⟨clean, inval, both⟩ := State.mtCmd_sweep hb hc
    have sweep : ∀ {i op wb inv}, exec i s = .next (s.mtRow op).settle → s.mtOp = op → s.mtCmd 1 = (0, (s.mtSweep wb inv).1.mtBegin (s.mtSweep wb inv).2 s.mtFills) → _ :=
      fun {i op wb inv} hi ho hm => State.mtRow_leads hi hr ha ho hm (State.mtSweep_upkeep wb inv) (.refl _)
    have unlock : ∀ {r : State × Nat}, s.mtOp = 5 → (if s.mtTarget = 1 then [] else s.mtBobs).foldl s.unlockBob (s, 0) = r → r.1.Still →
        exec .mtUnlock s = .next (r.1.mtBegin r.2 []) := fun {r} ho hf hst => by
      have begun := hst.mtBegin r.2 []
      refine (next (i := .mtUnlock) rfl ((if_pos ho).trans ((State.operWrite_mt hr).trans ?_))).trans (congrArg Host.Outcome.next begun.settle)
      rw [State.mtCmd_unlock hb hc ho hf]
      exact begun.afterReq
    refine ⟨fun ho => sweep rfl ho (clean ho), fun ho => sweep rfl ho (inval ho), fun ho => sweep rfl ho (both ho), fun ho => ?_, fun ho hn => ?_,
      fun b set w ho hsc htg hbob hset hn hl hv => ?_, fun ho => ?_⟩
    · refine (State.mtRow_leads rfl hr ha ho (State.mtCmd_lock hb hc ho) (.refl s) (.modMaint ?_ (.lockWork (fld6_lt _) (fun e he => ?_) (.refl _)))).2
      · exact fun _ => rfl
      · obtain ⟨a, -, hm⟩ := List.mem_flatMap.mp he
        obtain ⟨b, hbm, rfl⟩ := List.mem_map.mp hm
        exact State.mtBobs_lt b hbm
    · have none_locked : (if s.mtTarget = 1 then [] else s.mtBobs).foldl s.unlockBob (s, 0) = (s, 0) :=
        State.unlockBob_empties fun b _ e he => by rw [hn] at he; cases he
      exact ⟨_, unlock ho none_locked still, (State.mtBegin_now _ _).1, State.mtBegin_count _ _ _⟩
    · have unlocked : (if s.mtTarget = 1 then [] else s.mtBobs).foldl s.unlockBob (s, 0) = (s.modNc b set (fun x => x.put { w with locked := false }), 1) := by
        rw [htg, if_neg (by decide)]
        exact State.unlock_one hsc (List.contains_iff_mem.mp hbob) hset hn hl hv
      refine ⟨_, unlock ho unlocked (still.modNc _ _ _), (State.mtBegin_now _ _).1, State.mtBegin_count _ _ _, ?_⟩
      refine (tget_tset_same _ _ _ _).trans ?_
      simp [hn, tget, NcSet.put]
    · refine State.mtRow_leads rfl hr ha ho (State.mtCmd_lockIndex hb hc ho) (.refl s) (.lockNext _ (State.mtBegin_real _ _) (.modMaint ?_ (.refl _)))
      exact fun _ => rfl
  · have run := next (i := .readmit 1) rfl ((State.operWrite_readmit hr).trans (congrArg (fun r : Nat × State => r.2.afterReq) (State.readmitCmd_of hb)))
    have logged : (s.oSet 0x7010 7 0).Logged _ := .logWrite (segs := (4, (s.oSet 0x7010 7 0).wdSeg (s.o 0x7010 6) 0 0 0) :: s.readmitWays) (jhead := (s.oSet 0x7010 7 0).jhead)
    refine ⟨_, run, ?_⟩
    rw [State.afterReq_of_zero (logged.after.trans ha)]
    exact ⟨(logged.regs _ _ (by decide)).trans (State.oSet_o_same s _ _ _), fun hbad => State.logWrite_seg hbad (by decide) State.readmitWays_seg⟩
  · have verdict := still.staged426 (Config.imageVerdict s.ring.fwBytes n)
    refine (next (i := .stage) rfl ((State.operWrite_stage hr).trans (congrArg State.afterReq (State.stage_of hn)))).trans ?_
    rw [verdict.afterReq, verdict.settle]
    rfl

end Sys2Proof.Machine
end

section
/-! What ends image loads, the growth of a pinned handle, maintenance and repartitions (R220, R301, R305, R319). -/

namespace Sys2Proof.Machine

section
variable {s : State}

/-- A round of PIN_EXTEND with one handle that is short (R305). -/
theorem State.pinExtend_one {e : Nat × Handle} (hroom : e.2.rlen < 65536 * e.2.units ∨ s.pinFree ≠ 0) (hh : s.hnd = [e]) (hst : e.2.state = 1 ∨ e.2.state = 3)
    (hlen : e.2.rlen < e.2.pinLen) (hext : e.2.extended = false) (hcp : e.2.copying = false) (hph : e.2.phase = 0) : s.pinExtend =
    (s.modHnd e.1 (fun x => { x with units := if e.2.rlen < 65536 * e.2.units then e.2.units else e.2.units + 1, phase := 3, extended := true })).pinCopy e.1 e.2.rlen
      (min e.2.pinLen (65536 * (e.2.rlen / 65536 + 1)) - e.2.rlen) := by
  have can : s.canExtend e.2 = true := by
    simp only [State.canExtend, hcp, hph, Bool.and_eq_true, Bool.or_eq_true, beq_iff_eq, decide_eq_true_eq, bne_iff_ne, Bool.not_false]
    exact ⟨⟨⟨⟨hst, hlen⟩, trivial⟩, trivial⟩, hroom⟩
  simp only [State.pinExtend, hh, List.find?_cons, can, hext, Bool.not_false, Bool.and_self]

/-- A maintenance operation with nothing left to visit has nothing left to lock or to read. -/
theorem State.maintDone_left {m : MaintOp} (hm : s.tile.maint = some m) (htodo : m.todo = []) (hrefs : m.refs = []) (hread : m.reading = false) :
    (s.lockWork (fld m.word 8 6) m.todo).1.modMaint (fun x => { x with todo := (s.lockWork (fld m.word 8 6) m.todo).2 }) = s ∧ State.lockNext 65536 s = s := by
  refine ⟨?_, ?_⟩
  · rw [htodo]
    have same : { m with todo := [] } = m := by rw [← htodo]
    have tile : { s.tile with maint := s.tile.maint.map (fun x => { x with todo := [] }) } = s.tile := by
      rw [hm, Option.map_some, same, ← hm]
    exact congrArg (fun t => { s with tile := t }) tile
  · unfold State.lockNext
    simp only [hm, hread, hrefs, Bool.false_eq_true, if_false]

/-- The cache states that an operation of all scope sets (R323). -/
def State.invalidated (s : State) (m : MaintOp) : Nat :=
  let all := (m.op == 2 || m.op == 3) && fld m.word 3 2 == 3
  let v1 := if all && fld m.word 5 2 != 1 && m.bobs.length == 48 then setFld (s.o 0x2310 0) 8 1 1 else s.o 0x2310 0
  if all && fld m.word 5 2 != 0 then setFld v1 9 1 1 else v1

/-- An operation with nothing outstanding is done (R319). -/
theorem State.maintDone_of {m : MaintOp} (hm : s.tile.maint = some m) (hop : m.op < 4) (htodo : m.todo = []) (hrefs : m.refs = []) (hread : m.reading = false)
    (hfill : m.fills.any s.mtFilling = false) (hback : s.lcBacksOut true = 0) : s.maintDone =
    (((s.modTile (fun t => { t with maint := none })).oSet 0xF010 1 0).oSet 0x2310 0 (s.invalidated m)).raise 0x5200 0 (m.word % 256) := by
  obtain ⟨work, walk⟩ := State.maintDone_left hm htodo hrefs hread
  have early : decide (4 ≤ m.op) = false := decide_eq_false (by omega)
  unfold State.maintDone
  rw [hm]
  dsimp only
  rw [work, walk, hm]
  dsimp only
  rw [if_neg (by simp [htodo, hrefs, hread, hfill, hback, early])]
  rfl

theorem State.stagePart_o {i : Nat} (j : Nat) (hj : j < 256) (h : i ≠ 0x2300) : s.stagePart.o i j = s.o i j := by
  unfold State.stagePart
  rw [State.oSet_o_ne _ i j 0x2300 _ _ h hj (by decide), State.oSet_o_ne _ i j 0x2300 _ _ h hj (by decide), State.oSet_o_ne _ i j 0x2300 _ _ h hj (by decide),
    State.oSet_o_ne _ i j 0x2300 _ _ h hj (by decide), State.oSet_o_ne _ i j 0x2300 _ _ h hj (by decide)]

theorem State.stagePart_core : s.stagePart.core = s.core := by
  rw [State.stagePart, State.oSet_core, State.oSet_core, State.oSet_core, State.oSet_core, State.oSet_core]

/-- The sizes in force, with the regions of an APPLY cleared (R301, R302). -/
def State.repartitioned (s : State) (change : Bool) (p : Part) : State :=
  if change then ({ s with part := p, lc := [] } : State).clearRegions else { s with part := p, lc := [] }

/-- The end of an APPLY or SHIFT before its record in the log. -/
def State.partEnded (s : State) (change : Bool) (p : Part) : State :=
  (((s.repartitioned change p).modTile (fun t => { t with partOp := none })).stagePart.oSet 0x2300 6 0).raise 0x5200 1 (if change then 1 else 2)

theorem State.partDone_of {change : Bool} {p : Part} (hop : s.tile.partOp = some (change, p)) (hback : s.lcBacksOut = 0)
    (hlc : s.lc.all (fun e => e.2.ways.isEmpty) = true) : s.partDone = (s.partEnded change p).logJournal 2 [(4, (s.partEnded change p).partSeg)] := by
  have gone : s.lc.any (fun e => !e.2.ways.isEmpty) = false := by
    rw [List.any_eq_false]
    intro e he
    rw [List.all_eq_true] at hlc
    rw [hlc e he]
    exact Bool.false_ne_true
  unfold State.partDone
  rw [hop]
  dsimp only
  rw [if_neg (by rw [hback, gone]; decide)]
  rfl

/-- The stores after a repartition: the Lining cache is empty, and an APPLY has cleared its regions. -/
theorem State.repartitioned_stores (change : Bool) (p : Part) : let u := s.repartitioned change p
    u.part = p ∧ u.lc = [] ∧ (change = true → u.hnd = [] ∧ u.slot = [] ∧ u.pin = [] ∧ u.tile.bins = []) := by
  unfold State.repartitioned
  cases change
  · exact ⟨rfl, rfl, fun h => absurd h Bool.false_ne_true⟩
  · exact ⟨rfl, rfl, fun _ => ⟨rfl, rfl, rfl, rfl⟩⟩

theorem State.partEnded_core (change : Bool) (p : Part) : (s.partEnded change p).core =
    ((s.repartitioned change p).modTile (fun t => { t with partOp := none })).core := by
  rw [State.partEnded, State.raise_core, State.oSet_core, State.stagePart_core]

end

/-- Settles O29: each end by its meaning where its conditions hold. -/
theorem tileOperationsEnd : Obligations.TileOperationsEnd := by
  unfold Obligations.TileOperationsEnd
  intro s hl
  have next : ∀ {i} {u v : State}, exec i s = .next u.settle → u = v → exec i s = .next v.settle := fun h e => e ▸ h
  refine ⟨fun h1 hb => next rfl ?_, fun e hroom hh hst hlen hext hcp hph => next rfl ?_, fun m hm hop htodo hrefs hread hfill hback => ?_,
    fun change p hop hback hlc => ?_⟩
  · rw [State.imgWrite, if_pos ⟨hl, h1, by rw [hb]; rfl⟩]
  · exact (if_pos hl).trans (State.pinExtend_one hroom hh hst hlen hext hcp hph)
  · refine ⟨_, next rfl ((if_pos hl).trans (State.maintDone_of hm hop htodo hrefs hread hfill hback)), ?_, ?_, State.raise_bit _ _ _ _ (by decide) (by decide) (by decide)⟩
    · rw [State.tile_of_core (State.raise_core _ _ _ _)]
      rfl
    · rw [State.raise_o _ _ _ _ (by decide) (by decide) (by decide) (by decide) (by decide) (by decide), State.o_oSet_of (by decide)]
      exact State.oSet_o_same _ _ _ _
  · have logged : (s.partEnded change p).Logged _ := .logJournal (kind := 2) (segs := [(4, (s.partEnded change p).partSeg)])
    have core := s.partEnded_core change p
    obtain ⟨part, lc, cleared⟩ := s.repartitioned_stores change p
    refine ⟨_, next rfl (State.partDone_of hop hback hlc), ?_, ?_, ?_, ?_, fun hc => ?_⟩
    · exact logged.part.trans ((congrArg State.part core :).trans part)
    · rw [logged.regs _ _ (by decide), State.partEnded, State.raise_o _ _ _ _ (by decide) (by decide) (by decide) (by decide) (by decide) (by decide)]
      exact State.oSet_o_same _ _ _ _
    · exact logged.lc.trans ((congrArg State.lc core :).trans lc)
    · rw [logged.regs _ _ (by decide)]
      exact State.raise_bit _ _ _ _ (by decide) (by decide) (by decide)
    · obtain ⟨hnd, slot, pin, bins⟩ := cleared hc
      exact ⟨logged.hnd.trans ((congrArg State.hnd core :).trans hnd), logged.slot.trans ((congrArg State.slot core :).trans slot),
        logged.pin.trans ((congrArg State.pin core :).trans pin), (congrArg (fun t => t.bins) (logged.tile.trans (State.tile_of_core core)) :).trans bins⟩

end Sys2Proof.Machine
end

section
/-! The Hem's deliveries: ring entries, slot fills, flushes and producer reports (R43, R251 to R254, R259). -/

namespace Sys2Proof.Machine

section
variable {s : State} {c st : Nat}

/-- The stream without the record that goes to the ring. -/
def StreamSt.sent (x : StreamSt) (i : HemItem) (rest : List Rec) (left : HemItem) (whole : Bool) : StreamSt :=
  let y := if whole then x.without i else { x with hem := x.hem.filter (fun j => j != i) }
  { y with hem := if rest.isEmpty then y.hem else left :: y.hem }

theorem StreamSt.sent_places (x : StreamSt) (i : HemItem) (rest : List Rec) (left : HemItem) (whole : Bool) :
    (x.sent i rest left whole).issued = x.issued ∧ (x.sent i rest left whole).ringOut = x.ringOut := by
  unfold StreamSt.sent
  cases whole
  · exact ⟨rfl, rfl⟩
  · exact ⟨rfl, rfl⟩

/-- The state in which the next record of a stream has its place in the ring (R251). -/
def State.ringTaken (s : State) (c st : Nat) (i : HemItem) (r : Rec) (rest : List Rec) : State :=
  ((s.modSt c st (fun x => x.sent i rest { i with recs := rest, fallback := i.fallback || s.destSlot c st } (s.destSlot c st && !i.fallback))).modSt c st
    (fun y => { y with
      issued := y.issued + 1
      ringOut := y.ringOut ++ [(y.issued, { i with recs := [r], terminal := rest.isEmpty && i.terminal })] })).oInc 0x4310 1

/-- The ring goes on for a stream of an enabled tile that has not failed. -/
theorem State.ring_open (hr : s.run = true) (hc : c < 64) (hst : st < 8) (ha : (s.ctxOf c).aborting = false) (hf : s.rfault c st = false) :
    ¬((!(s.run && decide (c < 64) && decide (st < 8)) || s.rfault c st || (s.ctxOf c).aborting) = true) := by
  simp [hr, hc, hst, ha, hf]

theorem State.ringEntryWrite_item {i : HemItem} {r : Rec} {rest : List Rec}
    (go : ¬((!(s.run && decide (c < 64) && decide (st < 8)) || s.rfault c st || (s.ctxOf c).aborting) = true)) (hx : (s.st c st).retry = []) (hi : s.ringItem c st = some i)
    (hrecs : i.recs = r :: rest) (hskip : (s.q i.slot).skip = 0) : s.ringEntryWrite c st =
    if ((s.st c st).issued - (s.st c st).rcons).toNat < 2 ^ s.rlog c st then (s.ringTaken c st i r rest).ringPut c st (s.st c st).issued r else s := by
  unfold State.ringEntryWrite
  dsimp only
  rw [if_neg go, hx]
  dsimp only
  rw [hi]
  dsimp only
  rw [hrecs]
  dsimp only
  rw [if_neg (by rw [hskip]; exact fun h => absurd h.1 (Nat.lt_irrefl 0))]
  unfold State.ringTaken StreamSt.sent
  rfl

theorem State.ringEntryWrite_none (hx : (s.st c st).retry = []) (hi : s.ringItem c st = none) : s.ringEntryWrite c st = s := by
  unfold State.ringEntryWrite
  dsimp only
  split
  · rfl
  · rw [hx]
    dsimp only
    rw [hi]

theorem State.ringEntryWrite_retry {p : Word} {ps : List Word} {y : HemItem}
    (go : ¬((!(s.run && decide (c < 64) && decide (st < 8)) || s.rfault c st || (s.ctxOf c).aborting) = true)) (hx : (s.st c st).retry = p :: ps)
    (hy : (s.st c st).ringOut.find? (fun z => z.1 == p) = some (p, y)) :
    s.ringEntryWrite c st = (s.modSt c st (fun x => { x with retry := ps })).ringPut c st p (y.recs.headD (.trc 0)) := by
  unfold State.ringEntryWrite
  dsimp only
  rw [if_neg go, hx]
  dsimp only
  rw [hy]

theorem State.oInc_st (s : State) (i j a b : Nat) : (s.oInc i j).st a b = s.st a b := rfl

/-- What the state holds in which the record has its place. -/
theorem State.ringTaken_holds (i : HemItem) (r : Rec) (rest : List Rec) : let v := s.ringTaken c st i r rest
    (v.st c st).issued = (s.st c st).issued + 1 ∧
    (v.st c st).ringOut = (s.st c st).ringOut ++ [((s.st c st).issued, { i with recs := [r], terminal := rest.isEmpty && i.terminal })] ∧
    v.o 0x4310 1 = (s.o 0x4310 1 + 1) % 2 ^ 64 ∧ v.slot = s.slot := by
  obtain ⟨issued, out⟩ := (s.st c st).sent_places i rest { i with recs := rest, fallback := i.fallback || s.destSlot c st } (s.destSlot c st && !i.fallback)
  dsimp only
  unfold State.ringTaken
  refine ⟨?_, ?_, ?_, ?_⟩
  · rw [State.oInc_st, State.st_modSt, State.st_modSt]
    exact congrArg (· + 1) issued
  · rw [State.oInc_st, State.st_modSt, State.st_modSt]
    dsimp only
    rw [out, issued]
  · rw [State.o_oInc_same, State.modSt_o, State.modSt_o]
  · rw [State.oInc_slot, State.modSt_slot, State.modSt_slot]

/-- A slot fill opens at the next ring slot (R254). -/
theorem State.slotFillOpen_of (hr : s.run = true) (hc : c < 64) (hst : st < 8) (hd : s.destSlot c st = true) (hredir : s.redir c st = false) (ho : (s.st c st).open_ = none)
    (hn : s.nextWhole c st ≠ none) (hroom : ((s.st c st).fills - (s.st c st).scred).toNat < 2 ^ s.slog c st) (hg : s.grain c = false) (hok : s.slotRingOk c st = true) :
    s.slotFillOpen c st = (s.modSt c st (fun x => { x with
        fills := x.fills + 1
        open_ := some { number := (s.st c st).fills.toNat % (2 ^ 32 - 1) + 1, addr := s.slotBase c st + 64 * s.sstride c st * ((s.st c st).fills.toNat % 2 ^ s.slog c st) } })).startJob
      (.slotHdr c st (s.st c st).ep) c (s.slotBase c st + 64 * s.sstride c st * ((s.st c st).fills.toNat % 2 ^ s.slog c st)) 64 .rd st := by
  have ready : (s.nextWhole c st).isSome = true := Option.isSome_iff_ne_none.mpr hn
  unfold State.slotFillOpen
  dsimp only
  rw [if_pos (by simp only [hr, hc, hst, hd, hredir, ho, ready, hroom, hg, decide_true, Bool.and_self, Bool.not_false, Bool.true_or, Option.isNone_none]), if_pos hok]

theorem State.slotFillOpen_full (h : (s.st c st).fills = (s.st c st).scred + BitVec.ofNat 32 (2 ^ s.slog c st)) (hl : s.slog c st < 32) : s.slotFillOpen c st = s := by
  have used : ((s.st c st).fills - (s.st c st).scred).toNat = 2 ^ s.slog c st := by
    rw [h, BitVec.add_comm, BitVec.add_sub_cancel, BitVec.toNat_ofNat]
    exact Nat.mod_eq_of_lt (Nat.pow_lt_pow_right (by decide) hl)
  unfold State.slotFillOpen
  dsimp only
  rw [if_neg (by simp [used])]

end

/-- Settles O58: each delivery by its meaning where its conditions hold. -/
theorem deliveries : Obligations.Deliveries := by
  unfold Obligations.Deliveries
  intro s c st i r rest f hr hc hst ha
  dsimp only
  have next : ∀ {i} {u v : State}, exec i s = .next u.settle → u = v → exec i s = .next v.settle := fun h e => e ▸ h
  refine ⟨fun hf => ?_, fun hd hredir ho hn hroom hg hok => next rfl (State.slotFillOpen_of hr hc hst hd hredir ho hn hroom hg hok),
    fun h hl => next rfl (State.slotFillOpen_full h hl), fun ho hready hp ht => next rfl ?_, fun hb hh => next rfl ?_, fun hb hp => next rfl ?_, fun h => next rfl ?_⟩
  · have go := State.ring_open hr hc hst ha hf
    refine ⟨fun hx hi hrecs hskip => ?_, fun hx hi => next rfl (State.ringEntryWrite_none hx hi), fun p ps y hx hy => next rfl (State.ringEntryWrite_retry go hx hy)⟩
    have item := State.ringEntryWrite_item go hx hi hrecs hskip
    obtain ⟨issued, out, count, slot⟩ := State.ringTaken_holds (s := s) (c := c) (st := st) i r rest
    exact ⟨fun hroom => ⟨s.ringTaken c st i r rest, next rfl (item.trans (if_pos hroom)), issued, out, count, slot⟩, fun hroom => next rfl (item.trans (if_neg hroom))⟩
  · have placed : f.placed.isEmpty = false := List.isEmpty_eq_false_iff.mpr hp
    unfold State.flushFill
    rw [ho]
    dsimp only
    rw [if_pos (by simp [hr, hready, placed, ht])]
  · exact if_pos ⟨hr, hc, hst, hb, hh, ha⟩
  · exact if_pos ⟨hr, hc, hst, hb, hp, ha⟩
  · refine if_neg fun ⟨_, _, _, hb, hp, _⟩ => ?_
    rcases h with h | h
    · rw [h] at hb
      exact Bool.false_ne_true hb
    · exact hp h

end Sys2Proof.Machine
end

section
/-! Operands, dispatches and the waits of a thread (R277, R278, R280, R281, R283, R284, R286). -/

namespace Sys2Proof.Machine

section
variable {s u : State}

/-- What a step of the Bodkin leaves when it takes its place in a cycle: the registers, the endpoints and the streams of posts. -/
theorem State.bdkCycle_keeps (phase lim : Nat) : (s.bdkCycle phase lim).obj = s.obj ∧ (s.bdkCycle phase lim).ep = s.ep := by
  unfold State.bdkCycle
  dsimp only
  split
  · exact ⟨rfl, rfl⟩
  · exact ⟨rfl, rfl⟩

theorem State.o_of_obj (h : u.obj = s.obj) (i j : Nat) : u.o i j = s.o i j := by rw [State.o, State.o, h]

theorem State.operand_of {p : BdkPost} {rest : List BdkPost} (hl : s.live = true) (hp : s.tile.posts = p :: rest) : s.operand =
    if s.bdkEn p.ctx = false then ((s.bdkCycle 1 32).modTile (fun t => { t with posts := rest })).oInc 0x4320 4
    else match ((s.bdkCycle 1 32).modTile (fun t => { t with posts := rest })).applyOp p with
      | some s2 => s2.bdkStops p.ctx
      | none => ((((s.bdkCycle 1 32).modTile (fun t => { t with posts := rest })).began 0x4320 0x0D).modTile (fun t => { t with waitPosts := t.waitPosts ++ [p] })).bdkStops p.ctx := by
  have enabled : ((s.bdkCycle 1 32).modTile (fun t => { t with posts := rest })).bdkEn p.ctx = s.bdkEn p.ctx :=
    congrArg (fun v => bit v 0) (State.o_of_obj (State.bdkCycle_keeps 1 32).1 _ _)
  unfold State.operand
  rw [hp]
  dsimp only
  rw [hl, enabled]
  cases s.bdkEn p.ctx
  · rfl
  · rfl

/-- A thread dispatched at place d of the ring of endpoint e (R281). -/
def Thread.sentTo (y : Thread) (e : Nat) (d : Word) : Thread :=
  { y with st := .dispatched, lastEp := some e, sent := some (e, d), aged := false, affOver := false, warned := false }

theorem State.raise_thr (leaf n what : Nat) : (s.raise leaf n what).thr = s.thr := (congrArg State.thr (State.raise_core s leaf n what) :)

/-- The state in which thread t has been given the next place of the ring of endpoint e (R281). -/
def State.dispatched (s : State) (t : Nat) (x : Thread) (e : Nat) (affine : Bool) : State :=
  let s1 := (s.modEp e (fun y => { y with disp := y.disp + 1 })).modThr t (fun y => y.sentTo e (s.epOf e).disp)
  (if affine then s1.oInc 0x4320 7 else { s1.oInc 0x4320 8 with cursor := tset 0 s1.cursor x.group (e + 1) }).oInc 0x4320 6

theorem State.dispatched_holds (t : Nat) (x : Thread) (e : Nat) (affine : Bool) : let v := s.dispatched t x e affine
    (v.thrOf t).st = .dispatched ∧ (v.thrOf t).lastEp = some e ∧ (v.thrOf t).sent = some (e, (s.epOf e).disp) ∧ (v.epOf e).disp = (s.epOf e).disp + 1 := by
  have places : (s.dispatched t x e affine).thr = (s.modThr t (fun y => y.sentTo e (s.epOf e).disp)).thr ∧
      (s.dispatched t x e affine).ep = (s.modEp e (fun y => { y with disp := y.disp + 1 })).ep := by
    cases affine
    · exact ⟨rfl, rfl⟩
    · exact ⟨rfl, rfl⟩
  have thr : (s.dispatched t x e affine).thrOf t = (s.thrOf t).sentTo e (s.epOf e).disp := by
    rw [State.thrOf, places.1]
    exact State.thrOf_modThr _ _ _
  have ep : ((s.dispatched t x e affine).epOf e).disp = (s.epOf e).disp + 1 := by
    rw [State.epOf, places.2]
    exact congrArg Endpoint.disp (State.epOf_modEp _ _ _)
  dsimp only
  rw [thr, ep]
  exact ⟨rfl, rfl, rfl, rfl⟩

/-- A dispatch from a state with the registers and endpoints of s: the record, then DSEQ as a release write on the same port (R283). -/
theorem State.dispatchTo_of (ho : u.obj = s.obj) (he : u.ep = s.ep) (t : Nat) (x : Thread) (e : Nat) (affine : Bool) : let d := (s.epOf e).disp
    let a := s.o (0x2C00 + e) 2 + 32 * (d.toNat % 2 ^ fld (s.epCtrl e) 24 4)
    let p := 16 + fld (s.epCtrl e) 16 3
    ∃ v : State, (v.thrOf t).st = .dispatched ∧ (v.thrOf t).lastEp = some e ∧ (v.thrOf t).sent = some (e, d) ∧ (v.epOf e).disp = d + 1 ∧
      u.dispatchTo t x e affine = ((v.bdkStops x.ctx).send p
        { wr := true, addr := a / 64 * 64, data := x.record t affine * 256 ^ (a % 64), mask := (2 ^ 28 - 1) * 2 ^ (a % 64), wp := some (.dispatch e t d), ctx := x.ctx }).send p
        { wr := true, addr := a / 64 * 64, data := (d + 1).toNat * 256 ^ (a % 64 + 28), mask := 15 * 2 ^ (a % 64 + 28), rel := true, wp := some (.dseq e t d), ctx := x.ctx } := by
  have ctrl : u.epCtrl e = s.epCtrl e := State.o_of_obj ho _ _
  have ep : u.epOf e = s.epOf e := by rw [State.epOf, State.epOf, he]
  obtain ⟨st, last, sent, disp⟩ := u.dispatched_holds t x e affine
  dsimp only
  rw [← ep, ← ctrl, ← State.o_of_obj ho]
  exact ⟨u.dispatched t x e affine, st, last, sent, disp, rfl⟩

end

/-- Settles O59: each step of the Bodkin by its meaning where its conditions hold. -/
theorem threadEvents : Obligations.ThreadEvents := by
  unfold Obligations.ThreadEvents
  intro s t e x affine hr
  have hl := State.live_of_run hr
  dsimp only
  have next : ∀ {i} {u v : State}, exec i s = .next u.settle → u = v → exec i s = .next v.settle := fun h e => e ▸ h
  refine ⟨fun hp => next rfl ?_, fun p rest hp => ?_, fun hn hlater => next rfl ?_, fun h => ?_, fun ho ha => congrArg Host.Outcome.next ?_, fun ho => congrArg Host.Outcome.next ?_,
    fun h => congrArg Host.Outcome.next (if_pos h), fun h => congrArg Host.Outcome.next (if_neg h), fun hst hw hnew => ?_, fun h => congrArg Host.Outcome.next (if_neg ?_)⟩
  · unfold State.operand
    rw [hp]
  · have post := State.operand_of hl hp
    refine ⟨fun he => next rfl (post.trans (if_pos he)), fun he s2 ha => next rfl (post.trans ?_), fun he ha => next rfl (post.trans ?_)⟩
    · rw [if_neg (by rw [he]; decide), ha]
    · rw [if_neg (by rw [he]; decide), ha]
  · unfold State.dispatchOne
    dsimp only
    rw [hn, hlater]
    exact ite_self _
  · obtain ⟨u, ho, he, run⟩ : ∃ u : State, u.obj = s.obj ∧ u.ep = s.ep ∧ s.dispatchOne = u.dispatchTo t x e affine := by
      unfold State.dispatchOne
      dsimp only
      rw [if_neg (by rw [hr]; decide)]
      rcases h with h | ⟨hn, h⟩
      · rw [h]
        exact ⟨s.bdkCycle 2 4, (State.bdkCycle_keeps 2 4).1, (State.bdkCycle_keeps 2 4).2, rfl⟩
      · rw [hn, h]
        exact ⟨s.bdkAfter 2, rfl, rfl, rfl⟩
    obtain ⟨v, st, last, sent, disp, eq⟩ := State.dispatchTo_of ho he t x e affine
    exact ⟨v, st, last, sent, disp, next rfl (run.trans eq)⟩
  · unfold State.affWait
    dsimp only
    rw [ho, ha]
    rfl
  · unfold State.affWait
    dsimp only
    rw [ho]
    rfl
  · have late : s.ackLate t = (s.modThr t (fun y => { y with warned := true })).raise 0x5500 7 ((s.thrOf t).ctx * 65536 + t % 65536) :=
      if_pos ⟨hst, hw, by rw [hnew]; rfl⟩
    have thr : (((s.modThr t (fun y => { y with warned := true })).raise 0x5500 7 ((s.thrOf t).ctx * 65536 + t % 65536)).thrOf t) = (fun y : Thread => { y with warned := true }) (s.thrOf t) := by
      rw [State.thrOf, State.raise_thr]
      exact State.thrOf_modThr _ _ _
    refine ⟨_, congrArg Host.Outcome.next late, State.raise_bit _ _ _ _ (by decide) (by decide) (by decide), ?_, ?_⟩
    · rw [thr]
    · rw [thr]
      exact hst
  · rintro ⟨hst, -, hnew⟩
    rcases h with h | h
    · exact h hst
    · rw [h] at hnew
      exact Bool.false_ne_true hnew

end Sys2Proof.Machine
end

section
/-! Fetching, admission, generation and continuations (R44, R47, R48, R50 to R52, R67, R180 to R182). -/

namespace Sys2Proof.Machine

/-! ## Slots -/

/-- A key that does not read as the default stands in the table. -/
theorem mem_keys_of_tget {α : Type} {d : α} {t : Tbl α} {k : Nat} (h : tget d t k ≠ d) : k ∈ t.map (fun e => e.1) := by
  induction t with
  | nil => exact absurd rfl h
  | cons e r ih =>
    obtain ⟨k', v⟩ := e
    unfold tget at h
    split at h
    · next hk => exact List.mem_cons.mpr (.inl hk.symm)
    · exact List.mem_cons_of_mem _ (ih h)

section
variable {s : State}

/-- Numbers that are all in a list are no more than its entries. -/
theorem range_le_length {n : Nat} {l : List Nat} (h : ∀ i, i < n → i ∈ l) : n ≤ l.length := by
  induction n generalizing l with
  | zero => exact Nat.zero_le _
  | succ n ih =>
    have last := h n (Nat.lt_succ_self n)
    have others := ih (l := l.erase n) fun i hi => (List.mem_erase_of_ne (Nat.ne_of_lt hi)).mpr (h i (Nat.lt_succ_of_lt hi))
    have some_entry := List.length_pos_of_mem last
    rw [List.length_erase_of_mem last] at others
    omega

/-- There is a free slot among as many as there are entries and lost slots, and one more. -/
theorem State.freeSlot_exists : ∃ i, i < s.slot.length + s.tile.lostSlots.length + 1 ∧ ((s.q i).place == .none && !s.tile.lostSlots.contains i) = true := by
  refine Classical.byContradiction fun none_free => ?_
  have taken : ∀ i, i < s.slot.length + s.tile.lostSlots.length + 1 → i ∈ s.slot.map (fun e => e.1) ++ s.tile.lostSlots := by
    intro i hi
    refine Classical.byContradiction fun out => ?_
    rw [List.mem_append, not_or] at out
    refine none_free ⟨i, hi, ?_⟩
    have empty : s.q i = {} := by
      refine Classical.byContradiction fun h => ?_
      exact out.1 (mem_keys_of_tget h)
    have kept : s.tile.lostSlots.contains i = false := by
      rw [Bool.eq_false_iff]
      exact fun h => out.2 (List.contains_iff_mem.mp h)
    rw [empty, kept]
    rfl
  have count := range_le_length taken
  rw [List.length_append, List.length_map] at count
  omega

/-- The slot that is taken next holds no query. -/
theorem State.freeSlot_place : (s.q s.freeSlot).place = .none := by
  obtain ⟨i, hi, hp⟩ := State.freeSlot_exists (s := s)
  unfold State.freeSlot
  cases h : firstIdx (s.slot.length + s.tile.lostSlots.length + 1) (fun i => (s.q i).place == .none && !s.tile.lostSlots.contains i) with
  | none => exact absurd hp (List.find?_eq_none.mp h i (List.mem_range.mpr hi))
  | some j =>
    have hj := List.find?_some h
    rw [Bool.and_eq_true, beq_iff_eq] at hj
    exact hj.1

/-- Slots charged for continuations leave every query that has a place, and nothing but slots changes (R52). -/
theorem State.takeCharged_keeps (r : QRec) (n k : Nat) (hk : (s.q k).place ≠ .none) : let u := (State.takeCharged r n s).1
    u.strm = s.strm ∧ u.obj = s.obj ∧ u.tile = s.tile ∧ u.q k = s.q k := by
  induction n generalizing s with
  | zero => exact ⟨rfl, rfl, rfl, rfl⟩
  | succ n ih =>
    have ne : k ≠ s.freeSlot := fun h => hk (h ▸ State.freeSlot_place)
    have same := State.q_modQ_ne (s := s) s.freeSlot k (fun _ => { place := .charged, qr := { ctx := r.ctx, stream := r.stream }, fromReserve := s.takeReserve r.ctx 1 }) ne
    obtain ⟨strm, obj, tile, q⟩ := ih (s := s.modQ s.freeSlot (fun _ => { place := .charged, qr := { ctx := r.ctx, stream := r.stream }, fromReserve := s.takeReserve r.ctx 1 })) (by rwa [same])
    exact ⟨strm, obj, tile, q.trans same⟩

end

/-! ## What a new query's insertion leaves -/

/-- From s to t the query of slot k has been keyed and put into a bin, or the read for its key has been asked for. -/
structure State.Entered (k : Nat) (s t : State) : Prop where
  strm : t.strm = s.strm
  query : (t.q k).unkeyed = (s.q k).unkeyed
  place : (s.q k).place = .binned → (t.q k).place = .binned
  admitted : t.o 0x4300 1 = s.o 0x4300 1
  turn : t.tile.rrGen = s.tile.rrGen

namespace State.Entered

variable {k : Nat} {s0 s t : State}

theorem refl (k : Nat) (s : State) : s.Entered k s := ⟨rfl, rfl, id, rfl, rfl⟩

theorem trans (h : s0.Entered k s) (w : s.Entered k t) : s0.Entered k t :=
  ⟨w.strm.trans h.strm, w.query.trans h.query, fun h0 => w.place (h.place h0), w.admitted.trans h.admitted, w.turn.trans h.turn⟩

theorem modQ {f : Query → Query} (hf : ∀ q, (f q).unkeyed = q.unkeyed) (hp : ∀ q, q.place = .binned → (f q).place = .binned) (h : s0.Entered k s) : s0.Entered k (s.modQ k f) :=
  ⟨h.strm, by rw [State.q_modQ, hf]; exact h.query, fun h0 => by rw [State.q_modQ]; exact hp _ (h.place h0), h.admitted, h.turn⟩

theorem bin (h : s0.Entered k s) : s0.Entered k (s.modQ k (fun q => { q with place := .binned })) := by
  refine h.modQ ?_ ?_
  · exact fun _ => rfl
  · exact fun _ _ => rfl

theorem modTile {f : TileSt → TileSt} (hf : ∀ x, (f x).rrGen = x.rrGen) (h : s0.Entered k s) : s0.Entered k (s.modTile f) :=
  ⟨h.strm, h.query, h.place, h.admitted, (hf _).trans h.turn⟩

theorem modBin {i : Nat} {f : Bin → Bin} (h : s0.Entered k s) : s0.Entered k (s.modBin i f) := by
  refine h.modTile ?_
  exact fun _ => rfl

theorem tick (h : s0.Entered k s) : s0.Entered k s.tick.2 := ⟨h.strm, h.query, h.place, h.admitted, h.turn⟩

theorem oInc {j : Nat} (hj : 1 < j ∧ j < 256) (h : s0.Entered k s) : s0.Entered k (s.oInc 0x4300 j) :=
  ⟨h.strm, h.query, h.place, (State.o_oSet_of (by unfold okey; omega)).trans h.admitted, h.turn⟩

theorem raise {n what : Nat} (hn : n < 24) (h : s0.Entered k s) : s0.Entered k (s.raise 0x5400 n what) := by
  have core := State.raise_core s 0x5400 n what
  have same : (s.raise 0x5400 n what).q k = s.q k := by
    rw [State.q, State.raise_slot]
    rfl
  have strm : (s.raise 0x5400 n what).strm = s.strm := (congrArg State.strm core :)
  refine ⟨strm.trans h.strm, ?_, fun h0 => ?_, (State.raise_o _ _ _ _ hn (by decide) (by decide) (by decide) (by decide) (by decide)).trans h.admitted,
    (congrArg (fun x => x.rrGen) (State.tile_of_core core)).trans h.turn⟩
  · rw [same]
    exact h.query
  · rw [same]
    exact h.place h0

theorem ofWire (h : s0.Entered k s) (w : s.Wire t) : s0.Entered k t := by
  have same : t.q k = s.q k := by
    rw [State.q, w.slot]
    rfl
  refine h.trans ⟨w.strm, by rw [same], fun h0 => by rw [same]; exact h0, w.regs _ _ (by decide), (congrArg (fun u => u.tile.rrGen) w.wire :)⟩

theorem toEscape (h : s0.Entered k s) : s0.Entered k (s.toEscape k) := by
  unfold State.toEscape
  dsimp only
  split
  · exact (h.modBin.bin.oInc (by decide)).raise (by decide)
  · exact h.modBin.bin.oInc (by decide)

theorem toBin (h : s0.Entered k s) : s0.Entered k (s.toBin k) := by
  unfold State.toBin
  dsimp only
  split
  · split
    · exact h.modBin.bin
    · exact h.modBin.bin.oInc (by decide)
  · exact h.toEscape

end State.Entered

/-- A new query is binned, or the read for its key begins (R180, R186, R187). -/
theorem State.insert_new {s : State} {k : Nat} (hc : (s.q k).qr.ctx < 64) : s.Entered k (s.insert k 4) := by
  have entered : s.Entered k (s.tick.2.modQ k (fun q => { q with place := .binned, age := s.clkF, scheme := s.scheme, insOrd := s.tick.1 })) := by
    refine .modQ ?_ ?_ (State.Entered.refl k s).tick
    · exact fun _ => rfl
    · exact fun _ _ => rfl
  unfold State.insert
  dsimp only
  rw [if_neg (show ¬4 = 1 by decide), if_neg (show ¬(4 = 2 ∧ _) from fun h => absurd h.1 (by decide))]
  split
  · refine .modTile ?_ (.modQ ?_ ?_ (State.Entered.refl k s))
    · exact fun _ => rfl
    · exact fun _ => rfl
    · exact fun _ _ => rfl
  · split
    · split
      · refine .toBin (.modQ ?_ ?_ entered)
        · exact fun _ => rfl
        · exact fun _ h => h
      · refine .ofWire (.modQ ?_ ?_ entered) (.startJob hc (.refl _))
        · exact fun _ => rfl
        · exact fun _ h => h
    · refine .toBin (.modQ ?_ ?_ entered)
      · exact fun _ => rfl
      · exact fun _ h => h

/-! ## A query is admitted -/

section
variable {s : State}

/-- The record of a query with its extension block. -/
def State.placed (s : State) (r : QRec) : QRec := if r.usesExt then { r with w38 := s.draw.1.toNat % 2 ^ 24 } else r

theorem State.placed_fields (r : QRec) : (s.placed r).kind = r.kind ∧ (s.placed r).seq = r.seq ∧ (s.placed r).ctx = r.ctx := by
  unfold State.placed
  split
  · exact ⟨rfl, rfl, rfl⟩
  · exact ⟨rfl, rfl, rfl⟩

/-- A new query as its slot first holds it (R182). -/
def State.newQuery (s : State) (r : QRec) (desc : Word) (n tA tC bell : Nat) (plain : Bool) : Query :=
  { place := .binned, qr := s.placed r, body0 := r.body, extBlocks := r.extSize, fromReserve := s.takeReserve r.ctx (1 + r.extSize), traceAddr := tA, traceCap := tC,
    plain0 := plain && r.cls == 0, bell := bell, desc := desc, genN := n, dord := (s.st r.ctx r.stream).dord, uid := s.order }

/-- The state in which a new query has its slot. -/
def State.slotted (s : State) (r : QRec) (desc : Word) (n tA tC bell : Nat) (plain : Bool) : State :=
  (if r.usesExt then s.draw else (0, s)).2.tick.2.modQ s.freeSlot (fun _ => s.newQuery r desc n tA tC bell plain)

/-- A query with the slots charged for its continuations (R52). -/
def Query.withSlots (q : Query) (slots : List Nat) : Query := { q with contSlots := slots }

/-- A query of slot k with its charges is admitted (R52, R182). -/
def State.charged (u : State) (k : Nat) (slots : List Nat) : State :=
  ((u.modQ k (fun q => q.withSlots slots)).oInc 0x4300 1).modTile (fun t => { t with sinceInterval := t.sinceInterval + 1 })

theorem State.charged_holds (u : State) (k : Nat) (slots : List Nat) : (u.charged k slots).strm = u.strm ∧ (u.charged k slots).o 0x4300 1 = (u.o 0x4300 1 + 1) % 2 ^ 64 ∧
    (u.charged k slots).tile.rrGen = u.tile.rrGen ∧ (u.charged k slots).q k = (u.q k).withSlots slots := by
  refine ⟨rfl, ?_, rfl, (show _ = (u.modQ k (fun q => q.withSlots slots)).q k from rfl).trans (State.q_modQ _ _ _)⟩
  unfold State.charged
  rw [State.modTile_o, State.o_oInc_same, State.modQ_o]

theorem State.allocate_eq (r : QRec) (desc : Word) (n tA tC bell : Nat) (plain : Bool) : s.allocate r desc n tA tC bell plain =
    let x := State.takeCharged r (s.chargeOf r - 1) (s.slotted r desc n tA tC bell plain)
    (x.1.charged s.freeSlot x.2, s.freeSlot) := by
  unfold State.allocate State.charged State.slotted State.newQuery State.placed
  cases r.usesExt
  · rfl
  · rfl

theorem State.slotted_keeps (r : QRec) (desc : Word) (n tA tC bell : Nat) (plain : Bool) : let u := s.slotted r desc n tA tC bell plain
    u.strm = s.strm ∧ u.obj = s.obj ∧ u.tile = s.tile := by
  unfold State.slotted
  cases r.usesExt
  · exact ⟨rfl, rfl, rfl⟩
  · exact ⟨rfl, rfl, rfl⟩

/-- A new query has its slot, its record and its charges, and is counted (R52, R182). -/
theorem State.allocate_holds (r : QRec) (desc : Word) (n tA tC bell : Nat) (plain : Bool) : let a := s.allocate r desc n tA tC bell plain
    a.2 = s.freeSlot ∧ a.1.strm = s.strm ∧ a.1.o 0x4300 1 = (s.o 0x4300 1 + 1) % 2 ^ 64 ∧ a.1.tile.rrGen = s.tile.rrGen ∧
    ∃ slots, a.1.q s.freeSlot = (s.newQuery r desc n tA tC bell plain).withSlots slots := by
  obtain ⟨strm, obj, tile⟩ := s.slotted_keeps r desc n tA tC bell plain
  have own : (s.slotted r desc n tA tC bell plain).q s.freeSlot = s.newQuery r desc n tA tC bell plain := State.q_modQ _ _ _
  obtain ⟨strm1, obj1, tile1, kept⟩ := State.takeCharged_keeps (s := s.slotted r desc n tA tC bell plain) r (s.chargeOf r - 1) s.freeSlot (by rw [own]; exact fun h => by cases h)
  rw [State.allocate_eq]
  generalize State.takeCharged r (s.chargeOf r - 1) (s.slotted r desc n tA tC bell plain) = x at strm1 obj1 tile1 kept ⊢
  obtain ⟨strm2, count, turn, q⟩ := x.1.charged_holds s.freeSlot x.2
  refine ⟨rfl, strm2.trans (strm1.trans strm), count.trans ?_, turn.trans (congrArg TileSt.rrGen (tile1.trans tile)), x.2, q.trans ?_⟩
  · rw [State.o_of_obj (obj1.trans obj)]
  · rw [kept, own]

/-- A query admitted anew is binned in the slot that was free, and counted (R182). -/
theorem State.admitted_holds {r : QRec} (hc : r.ctx < 64) (desc : Word) (n tA tC bell : Nat) (plain : Bool) : let a := s.allocate r desc n tA tC bell plain
    let u := a.1.insert a.2 4
    u.strm = s.strm ∧ u.o 0x4300 1 = (s.o 0x4300 1 + 1) % 2 ^ 64 ∧ u.tile.rrGen = s.tile.rrGen ∧ (u.q s.freeSlot).place = .binned ∧
      (u.q s.freeSlot).qr.kind = r.kind ∧ (u.q s.freeSlot).qr.seq = r.seq ∧ (u.q s.freeSlot).desc = desc ∧ (u.q s.freeSlot).genN = n := by
  obtain ⟨slot, strm, count, turn, slots, own⟩ := s.allocate_holds r desc n tA tC bell plain
  obtain ⟨kind, seq, ctx⟩ := s.placed_fields r
  dsimp only
  generalize s.allocate r desc n tA tC bell plain = a at slot strm count turn own ⊢
  rw [slot]
  have entered : a.1.Entered s.freeSlot (a.1.insert s.freeSlot 4) := State.insert_new (by rw [own]; exact Nat.lt_of_le_of_lt (Nat.le_of_eq ctx) hc)
  have query := entered.query
  have place := entered.place (by rw [own]; rfl)
  rw [own] at query
  have qr : ((a.1.insert s.freeSlot 4).q s.freeSlot).qr = s.placed r := congrArg Query.qr query
  exact ⟨entered.strm.trans strm, entered.admitted.trans count, entered.turn.trans turn, place, by rw [qr, kind], by rw [qr, seq], congrArg Query.desc query, congrArg Query.genN query⟩

/-! ## An entry is done with -/

theorem State.headStep_keeps (c st n : Nat) : let u := State.headStep c st n s
    u.slot = s.slot ∧ u.obj = s.obj ∧ u.tile = s.tile ∧ (u.st c st).next = (s.st c st).next ∧ (u.st c st).entries = (s.st c st).entries := by
  induction n generalizing s with
  | zero => exact ⟨rfl, rfl, rfl, rfl, rfl⟩
  | succ n ih =>
    unfold State.headStep
    dsimp only
    split
    · exact ⟨rfl, rfl, rfl, rfl, rfl⟩
    · split
      · exact ⟨rfl, rfl, rfl, rfl, rfl⟩
      · obtain ⟨slot, obj, tile, next, entries⟩ := ih (s := s.modSt c st (fun x => { x with head := x.head + 1 }))
        rw [State.st_modSt] at next entries
        exact ⟨slot, obj, tile, next, entries⟩

theorem State.advanceHead_keeps (c st : Nat) : let u := s.advanceHead c st
    u.slot = s.slot ∧ u.obj = s.obj ∧ u.tile = s.tile ∧ (u.st c st).next = (s.st c st).next ∧ (u.st c st).entries = (s.st c st).entries := by
  unfold State.advanceHead
  dsimp only
  split
  · exact State.headStep_keeps c st _
  · refine ⟨rfl, rfl, rfl, ?_, ?_⟩
    · rw [State.st_modSt]
    · rw [State.st_modSt]

/-- An entry done with leaves the slots, the registers and the tile, and its stream has its next count and its later entries (R42, R43). -/
theorem State.entryDone_keeps (c st : Nat) : let u := s.entryDone c st
    u.slot = s.slot ∧ u.obj = s.obj ∧ u.tile = s.tile ∧ (u.st c st).next = (s.st c st).entryOut.next ∧ (u.st c st).entries = (s.st c st).entryOut.entries := by
  obtain ⟨slot, obj, tile, next, entries⟩ := State.advanceHead_keeps (s := s.modSt c st StreamSt.entryOut) c st
  rw [State.st_modSt] at next entries
  exact ⟨slot, obj, tile, next, entries⟩

theorem StreamSt.entryOut_current {x : StreamSt} {e : Fetched} {rest : List Fetched} (ho : x.old = []) (he : x.entries = e :: rest) :
    x.entryOut.next = x.next + 1 ∧ x.entryOut.entries = rest := by
  unfold StreamSt.entryOut
  rw [ho]
  exact ⟨rfl, by rw [he]; rfl⟩

end

/-! ## Admission -/

section
variable {s : State} {c st : Nat} {e : Fetched} {rest : List Fetched}

/-- The front of a stream without an earlier run (R42). -/
theorem StreamSt.front_current {x : StreamSt} (ho : x.old = []) (he : x.entries = e :: rest) (hn : e.count = x.next) : x.front = some e ∧ x.frontCancelled e.count = x.cancels e.count := by
  unfold StreamSt.front StreamSt.frontCancelled
  rw [ho, he]
  refine ⟨?_, rfl⟩
  dsimp only
  rw [List.head?_cons, Option.filter_some, if_pos (beq_iff_eq.mpr hn)]

/-- What lets a stream admit: its turn, in an enabled tile, with no abort of its context. -/
theorem State.admission_open (hr : s.run = true) (ha : (s.ctxOf c).aborting = false) (ht : s.admitTurn c st = true) :
    ¬((!s.run || (s.ctxOf c).aborting || !s.admitTurn c st) = true) := by
  rw [hr, ha, ht]
  decide

/-- An entry that could not be read completes with its status (R44, R58). -/
theorem State.admission_unread {y : Nat} (go : ¬((!s.run || (s.ctxOf c).aborting || !s.admitTurn c st) = true)) (hg : (s.st c st).gen = none) (hf : (s.st c st).front = some e)
    (hs : e.status = some y) (hx : (s.st c st).frontCancelled e.count = false) : s.admission c st =
    (if y = stUnrecovered then (s.slotlessRec { ctx := c, stream := st, seq := e.count } y e.count 0 (unreadRec e.count y)).unrecovered c st
     else s.slotlessRec { ctx := c, stream := st, seq := e.count } y e.count 0 (unreadRec e.count y)).entryDone c st := by
  unfold State.admission
  dsimp only
  rw [if_neg go, hg]
  dsimp only
  rw [hf]
  dsimp only
  rw [hs, hx]
  rfl

/-- A plain entry is completed as cancelled, waits for its context, or goes on to its checks (R62, R67). -/
theorem State.admission_plain (go : ¬((!s.run || (s.ctxOf c).aborting || !s.admitTurn c st) = true)) (hg : (s.st c st).gen = none) (hf : (s.st c st).front = some e)
    (hs : e.status = none) (hp : bit e.data 15 = false) : s.admission c st =
    if (s.st c st).frontCancelled e.count then (s.refuse (plainRec c st e.count e.data) stCancelled e.count 0).entryDone c st
    else if !s.ctxEn c then s else s.admitPlain c st e := by
  unfold State.admission
  dsimp only
  rw [if_neg go, hg]
  dsimp only
  rw [hf]
  dsimp only
  rw [hs, hp]
  rfl

theorem State.admission_gen {g : GenExp} (go : ¬((!s.run || (s.ctxOf c).aborting || !s.admitTurn c st) = true)) (hg : (s.st c st).gen = some g) : s.admission c st = s.genStep c st g := by
  unfold State.admission
  dsimp only
  rw [if_neg go, hg]

theorem State.plainCheck_kind (v : Nat) (h : 9 ≤ fld v 0 4) : s.plainCheck c st v = some stBadKind := if_pos h

theorem State.admitPlain_refused {y : Nat} (h : s.plainCheck c st e.data = some y) (hy : y ≠ stWindow) :
    s.admitPlain c st e = (s.refuse (plainRec c st e.count e.data) y e.count 0).entryDone c st := by
  unfold State.admitPlain
  dsimp only
  rw [h]
  dsimp only
  rw [State.checkFault, if_neg hy]

theorem State.admitPlain_checked (h : s.plainCheck c st e.data = none) : s.admitPlain c st e =
    if s.mustWait (plainRec c st e.count e.data) then s else
      let r := plainRec c st e.count e.data
      let a := s.allocate r e.count 0 (if r.trace then bytesAt e.data 0x30 8 else 0) (if r.trace then bytesAt e.data 8 4 else 0) e.bell true
      (a.1.insert a.2 4).entryDone c st := by
  unfold State.admitPlain
  dsimp only
  rw [h]

/-- Where a plain query that is admitted stands (R182). -/
theorem State.admitPlain_holds (hc : c < 64) (ho : (s.st c st).old = []) (he : (s.st c st).entries = e :: rest) (tA tC : Nat) :
    let r := plainRec c st e.count e.data
    let a := s.allocate r e.count 0 tA tC e.bell true
    let u := (a.1.insert a.2 4).entryDone c st
    a.1.o 0x4300 1 = (s.o 0x4300 1 + 1) % 2 ^ 64 ∧ (u.st c st).next = (s.st c st).next + 1 ∧ (u.st c st).entries = rest ∧ (u.q s.freeSlot).place = .binned ∧
      (u.q s.freeSlot).qr.kind = r.kind ∧ (u.q s.freeSlot).qr.seq = e.count ∧ (u.q s.freeSlot).desc = e.count := by
  obtain ⟨-, -, count, -⟩ := s.allocate_holds (plainRec c st e.count e.data) e.count 0 tA tC e.bell true
  have admitted := State.admitted_holds (s := s) (r := plainRec c st e.count e.data) hc e.count 0 tA tC e.bell true
  dsimp only at admitted count ⊢
  generalize s.allocate (plainRec c st e.count e.data) e.count 0 tA tC e.bell true = a at admitted count ⊢
  obtain ⟨strm, -, -, place, kind, seq, desc, -⟩ := admitted
  obtain ⟨slot, -, -, next, entries⟩ := State.entryDone_keeps (s := a.1.insert a.2 4) c st
  obtain ⟨out_next, out_entries⟩ := StreamSt.entryOut_current ho he
  have stream : (a.1.insert a.2 4).st c st = s.st c st := by
    rw [State.st, strm]
    rfl
  have query : ∀ k, ((a.1.insert a.2 4).entryDone c st).q k = (a.1.insert a.2 4).q k := fun k => by
    rw [State.q, slot]
    rfl
  rw [stream] at next entries
  rw [query]
  exact ⟨count, next.trans out_next, entries.trans out_entries, place, kind, seq, desc⟩

/-! ## Generation -/

/-- A generation descriptor at the front of a stream that is neither cancelled nor held back: its checks, and its expansion (R48, R50). -/
def State.genStart (s : State) (c st : Nat) (e : Fetched) : State :=
  match s.genCheck c st e.data with
  | some y => ((s.checkFault c st y).refuse (genRec c st e.count e.data 0) y e.count 0).entryDone c st
  | none =>
    let cam := fld e.data 0 4 == 1
    let s1 := s.modSt c st (fun x => { x with gen := some { desc := e.data, s := e.count, ready := !cam, ord := s.order, count := if cam then bytesAt e.data 0x1C 4 else 1 } })
    if cam then s1.startJob (.shot c st) c (bytesAt e.data 0x10 8) 64 .rd st else s1

theorem State.genBegin_front (hr : s.run = true) (ha : (s.ctxOf c).aborting = false) (hg : (s.st c st).gen = none) (hf : (s.st c st).front = some e) (hs : e.status = none)
    (hp : bit e.data 15 = true) : s.genBegin c st =
    if (s.st c st).frontCancelled e.count then (s.refuse (genRefusal c st e.count e.data) stCancelled e.count 0).entryDone c st
    else if s.genClash c st e.count || !s.ctxEn c then s
    else s.genStart c st e := by
  have read : ¬(e.status ≠ none ∨ (!bit e.data 15) = true) := by
    rw [hs, hp]
    rintro (h | h)
    · exact h rfl
    · exact absurd h (by decide)
  unfold State.genBegin
  dsimp only
  rw [if_neg (by rw [hr, ha, hg]; decide), hf]
  dsimp only
  rw [if_neg read]
  rfl

theorem State.genStart_network (h : s.genCheck c st e.data = none) (hk : fld e.data 0 4 = 2) :
    s.genStart c st e = s.modSt c st (fun x => { x with gen := some { desc := e.data, s := e.count, ready := true, ord := s.order, count := 1 } }) := by
  unfold State.genStart
  rw [h]
  dsimp only
  rw [hk]
  rfl

theorem State.genStart_camera (h : s.genCheck c st e.data = none) (hk : fld e.data 0 4 = 1) : s.genStart c st e =
    (s.modSt c st (fun x => { x with gen := some { desc := e.data, s := e.count, ready := false, ord := s.order, count := bytesAt e.data 0x1C 4 } })).startJob
      (.shot c st) c (bytesAt e.data 0x10 8) 64 .rd st := by
  unfold State.genStart
  rw [h]
  dsimp only
  rw [hk]
  rfl

/-- The expansion of a stream goes on with its next query, or its entry is done with (R48). -/
def State.genNextTurn (s : State) (c st : Nat) (g : GenExp) : State :=
  if g.n + 1 < g.count then s.tick.2.modSt c st (fun x => { x with gen := some { g with n := g.n + 1, ord := s.order } }) else s.entryDone c st

theorem State.genStep_admits {g : GenExp} (hready : g.ready = true) (hc : g.cancelled = false) (hs : (s.genNext c st g).status = none) (hw : s.mustWait (s.genNext c st g).qr = false) :
    s.genStep c st g =
      let a := s.allocate (s.genNext c st g).qr g.s g.n (s.genNext c st g).trace (s.genNext c st g).cap 0 false
      (a.1.insert a.2 4).genNextTurn c st g := by
  unfold State.genStep
  rw [if_neg (by rw [hready]; decide)]
  dsimp only
  rw [if_neg (by rw [hc]; decide), hs]
  dsimp only
  rw [if_neg (by rw [hw]; decide)]
  rfl

theorem State.genNextTurn_keeps (g : GenExp) : let u := s.genNextTurn c st g
    u.slot = s.slot ∧ u.obj = s.obj ∧ u.tile = s.tile ∧ (g.n + 1 < g.count → (u.st c st).gen.map (fun y => y.n) = some (g.n + 1)) := by
  unfold State.genNextTurn
  dsimp only
  split
  · refine ⟨rfl, rfl, rfl, fun _ => ?_⟩
    rw [State.st_modSt]
    rfl
  · next h =>
    obtain ⟨slot, obj, tile, -⟩ := State.entryDone_keeps (s := s) c st
    exact ⟨slot, obj, tile, fun h1 => absurd h1 h⟩

/-- Where a generated query that is admitted stands (R48, R182). -/
theorem State.genStep_holds {g : GenExp} (hctx : c < 64) (hready : g.ready = true) (hc : g.cancelled = false) (hs : (s.genNext c st g).status = none)
    (hw : s.mustWait (s.genNext c st g).qr = false) : let u := s.genStep c st g
    u.tile.rrGen = s.tile.rrGen ∧ u.o 0x4300 1 = (s.o 0x4300 1 + 1) % 2 ^ 64 ∧ (u.q s.freeSlot).place = .binned ∧ (u.q s.freeSlot).qr.kind = (s.genNext c st g).qr.kind ∧
      (u.q s.freeSlot).desc = g.s ∧ (u.q s.freeSlot).genN = g.n ∧ (g.n + 1 < g.count → (u.st c st).gen.map (fun y => y.n) = some (g.n + 1)) := by
  rw [State.genStep_admits hready hc hs hw]
  have admitted := State.admitted_holds (s := s) (r := (s.genNext c st g).qr) hctx g.s g.n (s.genNext c st g).trace (s.genNext c st g).cap 0 false
  dsimp only at admitted ⊢
  generalize s.allocate (s.genNext c st g).qr g.s g.n (s.genNext c st g).trace (s.genNext c st g).cap 0 false = a at admitted ⊢
  obtain ⟨-, count, turn, place, kind, -, desc, genN⟩ := admitted
  obtain ⟨slot, obj, tile, later⟩ := State.genNextTurn_keeps (s := a.1.insert a.2 4) (c := c) (st := st) g
  have query : ((a.1.insert a.2 4).genNextTurn c st g).q s.freeSlot = (a.1.insert a.2 4).q s.freeSlot := by
    rw [State.q, slot]
    rfl
  rw [query]
  exact ⟨(congrArg TileSt.rrGen tile).trans turn, (State.o_of_obj obj _ _).trans count, place, kind, desc, genN, later⟩

/-- In a stream whose turn it is, the generator builds the next query (R48). -/
theorem State.generate_turn {g : GenExp} (hr : s.run = true) (hst : st < 8) (hg : (s.st c st).gen = some g) (hready : g.ready = true) (hturn : (s.tile.rrGen + 1) % 512 = c * 8 + st)
    (ht : s.admitTurn c st = true) (hw : s.frontWaits c st = false) : s.generate = (s.modTile (fun t => { t with rrGen := c * 8 + st })).admission c st := by
  have hc8 : (c * 8 + st) / 8 = c := by omega
  have hs8 : (c * 8 + st) % 8 = st := by omega
  unfold State.generate
  rw [if_neg (by rw [hr]; decide)]
  dsimp only
  rw [firstIdx_some (i := 0) (by decide) (by rw [Nat.add_zero, hturn, hc8, hs8, hg]; simp only [hready, ht, hw]; rfl) fun j hj => absurd hj (Nat.not_lt_zero j)]
  dsimp only
  rw [Nat.add_zero, hturn, hc8, hs8]

theorem State.frontWaits_gen {g : GenExp} (hg : (s.st c st).gen = some g) (hready : g.ready = true) (hcan : g.cancelled = false) (hs : (s.genNext c st g).status = none)
    (hw : s.frontWaits c st = false) : s.mustWait (s.genNext c st g).qr = false := by
  unfold State.frontWaits at hw
  dsimp only at hw
  rw [hg] at hw
  dsimp only at hw
  rw [hready, hcan, hs] at hw
  simpa using hw

/-! What the turn of the generators leaves as it was. -/

theorem State.freeSlot_of {u : State} (slot : u.slot = s.slot) (lost : u.tile.lostSlots = s.tile.lostSlots) : u.freeSlot = s.freeSlot := by
  unfold State.freeSlot State.q
  rw [slot, lost]

theorem State.rrGen_freeSlot (n : Nat) : (s.modTile (fun t => { t with rrGen := n })).freeSlot = s.freeSlot := State.freeSlot_of rfl rfl

theorem State.rrGen_admitStop (n a b : Nat) : (s.modTile (fun t => { t with rrGen := n })).admitStop a b = s.admitStop a b := rfl
theorem State.rrGen_binFull (n : Nat) (r : QRec) : (s.modTile (fun t => { t with rrGen := n })).binFull r = s.binFull r := rfl
theorem State.rrGen_rbRoom (n a b d : Nat) : (s.modTile (fun t => { t with rrGen := n })).rbRoom a b d = s.rbRoom a b d := rfl
theorem State.rrGen_chargeOf (n : Nat) (r : QRec) : (s.modTile (fun t => { t with rrGen := n })).chargeOf r = s.chargeOf r := rfl
theorem State.rrGen_queriesIn (n : Nat) : (s.modTile (fun t => { t with rrGen := n })).queriesIn = s.queriesIn := rfl
theorem State.rrGen_usagePark (n a : Nat) : (s.modTile (fun t => { t with rrGen := n })).usagePark a = s.usagePark a := rfl
theorem State.rrGen_usageExt (n a : Nat) : (s.modTile (fun t => { t with rrGen := n })).usageExt a = s.usageExt a := rfl
theorem State.rrGen_unitsFree (n a b d : Nat) : (s.modTile (fun t => { t with rrGen := n })).unitsFree a b d = s.unitsFree a b d := rfl

theorem State.rrGen_mustWait (n : Nat) (r : QRec) : (s.modTile (fun t => { t with rrGen := n })).mustWait r = s.mustWait r := by
  unfold State.mustWait
  dsimp only
  rw [State.rrGen_admitStop, State.rrGen_binFull, State.rrGen_rbRoom, State.rrGen_chargeOf, State.rrGen_queriesIn, State.rrGen_usagePark, State.rrGen_usageExt, State.rrGen_unitsFree]
  rfl

theorem State.rrGen_servable (n a b d : Nat) : (s.modTile (fun t => { t with rrGen := n })).servable a b d = s.servable a b d := rfl
theorem State.rrGen_coverWalk (n c e : Nat) (r : Right) (f p : Nat) : (s.modTile (fun t => { t with rrGen := n })).coverWalk c e r f p = s.coverWalk c e r f p := by
  induction f generalizing p with
  | zero => rfl
  | succ f ih => exact congrArg (fun y => decide (e ≤ p) || ((s.reach c p r).isSome && y)) (ih _)

theorem State.rrGen_coversRange (n a b d : Nat) (e : Right) : (s.modTile (fun t => { t with rrGen := n })).coversRange a b d e = s.coversRange a b d e := State.rrGen_coverWalk _ _ _ _ _ _
theorem State.rrGen_destSlot (n a b : Nat) : (s.modTile (fun t => { t with rrGen := n })).destSlot a b = s.destSlot a b := rfl
theorem State.rrGen_hndOf (n a : Nat) : (s.modTile (fun t => { t with rrGen := n })).hndOf a = s.hndOf a := rfl
theorem State.rrGen_st (n a b : Nat) : (s.modTile (fun t => { t with rrGen := n })).st a b = s.st a b := rfl

theorem State.rrGen_bodyCheck (n a b : Nat) (r : QRec) : (s.modTile (fun t => { t with rrGen := n })).bodyCheck r a b = s.bodyCheck r a b := by
  unfold State.bodyCheck
  dsimp only
  rw [State.rrGen_coversRange, State.rrGen_coversRange, State.rrGen_destSlot, State.rrGen_hndOf]

theorem State.rrGen_genNext (n : Nat) (g : GenExp) : (s.modTile (fun t => { t with rrGen := n })).genNext c st g = s.genNext c st g := by
  unfold State.genNext
  dsimp only
  rw [State.rrGen_servable, State.rrGen_bodyCheck]

theorem State.rrGen_plainCheck (n a b v : Nat) : (s.modTile (fun t => { t with rrGen := n })).plainCheck a b v = s.plainCheck a b v := by
  unfold State.plainCheck
  dsimp only
  rw [State.rrGen_servable, State.rrGen_bodyCheck]

theorem State.rrGen_admitRank (n a b : Nat) : (s.modTile (fun t => { t with rrGen := n })).admitRank a b = s.admitRank a b := by
  unfold State.admitRank
  simp only [State.rrGen_st, State.rrGen_genNext, State.rrGen_mustWait, State.rrGen_plainCheck]
  rfl

theorem State.rrGen_admitTurn (n : Nat) : (s.modTile (fun t => { t with rrGen := n })).admitTurn c st = s.admitTurn c st := by
  unfold State.admitTurn
  simp only [State.rrGen_admitRank]
  rfl

/-! ## Fetch -/

/-- Read requests of an owner's context pass over the wire alone. -/
theorem State.fetchReads_wire {P : Nat → Purp} {addr : State → Nat → Nat} (hc : c < 64) (l : List Nat) (u : State) :
    u.Wire (l.foldl (fun v j => v.startJob (P j) c (addr v j) 64 .rd st) u) := State.Wire.foldl (.refl _) fun _ _ h => .startJob hc h

/-- The next fetch is of the next ring in turn (R181). -/
theorem State.fetch_turn (hst : st < 8) (hturn : (s.tile.rrFetch + 1) % 512 = c * 8 + st) (hf : s.fetchable c st = true) : s.fetch =
    let x := s.st c st
    let n := min (min 16 (x.tail - x.fetched).toNat) (min (16384 - x.heldEntries) (2 ^ s.ringLog c st - x.fetched.toNat % 2 ^ s.ringLog c st))
    let cnt := fun (j : Nat) => x.fetched + BitVec.ofNat 32 j
    (List.range n).foldl (fun (u : State) j =>
      u.startJob (.fetch c st x.ep (x.bellOf (cnt j)) x.fetched (cnt j)) c (u.co c (0x18 + 5 * st) + 64 * ((cnt j).toNat % 2 ^ s.ringLog c st)) 64 .rd st)
      ((s.modTile (fun t => { t with rrFetch := c * 8 + st })).modSt c st (fun x => { x with
        fetched := cnt n, inFlight := x.inFlight ++ [(x.fetched, n)], bells := x.bells.filter (fun b => cancelled (some b.1) (cnt n)) })) := by
  have hc8 : (c * 8 + st) / 8 = c := by omega
  have hs8 : (c * 8 + st) % 8 = st := by omega
  unfold State.fetch
  rw [firstIdx_some (i := 0) (by decide) (by dsimp only; rw [Nat.add_zero, hturn, hc8, hs8, hf]) fun j hj => absurd hj (Nat.not_lt_zero j)]
  dsimp only
  rw [Nat.add_zero, hturn, hc8, hs8]

theorem State.fetch_none (h : ∀ a, a < 64 → ∀ b, b < 8 → s.fetchable a b = false) : s.fetch = s := by
  have none_can : firstIdx 512 (fun i => let k := (s.tile.rrFetch + 1 + i) % 512; s.fetchable (k / 8) (k % 8)) = none :=
    List.find?_eq_none.mpr fun i _ => by rw [h _ (by omega) _ (by omega)]; decide
  unfold State.fetch
  rw [none_can]

end

/-- Settles O41: each step of the way in by its meaning where its conditions hold. -/
theorem queriesIn : Obligations.QueriesIn := by
  unfold Obligations.QueriesIn
  intro s c st e rest hr hc hst
  have next : ∀ {i} {u v : State}, exec i s = .next u.settle → u = v → exec i s = .next v.settle := fun h e => e ▸ h
  dsimp only
  refine ⟨fun hturn hf => ?_, fun h => next rfl (State.fetch_none h), fun ha hg ho he hn => ⟨fun ht y hs hx => ?_, fun ht hs hp hx => ?_, fun ht hs hp hx hen => ?_, fun hs hp hx => ?_, fun hs hp hx hen hclash => ?_⟩,
    fun ha g hg hready hturn ht hw => ?_, fun n hp hread => ?_⟩
  · have run := next (i := .fetch) rfl (State.fetch_turn hst hturn hf)
    refine ⟨run, _, run, ?_⟩
    dsimp only
    rw [State.st, (State.fetchReads_wire hc _ _).strm]
    rw [← State.st, State.st_modSt]
    exact ⟨rfl, rfl⟩
  · obtain ⟨front, hcan⟩ := StreamSt.front_current ho he hn
    exact next rfl (State.admission_unread (State.admission_open hr ha ht) hg front hs (hcan.trans hx))
  · obtain ⟨front, hcan⟩ := StreamSt.front_current ho he hn
    exact next rfl ((State.admission_plain (State.admission_open hr ha ht) hg front hs hp).trans (if_pos (hcan.trans hx)))
  · obtain ⟨front, hcan⟩ := StreamSt.front_current ho he hn
    have plain : s.admission c st = s.admitPlain c st e := by
      rw [State.admission_plain (State.admission_open hr ha ht) hg front hs hp, hcan, hx, hen]
      rfl
    refine ⟨fun hk => next rfl (plain.trans (State.admitPlain_refused (State.plainCheck_kind _ hk) (by decide))), fun hk hw => next rfl (plain.trans ((State.admitPlain_checked hk).trans (if_pos hw))), fun hk hw => ?_⟩
    have run := next (i := .admission c st) rfl (plain.trans ((State.admitPlain_checked hk).trans (if_neg (by rw [hw]; decide))))
    obtain ⟨count, holds⟩ := State.admitPlain_holds hc ho he (if (plainRec c st e.count e.data).trace then bytesAt e.data 0x30 8 else 0) (if (plainRec c st e.count e.data).trace then bytesAt e.data 8 4 else 0)
    exact ⟨run, count, _, run, holds⟩
  · obtain ⟨front, hcan⟩ := StreamSt.front_current ho he hn
    exact next rfl ((State.genBegin_front hr ha hg front hs hp).trans (if_pos (hcan.trans hx)))
  · obtain ⟨front, hcan⟩ := StreamSt.front_current ho he hn
    have start : s.genBegin c st = s.genStart c st e := by
      rw [State.genBegin_front hr ha hg front hs hp, hcan, hx, hclash, hen]
      rfl
    refine ⟨fun y hy => next rfl (start.trans ?_), fun hk h2 => next rfl (start.trans (State.genStart_network hk h2)), fun hk h1 => next rfl (start.trans (State.genStart_camera hk h1))⟩
    unfold State.genStart
    rw [hy]
  · have turn := State.generate_turn hr hst hg hready hturn ht hw
    refine ⟨congrArg (fun u => (Host.Outcome.next (State.settle u) : Out)) turn, fun hcan hs => ?_⟩
    have step : s.generate = (s.modTile (fun t => { t with rrGen := c * 8 + st })).genStep c st g :=
      turn.trans (State.admission_gen (State.admission_open hr ha ((State.rrGen_admitTurn _).trans ht)) hg)
    have holds := State.genStep_holds (s := s.modTile (fun t => { t with rrGen := c * 8 + st })) hc hready hcan ((congrArg GenNext.status (State.rrGen_genNext _ _)).trans hs)
      ((State.rrGen_mustWait _ _).trans ((congrArg (fun v : GenNext => s.mustWait v.qr) (State.rrGen_genNext _ _)).trans (State.frontWaits_gen hg hready hcan hs hw)))
    rw [State.rrGen_freeSlot, State.rrGen_genNext] at holds
    exact ⟨_, next rfl step, holds⟩
  · exact next rfl (if_pos ⟨hp, hread, State.live_of_run hr⟩)

end Sys2Proof.Machine
end

section
/-! Ripe bins, releases to Bobbins, spills, reloads and the key scheme's decisions (R189, R191 to R194, R199 to R201). -/

namespace Sys2Proof.Machine

section
variable {s : State} {i k b e : Nat} {bin : Bin}

/-! ## A query is loaded (R28, R109) -/

/-- The query of slot k stands in entry e of Bobbin b, loaded as the given number in the order, and the tile is as given. -/
structure State.Loaded (u : State) (k b e order : Nat) (tile : TileSt) : Prop where
  place : (u.q k).place = .rayStore b e
  slot : (u.ent b e).slot = some k
  order : (u.ent b e).order = order
  tile : u.tile = tile

namespace State.Loaded
variable {u : State} {n : Nat} {t : TileSt}

theorem ofStores {v : State} (h : u.Loaded k b e n t) (slot : v.slot = u.slot) (rs : v.rs = u.rs) (tile : v.tile = u.tile) : v.Loaded k b e n t := by
  obtain ⟨place, taken, order, same⟩ := h
  rw [State.q, ← slot] at place
  rw [State.ent, ← rs] at taken order
  exact ⟨place, taken, order, tile.trans same⟩

theorem oInc (i j : Nat) (h : u.Loaded k b e n t) : (u.oInc i j).Loaded k b e n t := h.ofStores (State.oInc_slot _ _ _) (State.oInc_rs _ _ _) (State.oInc_tile _ _ _)

theorem raise (l m w : Nat) (h : u.Loaded k b e n t) : (u.raise l m w).Loaded k b e n t :=
  h.ofStores (State.raise_slot _ _ _ _) (congrArg State.rs (State.raise_core _ _ _ _) :) (State.raise_tile _ _ _ _)

theorem ite {c : Prop} [Decidable c] {v : State} (hu : u.Loaded k b e n t) (hv : v.Loaded k b e n t) : (if c then u else v).Loaded k b e n t := by
  split
  · exact hu
  · exact hv

end State.Loaded

/-- The entry x is taken for the query of slot k (R192). -/
def State.taken (s : State) (k b e : Nat) (x : Entry) (n : Nat) : State :=
  { ((s.tick.2.modEnt b e (fun _ => x)).modQ k (fun q => { q with place := .rayStore b e, moved := none, plain0 := false })).modBob b
    (fun v => { v with lastNeedle := e / 512, needleStop := setFld v.needleStop (e / 512) 1 0 }) with free := n }

/-- The counts of a load, and the late load of a class-0 query (R109, R194). -/
def State.loadCounts (s : State) (b : Nat) (q : Query) (now : Nat) : State :=
  let s3 := (if q.qr.trail = 0 then s else s.oInc (0x4200 + b) 8).oInc 0x4300 3
  if q.qr.cls = 0 then
    let s4 := s3.oInc 0x4300 9
    if q.plain0 && decide (3200 < now - q.bell) then (s4.oInc 0x4300 0xB).raise 0x5400 0 (q.qr.ctx * 8 + q.qr.stream) else s4
  else s3

theorem State.ite_free (c : Prop) [Decidable c] (u : State) (m : Nat) : (if c then u else { u with free := m }) = { u with free := if c then u.free else m } := by
  split
  · rfl
  · rfl

/-- A load takes an entry of the query's own and counts. -/
theorem State.load_takes (s : State) (k b e : Nat) : ∃ x n, x.slot = some k ∧ x.order = s.order ∧ s.load k b e = (s.taken k b e x n).loadCounts b (s.q k) s.clkF := by
  unfold State.load
  dsimp only
  rw [State.ite_free]
  exact ⟨_, _, rfl, rfl, rfl⟩

theorem State.taken_loaded {x : Entry} {n : Nat} (hx : x.slot = some k) : (s.taken k b e x n).Loaded k b e x.order s.tile := by
  refine .ofStores ?_ rfl rfl rfl
  refine ⟨?_, ?_, ?_, rfl⟩
  · exact congrArg Query.place (State.q_modQ (s.tick.2.modEnt b e (fun _ => x)) k (fun q => { q with place := .rayStore b e, moved := none, plain0 := false }))
  · exact (congrArg Entry.slot (State.ent_modEnt s.tick.2 b e (fun _ => x))).trans hx
  · exact congrArg Entry.order (State.ent_modEnt s.tick.2 b e (fun _ => x))

theorem State.loadCounts_loaded {u : State} {n now : Nat} {t : TileSt} {q : Query} (h : u.Loaded k b e n t) : (u.loadCounts b q now).Loaded k b e n t := by
  have counted := (h.ite (c := q.qr.trail = 0) (h.oInc (0x4200 + b) 8)).oInc 0x4300 3
  exact .ite (.ite (.raise _ _ _ (.oInc _ _ (.oInc _ _ counted))) (.oInc _ _ counted)) counted

/-- A loaded query stands in its entry. -/
theorem State.load_loaded (s : State) (k b e : Nat) : (s.load k b e).Loaded k b e s.order s.tile := by
  obtain ⟨x, n, hx, ho, load⟩ := s.load_takes k b e
  rw [load, ← ho]
  exact State.loadCounts_loaded (State.taken_loaded hx)

/-- The counts of a load of classes 1 to 3. -/
theorem State.load_o (hc : (s.q k).qr.cls ≠ 0) (hb : b < 48) (e : Nat) : (s.load k b e).o 0x4300 3 = (s.o 0x4300 3 + 1) % 2 ^ 64 ∧ (s.load k b e).o 0x4300 4 = s.o 0x4300 4 := by
  obtain ⟨x, n, -, -, load⟩ := s.load_takes k b e
  have before : ∀ j, j < 256 → State.o (if (s.q k).qr.trail = 0 then s.taken k b e x n else (s.taken k b e x n).oInc (0x4200 + b) 8) 0x4300 j = s.o 0x4300 j := fun j hj => by
    split
    · rfl
    · exact State.oInc_o_ne _ (by omega) hj (by decide)
  rw [load, State.loadCounts, if_neg hc]
  exact ⟨(State.o_oInc_same _ _ _).trans (by rw [before 3 (by decide)]), (State.o_oSet_of (by decide)).trans (before 4 (by decide))⟩

/-! ## A batch is released (R191 to R193) -/

theorem State.findEnt_of {u : State} (rs : u.rs = s.rs) (bob : u.bob = s.bob) (held : u.o 0x2400 9 = s.o 0x2400 9) (h : Bool) : u.findEnt b h = s.findEnt b h := by
  unfold State.findEnt State.entFree State.ent State.bobOf State.cl0Reserve
  rw [rs, bob, held]

/-- The entries ks have left bin i for Bobbin b. -/
def State.batchLeft (s : State) (i b : Nat) (ks : List Nat) : State :=
  (s.unchunk ks).modBin i (fun x => { x with entries := x.entries.filter (fun k => !ks.contains k), lastBob := some b, ripe := false, waitBob := none })

/-- What the release of a batch leaves before its queries are loaded: everything but the bins. -/
theorem State.unchunk_tile (s : State) (ks : List Nat) : ∃ t : TileSt, s.unchunk ks = { s with tile := t } ∧ t.bins = s.tile.bins := by
  unfold State.unchunk
  split
  · exact ⟨s.tile, rfl, rfl⟩
  · exact ⟨_, rfl, rfl⟩

theorem State.batchLeft_holds (ks : List Nat) : ∃ t : TileSt, s.batchLeft i b ks = { s with tile := t } ∧ (tget {} t.bins i).entries = (s.binOf i).entries.filter (fun k => !ks.contains k) := by
  obtain ⟨t, unchunked, bins⟩ := s.unchunk_tile ks
  unfold State.batchLeft
  rw [unchunked]
  refine ⟨_, rfl, ?_⟩
  refine (congrArg Bin.entries (tget_tset_same _ _ _ _)).trans ?_
  rw [bins]
  rfl

/-- The query of slot k of bin i is sent to entry n of Bobbin b alone. -/
theorem State.sendBatch_one {n : Nat} (hc : (s.q k).qr.cls ≠ 0) (hb : b < 48) (he : (s.binOf i).entries = [k]) (hf : s.findEnt b false = some n) : let u := s.sendBatch i b [k]
    (u.q k).place = .rayStore b n ∧ (u.ent b n).slot = some k ∧ (u.ent b n).order = s.order ∧ (u.binOf i).entries = [] ∧
      u.o 0x4300 3 = (s.o 0x4300 3 + 1) % 2 ^ 64 ∧ u.o 0x4300 4 = (s.o 0x4300 4 + 1) % 2 ^ 64 := by
  obtain ⟨t, left, bins⟩ := State.batchLeft_holds (s := s) (i := i) (b := b) [k]
  have sent : s.sendBatch i b [k] = (({ s with tile := t } : State).load k b n).oInc 0x4300 4 := by
    unfold State.sendBatch
    dsimp only
    rw [← State.batchLeft, left, List.foldl_cons, List.foldl_nil, (State.findEnt_of (u := { s with tile := t }) rfl rfl rfl false).trans hf]
  dsimp only
  rw [sent]
  have loaded := (({ s with tile := t } : State).load_loaded k b n)
  obtain ⟨three, four⟩ := State.load_o (s := { s with tile := t }) hc hb n
  generalize ({ s with tile := t } : State).load k b n = u at loaded three four ⊢
  obtain ⟨place, slot, order, tile⟩ := loaded.oInc 0x4300 4
  refine ⟨place, slot, order, ?_, (State.o_oSet_of (by decide)).trans three, (State.o_oInc_same _ _ _).trans (by rw [four]; rfl)⟩
  rw [State.binOf, tile]
  refine bins.trans ?_
  rw [he]
  simp

/-- The one bin that there is may be released while an awake Bobbin has room. -/
theorem State.releaseBins_one (hb : s.tile.bins = [(i, bin)]) (he : bin.entries ≠ []) (hr : ∀ j ∈ bin.entries, s.releasable j = true) (hw : bin.waitBob = none) (h48 : b < 48)
    (hm : s.mayTake b = true) (hc : (s.bobOf b).clock = 0) (hf : 1 ≤ s.freeEnts b) : s.releaseBins = [(i, bin)] := by
  have awake : (s.awakeFor .any).any (fun b => s.freeEnts b != 0) = true :=
    List.any_eq_true.mpr ⟨b, List.mem_filter.mpr ⟨List.mem_filter.mpr ⟨List.mem_range.mpr h48, hm⟩, by rw [State.awake, hc]; rfl⟩, by simp; omega⟩
  obtain ⟨k, l, entries⟩ := List.exists_cons_of_ne_nil he
  have some_releasable : bin.entries.any s.releasable = true := List.any_eq_true.mpr ⟨k, entries ▸ List.mem_cons_self, hr k (entries ▸ List.mem_cons_self)⟩
  have all : (if !(s.tile.bins.filter (fun e => !e.2.entries.isEmpty && s.binRipe e)).isEmpty then s.tile.bins.filter (fun e => !e.2.entries.isEmpty && s.binRipe e)
      else if (s.awakeFor .any).any (fun b => s.freeEnts b != 0) then s.tile.bins else []) = [(i, bin)] := by
    rw [awake, hb]
    cases h : (!bin.entries.isEmpty && s.binRipe (i, bin)) <;> simp [h]
  unfold State.releaseBins
  dsimp only
  rw [all]
  simp [some_releasable, State.waitsFor, hw]

theorem State.target_last {n : Nat} (h48 : b < 48) (hm : s.mayTake b = true) (hn : n ≤ s.freeEnts b) : s.target .any (some b) n = some b := by
  have may : (s.targets .any).contains b = true := List.contains_iff_mem.mpr (List.mem_filter.mpr ⟨List.mem_range.mpr h48, hm⟩)
  unfold State.target
  dsimp only
  rw [may]
  simp [hn]

/-- Where every member passes, the longest run of passing members is the whole list. -/
theorem takeWhile_of_all {α : Type} {p : α → Bool} {l : List α} (h : ∀ x ∈ l, p x = true) : l.takeWhile p = l := by
  induction l with
  | nil => rfl
  | cons x l ih => rw [List.takeWhile_cons_of_pos (h x List.mem_cons_self), ih fun y hy => h y (List.mem_cons_of_mem _ hy)]

/-- A class that is alone shares no places. -/
theorem State.tookPlaces_one (s : State) (c n : Nat) : s.tookPlaces [c] c n = s := by
  unfold State.tookPlaces
  exact if_pos (Nat.lt_succ_self 1)

/-- The batch of the one bin that there is goes to the Bobbin that took the last one (R191, R192). -/
theorem State.release_last (hr : s.run = true) (hn : s.ncOn = true) (h0 : s.cl0First = false) (hb : s.tile.bins = [(i, bin)]) (hc : bin.cls = 1 ∨ bin.cls = 2 ∨ bin.cls = 3)
    (he : bin.entries ≠ []) (hj : ∀ j ∈ bin.entries, s.releasable j = true ∧ s.need j = .any) (hl : bin.lastBob = some b) (hw : bin.waitBob = none) (hlen : bin.entries.length ≤ s.o 0x2400 4)
    (hroom : bin.entries.length ≤ s.freeEnts b) (h48 : b < 48) (hm : s.mayTake b = true) (hclock : (s.bobOf b).clock = 0) : s.release = s.sendBatch i b bin.entries := by
  have pos : 1 ≤ bin.entries.length := List.length_pos_iff.mpr he
  have bins := State.releaseBins_one hb he (fun j h => (hj j h).1) hw h48 hm hclock (by omega)
  have cls : ([1, 2, 3] : List Nat).filter (fun c => ([(i, bin)] : List (Nat × Bin)).any (fun e => e.2.cls == c)) = [bin.cls] := by
    obtain h | h | h := hc <;> simp [h]
  have mine : bin.entries.filter s.releasable = bin.entries := List.filter_eq_self.mpr fun j h => (hj j h).1
  have need : s.need (bin.entries.headD 0) = .any := by
    obtain ⟨k, l, entries⟩ := List.exists_cons_of_ne_nil he
    rw [entries]
    exact (hj k (entries ▸ List.mem_cons_self)).2
  have run : bin.entries.takeWhile (fun k => s.need k == .any) = bin.entries := takeWhile_of_all fun j h => by rw [(hj j h).2]; rfl
  unfold State.release
  rw [if_neg (by rw [hr, hn, h0]; decide)]
  dsimp only
  rw [bins, cls]
  simp only [State.nextClass, List.foldl_cons, List.foldl_nil, List.filter_cons, List.filter_nil, beq_self_eq_true, if_true]
  rw [mine, need, run, List.take_of_length_le hlen, if_neg (by simp)]
  simp only [State.waitsFor, hw, hl, Option.filter_none, State.target_last h48 hm hroom, if_pos hclock]
  rw [List.take_of_length_le hroom, if_neg (by simpa using he)]
  exact State.tookPlaces_one _ _ _

/-! ## Class 0 (R194) -/

theorem State.cl0Release_taken {held : Bool} {n : Nat} (hr : s.run = true) (hn : s.ncOn = true) (hh : s.cl0Head = some k) (hneed : s.need k = .any) (ht : s.cl0Target .any = some (b, held))
    (hf : s.findEnt b held = some n) : s.cl0Release = (s.modTile (fun t => { t with cl0 := t.cl0.filter (fun j => j != k) })).load k b n := by
  have load : s.cl0Load = ((s.modTile (fun t => { t with cl0 := t.cl0.filter (fun j => j != k) })).load k b n, true) := by
    unfold State.cl0Load
    rw [hh]
    dsimp only
    rw [if_neg (by rw [hr, hn]; decide), hneed, if_neg (by simp), ht]
    dsimp only
    rw [hf]
  rw [State.cl0Release, load]

/-! ## Spill and reload (R199 to R201) -/

/-- The one bin that there is gives up its oldest half of chunks. -/
theorem State.spill_one {c : Nat} (hr : s.run = true) (hb : s.tile.bins = [(i, bin)]) (hi : i < 131072) (h2 : 2 ≤ bin.chunks) (ho : s.occAtLeast (s.o 0x2400 0xB) = true)
    (hctx : ∀ j ∈ bin.entries.take (bin.chunks / 2 * 128), (s.q j).qr.ctx = c) (hroom : s.spillRoom c = true) : s.spill =
    (bin.entries.take (bin.chunks / 2 * 128)).foldl (fun (u : State) j => if u.spillRoom (u.q j).qr.ctx then (u.spillWhole (bin.entries.take (bin.chunks / 2 * 128)) j).spillOne j else u)
      (s.modTile (fun t => { t with spilling := true })) := by
  have all : (bin.entries.take (bin.chunks / 2 * 128)).filter (fun k => s.spillRoom (s.q k).qr.ctx) = bin.entries.take (bin.chunks / 2 * 128) :=
    List.filter_eq_self.mpr fun j h => by rw [hctx j h, hroom]
  have some_left : (bin.entries.take (bin.chunks / 2 * 128)).isEmpty = false := by
    have long : 2 ≤ (bin.entries.length + 127) / 128 := h2
    have taken : 0 < (bin.entries.take (bin.chunks / 2 * 128)).length := by
      rw [List.length_take]
      omega
    exact List.isEmpty_eq_false_iff.mpr (List.length_pos_iff.mp taken)
  unfold State.spill
  dsimp only
  rw [hr, ho, if_neg (by simp), hb]
  simp [all, some_left, hi, h2]

theorem State.spill_rests (ho : s.occAtLeast (s.o 0x2400 0xB) = false) (hs : s.tile.spilling = false) : s.spill = s.modTile (fun t => { t with spilling := false }) := by
  unfold State.spill
  dsimp only
  rw [ho, hs]
  exact if_pos (by simp)

/-- The oldest entry of the one context that has spilled ones is read back (R200). -/
theorem State.reload_first {c : Nat} (hr : s.run = true) (hc : c < 64) (hd : ∀ d, d < 64 → d ≠ c → (s.ctxOf d).spill = []) (hk : (s.ctxOf c).spill.head? = some k) (hl : (s.ctxOf c).reloading = false)
    (hu : s.spillUrgent c = false) (ho : s.occAtLeast (s.o 0x2400 0xD) = false) : s.reload =
    (s.modCtx c (fun x => { x with reloading := true })).startJob (.spillRd c k (s.q k).uid) c (s.spillAddr c (s.q k).spillAt) 16 .rw noWhat := by
  have calm : ∀ d, d < 64 → s.spillUrgent d = false := fun d h => by
    by_cases e : d = c
    · rw [e, hu]
    · rw [State.spillUrgent, hd d h e]
      simp
  have urgent : firstIdx 64 (fun d => !(s.ctxOf d).reloading && s.spillUrgent d) = none :=
    List.find?_eq_none.mpr fun d h => by rw [calm d (List.mem_range.mp h)]; simp
  have mine : (s.ctxOf c).spill.isEmpty = false := by
    cases h : (s.ctxOf c).spill with
    | nil => rw [h] at hk; cases hk
    | cons x l => rfl
  have first : firstIdx 64 (fun d => !(s.ctxOf d).spill.isEmpty) = some c :=
    firstIdx_some hc (by rw [mine]; rfl) fun d h => by rw [hd d (by omega) (by omega)]; rfl
  unfold State.reload
  dsimp only
  rw [urgent, first]
  dsimp only
  rw [if_pos ⟨hr, by rw [hl]; rfl, by rw [ho]; rfl⟩, List.headD_eq_head?_getD, hk]
  rfl

/-! ## The key scheme (R189) -/

/-- The end of an interval with accesses, under a scheme that follows the hit ratio. -/
theorem State.interval_latches (h : 65536 ≤ s.tile.sinceInterval) (ho : s.o 0x2400 1 ≠ 1) (hl : s.tile.latched = none)
    (ha : s.ncTotals.1 - s.tile.hits0 + (s.ncTotals.2 - s.tile.misses0) ≠ 0) : s.interval =
    (s.modTile (fun x => { x with sinceInterval := x.sinceInterval - 65536, hits0 := s.ncTotals.1, misses0 := s.ncTotals.2 })).modTile
      (fun x => { x with latched := some ((s.ncTotals.1 - s.tile.hits0) * 65536 / ((s.ncTotals.1 - s.tile.hits0) + (s.ncTotals.2 - s.tile.misses0))) }) := by
  unfold State.interval
  rw [if_neg (by omega)]
  dsimp only
  rw [if_neg ha, if_neg ha, if_neg ho, hl]
  rfl

/-- What a decision leaves (R189). -/
theorem State.schemeDecision_holds {h : Nat} (hl : s.tile.latched = some h) : let t := s.schemeDecision
    t.tile.latched = none ∧ t.tile.decisions = s.tile.decisions + 1 ∧ t.o 0x4300 0x12 = min t.tile.hBest 65535 ∧
      (s.tile.trial = none → t.tile.hBest = h ∧ t.tile.best = some (s.tile.best.getD (s.o 0x2400 2))) ∧
      (∀ tr, s.tile.trial = some tr → s.tile.hBest + 1024 < h → t.tile.hBest = h ∧ t.tile.best = some tr) ∧
      (∀ tr, s.tile.trial = some tr → h ≤ s.tile.hBest + 1024 → t.tile.hBest = s.tile.hBest ∧ t.tile.best = some (s.tile.best.getD (s.o 0x2400 2))) ∧
      ((s.tile.decisions + 2) % 16 ≠ 0 → t.tile.trial = none) := by
  unfold State.schemeDecision
  rw [hl]
  dsimp only
  cases ht : s.tile.trial with
  | none => exact ⟨rfl, rfl, State.o_oSet_same _ _ _ _, fun _ => ⟨rfl, rfl⟩, nofun, nofun, fun hn => if_neg hn⟩
  | some tr =>
    by_cases hh : s.tile.hBest + 1024 < h
    · dsimp only
      rw [if_pos hh]
      exact ⟨rfl, rfl, State.o_oSet_same _ _ _ _, nofun, fun x hx _ => Option.some.inj hx ▸ ⟨rfl, rfl⟩, fun _ _ _ => by omega, fun hn => if_neg hn⟩
    · dsimp only
      rw [if_neg hh]
      exact ⟨rfl, rfl, State.o_oSet_same _ _ _ _, nofun, fun _ _ _ => by omega, fun _ _ _ => ⟨rfl, rfl⟩, fun hn => if_neg hn⟩

end

/-- Settles O42: each step of the way out by its meaning where its conditions hold. -/
theorem queriesOut : Obligations.QueriesOut := by
  unfold Obligations.QueriesOut
  intro s i k b bin hr hn
  dsimp only
  have next : ∀ {i} {u v : State}, exec i s = .next u.settle → u = v → exec i s = .next v.settle := fun h e => e ▸ h
  refine ⟨fun hi he => ?_, fun h0 hb hc he hj hl hw hlen hroom h48 hm hclock => ?_, fun h0 hb hc he hrel hneed hl hw hcls hlen hroom h48 hm hclock n hf => ?_, fun hb => next rfl ?_, fun hh hneed held n ht hf => ?_,
    fun hb hi h2 ho hctx hroom => next rfl (State.spill_one hr hb hi h2 ho hctx hroom), fun ho hs => next rfl (State.spill_rests ho hs),
    fun hc hd hk hl hu ho => next rfl (State.reload_first hr hc hd hk hl hu ho), fun h ho hl hlt hh hm => ⟨_, congrArg Host.Outcome.next (State.interval_latches h ho hl (by omega)), rfl, rfl⟩,
    fun h => congrArg Host.Outcome.next (if_pos h), fun h hl => ⟨_, rfl, State.schemeDecision_holds hl⟩⟩
  · refine congrArg Host.Outcome.next (if_neg fun h => ?_)
    obtain h | h := h
    · exact he (List.isEmpty_iff.mp h)
    · omega
  · exact next rfl (State.release_last hr hn h0 hb hc he hj hl hw hlen hroom h48 hm hclock)
  · have entries : bin.entries ≠ [] := by simp [he]
    have each : ∀ j ∈ bin.entries, s.releasable j = true ∧ s.need j = .any := fun j h => by
      rw [he, List.mem_singleton] at h
      rw [h]
      exact ⟨hrel, hneed⟩
    have one : bin.entries.length = 1 := by rw [he]; rfl
    have run := next (i := .release) rfl (State.release_last hr hn h0 hb hc entries each hl hw (by omega) (by omega) h48 hm hclock)
    rw [he] at run
    have mine : (s.binOf i).entries = [k] := by
      rw [State.binOf, hb, ← he]
      simp [tget]
    exact ⟨_, run, State.sendBatch_one (by omega) h48 mine hf⟩
  · unfold State.release
    split
    · rfl
    · simp [State.releaseBins, hb, State.nextClass]
  · have run := next (i := .cl0Release) rfl (State.cl0Release_taken hr hn hh hneed ht hf)
    obtain ⟨place, slot, -, tile⟩ := State.load_loaded (s.modTile (fun t => { t with cl0 := t.cl0.filter (fun j => j != k) })) k b n
    refine ⟨run, _, run, place, slot, ?_⟩
    rw [tile]
    exact Bool.eq_false_iff.mpr fun h => by simpa using List.mem_filter.mp (List.contains_iff_mem.mp h)

end Sys2Proof.Machine
end

section
/-! What the Needles of a Bobbin do with the item picked, and the units that take their handoffs (R103, R106, R120, R140, R179, R208, R369 to R371). -/

namespace Sys2Proof.Machine

section
variable {s s1 : State} {b n e v : Nat} {it : Item}

/-! ## Operations and their self-checks (R369 to R371) -/

theorem State.needleOp_picked {ty : Nat → Bool} {apply : State → Nat → Nat → State} {chk : Chk} {kind : Nat} (hp : s.pick b n = (s1, some (e, v))) (hi : (s1.ent b e).item = some it) (ht : ty it.ty = true) :
    s.needleOp b n chk kind ty apply = s1.storeError chk b e (fun s => s.checked chk b kind n (fun s => apply s e v)) := by
  unfold State.needleOp State.pickOf
  rw [hp]
  dsimp only
  rw [hi]
  dsimp only
  rw [ht]
  rfl

theorem State.needleOp_other {ty : Nat → Bool} {apply : State → Nat → Nat → State} {chk : Chk} {kind : Nat} (hp : s.pick b n = (s1, some (e, v))) (hi : (s1.ent b e).item = some it) (ht : ty it.ty = false) :
    s.needleOp b n chk kind ty apply = s1 := by
  unfold State.needleOp State.pickOf
  rw [hp]
  dsimp only
  rw [hi]
  dsimp only
  rw [ht]
  rfl

theorem State.needleOp_none {ty : Nat → Bool} {apply : State → Nat → Nat → State} {chk : Chk} {kind : Nat} (hp : s.pick b n = (s1, none)) : s.needleOp b n chk kind ty apply = s1 := by
  unfold State.needleOp State.pickOf
  rw [hp]

/-- What an operation of a unit does that takes queued handoffs. -/
theorem State.unitOp_next {unit kind : Nat} {chk : Chk} {apply : State → State} (hb : b < 48) (hr : s.bobRuns b = true) (hn : (s.queueOf b unit).find? (fun e => !s.stillWaits b (s.ent b e)) = some e) :
    s.unitOp b unit chk kind apply = s.storeError chk b e (fun s => (if unit = 2 then s.recomputed b e chk else s).checked chk b kind 0 apply) := by
  unfold State.unitOp
  rw [if_pos (by rw [hr, decide_eq_true hb]; rfl), hn]

theorem State.unitOp_empty {unit kind : Nat} {chk : Chk} {apply : State → State} (hq : s.queueOf b unit = []) : s.unitOp b unit chk kind apply = s := by
  unfold State.unitOp
  rw [hq]
  simp

/-! ## Visits and handoffs (R103, R106, R140) -/

/-- A box whose format does not hold ends the query (R106). -/
theorem State.visitBox_format (hi : (s.ent b e).item = some it) (hok : boxOk (s.hndOf (s.ent b e).qr.handle) v = false) : let u := s.visitBox b e v
    (u.ent b e).phase = 3 ∧ (u.ent b e).status = some stFormat ∧ u.o (0x4200 + b) 1 = (s.o (0x4200 + b) 1 + 1) % 2 ^ 64 := by
  have failed : s.visitBox b e v = ((s.modEnt b e (fun x => { x with ops := x.ops + 1 })).oInc (0x4200 + b) 1).failEntry b e stFormat := by
    unfold State.visitBox
    dsimp only
    rw [hi]
    dsimp only
    rw [hok]
    rfl
  rw [failed]
  unfold State.failEntry
  dsimp only
  rw [State.ent_modEnt, State.modEnt_o, State.o_oInc_same]
  exact ⟨rfl, rfl, rfl⟩

/-- Everything but the registers. -/
theorem State.began_regs (s : State) (k l : Nat) : ∃ o, s.began k l = { s with obj := o } := by
  unfold State.began
  split
  · exact ⟨_, rfl⟩
  · exact ⟨_, rfl⟩

/-- The handoff of the item of an entry. -/
def Entry.taken (x : Entry) (it : Item) (order v : Nat) (loc : Loc) : Handoff := { unit := leafUnit it.ty, order := order, step := x.firstPrim, hold := x.leafHold it.ty v, loc := loc }

/-- The counters of cycles that a handoff of this type begins. -/
def State.handoffBegan (s : State) (b ty : Nat) : State := (if ty = 8 then s.began (0x4280 + b) 6 else if ty = 0xA then s.began (0x4240 + b) 6 else s).began (0x42C0 + b) 8

theorem State.handoffBegan_regs (s : State) (b ty : Nat) : ∃ o, s.handoffBegan b ty = { s with obj := o } := by
  unfold State.handoffBegan
  split
  · obtain ⟨o, h⟩ := s.began_regs (0x4280 + b) 6
    rw [h]
    exact State.began_regs _ _ _
  · split
    · obtain ⟨o, h⟩ := s.began_regs (0x4240 + b) 6
      rw [h]
      exact State.began_regs _ _ _
    · exact State.began_regs _ _ _

theorem State.handoffBegan_o (s : State) (b ty : Nat) : (s.handoffBegan b ty).o (0x4200 + b) 2 = s.o (0x4200 + b) 2 := by
  have other : ∀ k l, l < 256 → k ≠ 0x4200 + b → okey (0x4200 + b) 2 ≠ okey k l := fun k l hl hk => by
    unfold okey
    omega
  unfold State.handoffBegan
  refine (State.began_o _ (other _ _ (by decide) (by omega))).trans ?_
  split
  · exact State.began_o _ (other _ _ (by decide) (by omega))
  · split
    · exact State.began_o _ (other _ _ (by decide) (by omega))
    · rfl

/-- An entry with its new handoff. -/
def Entry.handed (y : Entry) (pq : Option Nat) (h : Handoff) : Entry := { y with ops := y.ops + 1, pqSlot := pq, pqWait := false, op := some h }

/-- A handoff is issued, where the registers are as given. -/
def State.handed (s : State) (b e : Nat) (o : Tbl Nat) (pq : Option Nat) (h : Handoff) : State := (({ s with obj := o } : State).tick.2.modEnt b e (fun y => y.handed pq h)).oInc (0x4200 + b) 2

theorem State.handoff_handed (hi : (s.ent b e).item = some it) {o : Tbl Nat} (began : s.handoffBegan b it.ty = { s with obj := o }) :
    ∃ pq, s.handoff b e v = s.handed b e o pq ((s.ent b e).taken it s.order v (s.startLoc (s.ent b e))) := by
  unfold State.handoff
  dsimp only
  rw [hi]
  dsimp only
  rw [← State.handoffBegan, began]
  exact ⟨_, rfl⟩

/-- A handoff is issued for the item (R103). -/
theorem State.handoff_issues (hi : (s.ent b e).item = some it) : let u := s.handoff b e v
    (u.ent b e).op = some ((s.ent b e).taken it s.order v (s.startLoc (s.ent b e))) ∧ (u.ent b e).item = some it ∧ u.o (0x4200 + b) 2 = (s.o (0x4200 + b) 2 + 1) % 2 ^ 64 ∧ u.slot = s.slot := by
  obtain ⟨o, began⟩ := s.handoffBegan_regs b it.ty
  have count := s.handoffBegan_o b it.ty
  obtain ⟨pq, issued⟩ := State.handoff_handed (v := v) hi began
  rw [began] at count
  dsimp only
  rw [issued]
  generalize (s.ent b e).taken it s.order v (s.startLoc (s.ent b e)) = h
  have entry : (s.handed b e o pq h).ent b e = (s.ent b e).handed pq h := State.ent_modEnt ({ s with obj := o } : State).tick.2 b e (fun y => y.handed pq h)
  rw [entry]
  exact ⟨rfl, hi, (State.o_oInc_same _ _ _).trans (congrArg (fun m => (m + 1) % 2 ^ 64) count), rfl⟩

theorem State.netTaken_other (hi : (s.ent b e).item = some it) (ht : it.ty ≠ 8) : s.netTaken b e = s := by
  unfold State.netTaken
  rw [hi]
  exact if_neg ht

/-! ## The Baste engines (R208) -/

/-- The lowest free engine takes the first handoff of the queue. -/
theorem State.basteHandoff_free {g : Nat} (hb : b < 48) (hr : s.bobRuns b = true) (hfree : ∀ g, g < 4 → (s.engOf b g).ent = none) (himg : s.tile.imgStep = 0) (hg : g < 4) (hon : s.engineOff b g = false)
    (hlow : ∀ i, i < g → s.engineOff b i = true) : (∀ rest, s.queueOf b 3 = e :: rest → s.basteHandoff b = s.bstTake b g e) ∧ (s.queueOf b 3 = [] → s.basteHandoff b = s) := by
  have idle : (List.range 4).filter (fun g => (s.engOf b g).ent.isSome && (s.engOf b g).kind == 0) = [] :=
    List.filter_eq_nil_iff.mpr fun g h => by rw [hfree g (List.mem_range.mp h)]; simp
  have lowest : firstIdx 4 (fun g => (s.engOf b g).ent.isNone && !s.engineOff b g) = some g :=
    firstIdx_some hg (by rw [hfree g hg, hon]; rfl) fun i h => by rw [hlow i h]; simp
  refine ⟨fun rest hq => ?_, fun hq => ?_⟩ <;>
  · unfold State.basteHandoff
    rw [if_pos ⟨hb, hr⟩, idle, State.basteHandoff.goOn]
    dsimp only
    rw [if_neg (by simp [himg]), lowest, hq]

end

/-- Settles O44: what a Needle's pick, a unit's queue and the self-check lead to. -/
theorem needleOperations : Obligations.NeedleOperations := by
  unfold Obligations.NeedleOperations
  intro s s1 b n e v it
  dsimp only
  have next : ∀ {i} {u v : State}, exec i s = .next u.settle → u = v → exec i s = .next v.settle := fun h e => e ▸ h
  refine ⟨fun hp hi => ⟨fun ht => ?_, fun ht => ?_, ⟨fun ht => ?_, fun ht => ?_⟩, fun ht => ?_, fun ht => ?_⟩, fun hp => ?_, fun hb hr => ⟨⟨fun hn => ?_, fun hn ha => ?_⟩, fun hq => ?_, fun hq => ?_, fun hf himg g hg hon hlow => ?_⟩⟩
  · have visit := next (i := .boxVisit b n .ok) rfl (State.needleOp_picked hp hi (by rw [ht]; rfl))
    refine ⟨visit, next (i := .boxVisit b n .twice) rfl (State.needleOp_picked hp hi (by rw [ht]; rfl)), fun hok => ⟨_, visit, State.visitBox_format hi hok⟩⟩
  · exact ⟨next (i := .instanceVisit b n .ok) rfl (State.needleOp_picked hp hi (by rw [ht]; rfl)), next (i := .instanceVisit b n .twice) rfl (State.needleOp_picked hp hi (by rw [ht]; rfl))⟩
  · have handed : exec (.leafHandoff b n .ok) s = .next ((s1.handoff b e v).netTaken b e).settle := next rfl (State.needleOp_picked hp hi ht)
    refine ⟨next (i := .leafHandoff b n .twice) rfl (State.needleOp_picked hp hi ht), handed, fun h8 => ⟨_, handed, ?_⟩⟩
    obtain ⟨op, item, count, -⟩ := State.handoff_issues (v := v) hi
    rw [State.netTaken_other item h8]
    exact ⟨op, item, count⟩
  · obtain ⟨op, -, -, slot⟩ := State.handoff_issues (v := v) hi
    exact ⟨next (i := .metricVisit b n .twice) rfl (State.needleOp_picked hp hi (by rw [ht]; rfl)), _, next (i := .metricVisit b n .ok) rfl (State.needleOp_picked hp hi (by rw [ht]; rfl)), op, slot⟩
  · exact next rfl (State.needleOp_other hp hi (beq_false_of_ne ht))
  · exact next rfl (State.needleOp_other hp hi (beq_false_of_ne ht))
  · exact ⟨next rfl (State.needleOp_none hp), next rfl (State.needleOp_none hp), next rfl (State.needleOp_none hp), next rfl (State.needleOp_none hp)⟩
  · exact ⟨next (i := .intersectorResult b .ok) rfl ((State.unitOp_next hb hr hn).trans (if_pos ⟨hb, hr⟩)), next (i := .intersectorResult b .twice) rfl (State.unitOp_next hb hr hn)⟩
  · exact ⟨next (i := .leafArrayResult b .ok) rfl ((State.unitOp_next hb hr hn).trans (if_pos ⟨hb, hr, ha⟩)), next (i := .leafArrayResult b .twice) rfl (State.unitOp_next hb hr hn)⟩
  · exact next rfl (State.unitOp_empty hq)
  · exact next rfl (State.unitOp_empty hq)
  · obtain ⟨take, none⟩ := State.basteHandoff_free (e := e) hb hr hf himg hg hon hlow
    exact ⟨fun rest hq => next rfl (take rest hq), fun hq => next rfl (none hq)⟩

end Sys2Proof.Machine
end

section
/-! Ray-store entries that leave, fills that end and banks that change role (R118, R119, R173, R174, R197, R249, R362, R374, R391). -/

namespace Sys2Proof.Machine

section
variable {s : State} {b e k bank : Nat} {w : WSlot}

/-! ## The finishing walk (R118, R119) -/

/-- The entry of a finishing walk that starts. -/
def Entry.finishing (y : Entry) (q : Query) : Entry :=
  { y with phase := 2, qr := { y.qr with trail := if q.fin.isSome ∨ q.served.isSome then (if y.qr.trail = trailFinishing then 0 else y.qr.trail) else 0 },
           tlo := q.finLims.1, thi := q.finLims.2, collected := q.fin.getD [], stack := [], dropped := false }

theorem State.finishingWalk_starts (hb : b < 48) (hr : s.run = true) (hn : s.ncOn = true) (hc : s.bobRuns b = true) (hs : (s.ent b e).slot = some k) (ho : (s.ent b e).op = none) (hk : (s.q k).kill = none)
    (hp : (s.ent b e).phase = 1) (hf : ((s.needleList b (e / 512)).filter (fun y => y.2.phase == 1)).head?.map (fun y => y.1) = some e) (hi : s.inService b = true)
    (hu : s.finUse b (e / 512) + (s.ent b e).qr.finK ≤ 256) (ha : (s.ctxOf (s.ent b e).qr.ctx).aborting = false) : s.finishingWalk b e =
    (((s.modEnt b e (fun y => y.finishing (s.q k))).modQ k (fun q => { q with fin := none })).setItem b e (s.rootItem k)).oInc (0x4200 + b) 6 := by
  unfold State.finishingWalk
  dsimp only
  rw [hs]
  dsimp only
  rw [if_pos ⟨hb, hr, hn, hc, hp, ho, hf, hi, hu, hk, by rw [ha]; rfl⟩]
  rfl

/-- A finishing walk starts from the root with its limits. -/
theorem State.finishing_holds (it : Item) : let u := (((s.modEnt b e (fun y => y.finishing (s.q k))).modQ k (fun q => { q with fin := none })).setItem b e it).oInc (0x4200 + b) 6
    (u.ent b e).phase = 2 ∧ (u.ent b e).item = some it ∧ ((u.ent b e).tlo, (u.ent b e).thi) = (s.q k).finLims ∧ (u.ent b e).stack = [] ∧ u.o (0x4200 + b) 6 = (s.o (0x4200 + b) 6 + 1) % 2 ^ 64 := by
  have walking : ((s.modEnt b e (fun y => y.finishing (s.q k))).modQ k (fun q => { q with fin := none })).ent b e = (s.ent b e).finishing (s.q k) := s.ent_modEnt b e (fun y => y.finishing (s.q k))
  have count : (((s.modEnt b e (fun y => y.finishing (s.q k))).modQ k (fun q => { q with fin := none })).setItem b e it).o (0x4200 + b) 6 = s.o (0x4200 + b) 6 := by
    rw [State.setItem, State.modEnt_o, State.modQ_o, State.modEnt_o]
  generalize ((s.modEnt b e (fun y => y.finishing (s.q k))).modQ k (fun q => { q with fin := none })) = t at walking count ⊢
  dsimp only
  rw [State.o_oInc_same, count, State.ent, State.oInc_rs, ← State.ent, State.setItem, State.ent_modEnt, walking]
  exact ⟨rfl, rfl, rfl, rfl, rfl⟩

/-! ## Parking and reverting (R197, R249, R374, R391) -/

theorem State.awake_of_runs (h : s.bobRuns b = true) : s.awake b = true := by
  unfold State.bobRuns at h
  simp only [Bool.and_eq_true] at h
  exact h.1.2

/-- A query of a Bobbin that drains, or that is asked to, parks. -/
theorem State.queryPark_due (bad : Bool) (hb : b < 48) (hr : s.run = true) (hc : s.bobRuns b = true) (hs : (s.ent b e).slot = some k) (ho : (s.ent b e).op = none) (hk : (s.q k).kill = none)
    (h3 : (s.ent b e).phase ≠ 3) (h4 : (s.ent b e).phase ≠ 4) (hw : (s.ent b e).wantsArray = false ∨ s.arrayOk b = true) (due : (s.bobOf b).drain = true ∨ (s.ent b e).parkAsked = true) :
    s.queryPark b e bad = if bad then s.entError b e
      else if !s.releaseFits b e then (s.modEnt b e (fun y => { y with relWait := true })).rbStop (s.ent b e).qr.ctx (s.ent b e).qr.stream
      else
        let s4 := (s.parkBack b e (s.ent b e).parkTrail ((s.ent b e).parkNext (s.q k).nextItem)).insert k 1
        if (s.ent b e).parkAsked then (s4.oInc 0x4300 0x0A).cl0Into b e else if s.budgetDue (s.ent b e) then s4.oInc 0x4300 0x0C else s4 := by
  have here : ((s.ent b e).wantsArray && s.inService b && !s.arrayOk b) = false := by
    obtain h | h := hw
    · rw [h]; rfl
    · rw [h]; simp
  have mayPark : ((s.bobOf b).drain || (s.ent b e).parkAsked || (s.ent b e).relWait || s.budgetDue (s.ent b e)) = true := by
    obtain h | h := due
    · rw [h]; rfl
    · rw [h]; simp
  unfold State.queryPark
  dsimp only
  rw [hs]
  dsimp only
  rw [if_neg (by rw [hr, State.awake_of_runs hc, decide_eq_true hb, ho, hk]; simpa using h3), here, mayPark]
  have parks : (if ((s.bobOf b).wd || false || !s.ncOn) = true then (true, s) else if ((s.ent b e).phase == 4) = true then (false, s) else if (true : Bool) = true then (true, s) else s.pendDue b e) = (true, s) := by
    rw [if_neg (fun h => h4 (beq_iff_eq.mp h)), if_pos rfl, ite_self]
  rw [parks]
  simp only [Bool.not_true, Bool.false_eq_true, if_false, false_and]

theorem State.revert_due (hb : b < 48) (hr : s.run = true) (hs : (s.ent b e).slot = some k) (ho : (s.ent b e).op = none) :
    s.revert b e = if s.releaseFits b e = false then (s.oInc 0x7020 0x0B).recoverEnt b e else s := by
  unfold State.revert
  dsimp only
  rw [hs]
  simp [hb, hr, ho]

/-- The entry that a write-back names, and whether it finds it uncorrectable (R374). -/
theorem park_cmd (he : e < 8192) : exec (.queryPark b e) s = .next (s.queryPark b e false).settle := by
  show (Host.Outcome.next (s.queryPark b (e % 8192) (decide (8192 ≤ e))).settle : Out) = _
  rw [Nat.mod_eq_of_lt he, decide_eq_false (by omega)]

theorem park_bad (he : e < 8192) : exec (.queryPark b (e + 8192)) s = .next (s.queryPark b e true).settle := by
  show (Host.Outcome.next (s.queryPark b ((e + 8192) % 8192) (decide (8192 ≤ e + 8192))).settle : Out) = _
  rw [Nat.add_mod_right, Nat.mod_eq_of_lt he, decide_eq_true (by omega)]

/-! ## A query that has ended (R58, R59) -/

/-- The query of an entry has left it, with what it had pending released. -/
def State.ended (s : State) (b e k : Nat) : State :=
  ((s.modQ k (fun q => { q with qr := (s.ent b e).qr, remoteHit := if (s.ent b e).best.isSome && !(s.ent b e).remoteForm then {} else q.remoteHit })).releaseOut k (s.ent b e).pend (s.ent b e).samples).leave b e

theorem State.completion_waits (hb : b < 48) (hr : s.run = true) (hc : s.bobRuns b = true) (hs : (s.ent b e).slot = some k) (ho : (s.ent b e).op = none) (hp : (s.ent b e).phase = 3) (hf : s.releaseFits b e = false) :
    s.completion b e = s.rbStop (s.ent b e).qr.ctx (s.ent b e).qr.stream := by
  unfold State.completion
  dsimp only
  rw [hs]
  dsimp only
  rw [if_neg (by rw [hr, State.awake_of_runs hc, decide_eq_true hb, ho, hp]; decide), if_pos (by rw [hf]; rfl)]

theorem State.completion_ends (hb : b < 48) (hr : s.run = true) (hc : s.bobRuns b = true) (hs : (s.ent b e).slot = some k) (ho : (s.ent b e).op = none) (hp : (s.ent b e).phase = 3) (hf : s.releaseFits b e = true) :
    let s2 := s.ended b e k
    (∀ y, (s.ent b e).status = some y → s.completion b e = s2.endSlot k y) ∧
    ((s.ent b e).status = none → (s2.q k).served = none →
      let d := s2.openVal (s2.q k).qr.ctx (s2.openKey (s2.q k).qr (s2.q k).body0 (s2.q k).desc (s2.q k).genN 256)
      let fr := d.2.finalRecs (s.ent b e) k d.1 ((s2.q k).qr.trace && decide ((s2.q k).traceCap ≤ (s2.q k).traceWritten))
      s.completion b e = (d.2.traceFlags k (s.ent b e).hits).toHem k fr.2 fr.1) ∧
    ((s.ent b e).status = none → ∀ sv, (s2.q k).served = some sv → s.completion b e = s2.answerDone (s.ent b e) k sv) := by
  dsimp only
  unfold State.completion
  dsimp only
  rw [hs]
  dsimp only
  rw [if_neg (by rw [hr, State.awake_of_runs hc, decide_eq_true hb, ho, hp]; decide), if_neg (by rw [hf]; decide), ← State.ended]
  refine ⟨fun y hy => ?_, fun hy hsv => ?_, fun hy sv hsv => ?_⟩
  · rw [hy]
  · rw [hy, hsv]
  · rw [hy, hsv]

/-! ## Weight fills and banks (R173, R174) -/

theorem State.modBob_congr {u : State} {f g : BobSt → BobSt} (h : f (u.bobOf b) = g (u.bobOf b)) : u.modBob b f = u.modBob b g := by
  unfold State.modBob tmod
  rw [← State.bobOf, h]

/-- The one slot of a Bobbin is replaced. -/
theorem State.put_one {u : State} (z : WSlot) (h : (u.bobOf b).wslots = [w]) : State.weightFill.put b w z u = u.modBob b (fun y => { y with wslots := [z] }) := by
  refine State.modBob_congr ?_
  rw [h, List.map_cons, List.map_nil, if_pos rfl]

theorem State.weightFill_one (hb : b < 48) (hc : s.bobRuns b = true) (h1 : (s.bobOf b).wslots = [w]) (hw : w.ready = false) : s.weightFill b = State.weightFill.go b [w] s := by
  unfold State.weightFill
  rw [if_pos ⟨hb, hc⟩, h1, List.filter_cons_of_pos (by rw [hw]; rfl), List.filter_nil]

theorem State.bankPending_one (hb : b < 48) (hc : s.bobRuns b = true) (ho : s.occupants b = [(e, s.ent b e)]) (hop : (s.ent b e).op = none) (hw : (s.ent b e).pqWait = true) (hq : (s.bobOf b).pqBanks = 1)
    (hd : (s.bobOf b).pendBanks = 0) : s.bankPending b = s.modBob b (fun v => { v with pendBanks := v.pendBanks + 2 ^ 1 }) := by
  have slot : s.slotOf b (s.ent b e) = none := by
    unfold State.slotOf
    rw [hop]
  unfold State.bankPending
  rw [if_pos ⟨hb, hc⟩, ho]
  simp [hop, hw, hq, hd, slot, bit]

/-- A fill of which the header is missing waits. -/
theorem State.fill_waits {s1 : State} (hr : s.ncRead b w.ctx w.strm w.hnd w.addr 2 [] w.held = (.wait, s1)) (h1 : (s1.bobOf b).wslots = [w]) :
    State.weightFill.go b [w] s = s1.modBob b (fun y => { y with wslots := [{ w with held := s.holdTrans w.ctx w.addr 2 w.held }] }) := by
  rw [State.weightFill.go, hr]
  exact State.put_one _ h1

/-- A fill of which every sector is there ends (R173). -/
theorem State.fill_ends {s1 s2 : State} {hd v : Nat} (hr : s.ncRead b w.ctx w.strm w.hnd w.addr 2 [] w.held = (.bytes hd, s1)) (hok : netOk hd = true)
    (hv : s1.ncRead b w.ctx w.strm w.hnd w.addr (nSize hd) [] w.held = (.bytes v, s2)) (h1 : (s2.bobOf b).wslots = [w]) : State.weightFill.go b [w] s =
    (s2.modBob b (fun y => { y with wslots := [{ w with ready := true, data := v, size := nSize hd, secs := s2.sectorsOf w.ctx w.addr (nSize hd) w.held, bad := if weightsOk v then 0 else stFormat }] })).oInc (0x4280 + b) 5 := by
  rw [State.weightFill.go, hr]
  dsimp only
  rw [if_neg (by rw [hok]; decide), hv]
  exact congrArg (fun u : State => u.oInc (0x4280 + b) 5) (State.put_one _ h1)

/-- A bank's change of role. -/
def BobSt.otherRole (v : BobSt) (bank : Nat) : BobSt :=
  { v with pendBanks := setFld v.pendBanks bank 1 0, pqBanks := setFld v.pqBanks bank 1 (b2n (!bit v.pqBanks bank)), wslots := v.wslots.filter (fun w => w.bank != bank) }

theorem State.roleChange_due (hb : b < 48) (hbank : bank < 2) (hp : bit (s.bobOf b).pendBanks bank = true) (hq : bit (s.bobOf b).pqBanks bank = true) (hu : s.pqUse b bank = 0) :
    s.roleChange b bank = (s.modBob b (fun v => v.otherRole bank)).oInc (0x4280 + b) 8 := by
  unfold State.roleChange
  dsimp only
  rw [hq, hu]
  exact if_pos ⟨hb, hbank, hp, rfl⟩

theorem BobSt.otherRole_holds {v : BobSt} (hbank : bank < 2) (hq : bit v.pqBanks bank = true) : bit (v.otherRole bank).pqBanks bank = false ∧ bit (v.otherRole bank).pendBanks bank = false ∧
    (∀ y, y ∈ (v.otherRole bank).wslots → y.bank ≠ bank) ∧ bit (v.otherRole bank).pqBanks (1 - bank) = bit v.pqBanks (1 - bank) := by
  have role : (v.otherRole bank).pqBanks = setFld v.pqBanks bank 1 0 := by
    unfold BobSt.otherRole
    rw [hq]
    rfl
  have other : (1 - bank != bank) = true := bne_iff_ne.mpr (by omega)
  rw [role, bit_setFld_clear, bit_setFld_clear, other]
  refine ⟨by simp, (bit_setFld_clear _ _ _).trans (by simp), fun y hy => bne_iff_ne.mp (List.mem_filter.mp hy).2, by simp⟩

end

/-- Settles O45: what each of these commands leads to where its conditions hold. -/
theorem entriesAndBanks : Obligations.EntriesAndBanks := by
  unfold Obligations.EntriesAndBanks
  intro s b e k bank w hb he hr hn hc
  dsimp only
  have next : ∀ {i} {u v : State}, exec i s = .next u.settle → u = v → exec i s = .next v.settle := fun h e => e ▸ h
  refine ⟨fun hs ho hk => ⟨fun hp hf hi hu ha => ?_, fun h3 h4 hw hfit hbud => ?_, fun h3 h4 hw hd => ?_, fun hfit => ?_, fun hfit => ?_⟩, fun hs ho hp => ?_, fun h1 hw => ?_, fun hocc hop hwait hq hd => ?_, fun hbank hp hq hu _ _ => ?_⟩
  · exact ⟨_, next (i := .finishingWalk b e) rfl (State.finishingWalk_starts hb hr hn hc hs ho hk hp hf hi hu ha), State.finishing_holds _⟩
  · have parks := fun due => State.queryPark_due false hb hr hc hs ho hk h3 h4 hw due
    rw [hfit, hbud] at parks
    refine ⟨fun hpa hd => next (park_cmd he) ((parks (.inl hd)).trans ?_), fun hpa => next (park_cmd he) ((parks (.inr hpa)).trans ?_)⟩
    · dsimp only
      rw [hpa]
      rfl
    · dsimp only
      rw [hpa]
      rfl
  · refine ⟨fun hfit => next (park_cmd he) ((State.queryPark_due false hb hr hc hs ho hk h3 h4 hw (.inl hd)).trans ?_), next (park_bad he) (State.queryPark_due true hb hr hc hs ho hk h3 h4 hw (.inl hd))⟩
    rw [hfit]
    rfl
  · exact next rfl ((State.revert_due hb hr hs ho).trans (if_pos hfit))
  · exact next rfl ((State.revert_due hb hr hs ho).trans (if_neg (by rw [hfit]; decide)))
  · refine ⟨fun hfit => next rfl (State.completion_waits hb hr hc hs ho hp hfit), fun hfit y hy => ?_, fun hfit hy hsv => ?_, fun hfit hy sv hsv => ?_⟩ <;>
    obtain ⟨failed, done, answered⟩ := State.completion_ends hb hr hc hs ho hp hfit
    · exact next rfl (failed y hy)
    · exact next rfl (done hy hsv)
    · exact next rfl (answered hy sv hsv)
  · have one := State.weightFill_one hb hc h1 hw
    refine ⟨fun s1 hread hs1 => next rfl (one.trans (State.fill_waits hread hs1)), fun s1 s2 hdr v hread hok hv hs2 => ⟨_, next (i := .weightFill b) rfl (one.trans (State.fill_ends hread hok hv hs2)), ?_, State.o_oInc_same _ _ _⟩⟩
    rw [State.bobOf, State.oInc_bob, ← State.bobOf, State.bobOf_modBob]
  · refine ⟨_, congrArg Host.Outcome.next (State.bankPending_one hb hc hocc hop hwait hq hd), ?_⟩
    dsimp only
    rw [State.bobOf_modBob]
    exact ⟨congrArg (· + 2) hd, hq⟩
  · obtain ⟨role, pend, slots, other⟩ := BobSt.otherRole_holds hbank hq
    refine ⟨_, congrArg Host.Outcome.next (State.roleChange_due hb hbank hp hq hu), ?_⟩
    have changed : ((s.modBob b (fun v => v.otherRole bank)).oInc (0x4280 + b) 8).bobOf b = (s.bobOf b).otherRole bank := s.bobOf_modBob b (fun v => v.otherRole bank)
    dsimp only
    rw [changed]
    exact ⟨role, pend, slots, State.o_oInc_same _ _ _, other⟩

end Sys2Proof.Machine
end

section
/-! A tile in OFF holds nothing, and nothing but VDD_W changes it (R439, R440). -/

namespace Sys2Proof.Machine

/-! ## What a tile in OFF is

No clock runs, the supply is off and every store is empty. The lemmas below say for each unit's operation which of these it looks at first, so
that it changes nothing. -/

namespace State.off
variable {s : State}

theorem vddW (h : s.off) : s.pwr.vddW = false := (congrArg (fun t : State => t.pwr.vddW) h).symm
theorem pstate (h : s.off) : s.pstate = 0 := State.pstate_off h.vddW
theorem run (h : s.off) : s.run = false := by rw [State.run, h.pstate]; rfl
theorem live (h : s.off) : s.live = false := by rw [State.live, h.pstate]; rfl
theorem settling (h : s.off) : s.pwr.settling = false := (congrArg (fun t : State => t.pwr.settling) h).symm
theorem ring (h : s.off) : s.ring = {} := (congrArg State.ring h).symm
theorem due (h : s.off) : s.due = [] := (congrArg State.due h).symm
theorem ctx (h : s.off) : s.ctx = [] := (congrArg State.ctx h).symm
theorem strm (h : s.off) : s.strm = [] := (congrArg State.strm h).symm
theorem thr (h : s.off) : s.thr = [] := (congrArg State.thr h).symm
theorem hnd (h : s.off) : s.hnd = [] := (congrArg State.hnd h).symm
theorem rs (h : s.off) : s.rs = [] := (congrArg State.rs h).symm
theorem bob (h : s.off) : s.bob = [] := (congrArg State.bob h).symm
theorem tile (h : s.off) : s.tile = {} := (congrArg State.tile h).symm

theorem ent (h : s.off) (b e : Nat) : s.ent b e = {} := by rw [State.ent, h.rs]; rfl
theorem st (h : s.off) (c j : Nat) : s.st c j = {} := by rw [State.st, h.strm]; rfl
theorem ctxOf (h : s.off) (c : Nat) : s.ctxOf c = {} := by rw [State.ctxOf, h.ctx]; rfl
theorem hndOf (h : s.off) (k : Nat) : s.hndOf k = {} := by rw [State.hndOf, h.hnd]; rfl
theorem bobOf (h : s.off) (b : Nat) : s.bobOf b = {} := by rw [State.bobOf, h.bob]; rfl
theorem thrOf (h : s.off) (k : Nat) : s.thrOf k = {} := by rw [State.thrOf, h.thr]; rfl
theorem bobRuns (h : s.off) (b : Nat) : s.bobRuns b = false := by rw [State.bobRuns, h.live]; rfl
theorem still (h : s.off) : s.still = true := by
  unfold State.still
  rw [h.due, h.tile, h.hnd, h.strm, h.ring]
  rfl
theorem settle (h : s.off) : s.settle = s := (s.still_iff.mp h.still).settle

/-! ## Ports, host writes and seam frames (R338 to R366) -/

theorem portUp (h : s.off) (p : Nat) : s.portUp p = false := by simp [State.portUp, h.live]
theorem cpldIn (h : s.off) (p n m : Nat) : s.cpldIn p n m = s := by simp [State.cpldIn, h.portUp]
theorem cplIn (h : s.off) (p n : Nat) : s.cplIn p n = s := by simp [State.cplIn, h.portUp]
theorem cplTimeout (h : s.off) (p : Nat) (w : Bool) (n : Nat) : s.cplTimeout p w n = s := by simp [State.cplTimeout, h.live]
theorem laneFault (h : s.off) (p m : Nat) : s.laneFault p m = s := by simp [State.laneFault, h.live]
theorem retrainDone (h : s.off) (p : Nat) : s.retrainDone p = s := by simp [State.retrainDone, h.live]
theorem retrainTimeout (h : s.off) (p m : Nat) : s.retrainTimeout p m = s := by simp [State.retrainTimeout, h.live]
theorem migrateSend (h : s.off) (k : Nat) : s.migrateSend k = s := by simp [State.migrateSend, h.run]
theorem migTimeout (h : s.off) (e : Nat) : s.migTimeout e = s := by simp [State.migTimeout, h.live]
theorem migBackoff (h : s.off) (e : Nat) : s.migBackoff e = s := by simp [State.migBackoff, h.run]

/-! ## Objects and the Bodkin commands (R13, R269, R347, R413) -/

theorem bdkApply (h : s.off) (c : Nat) (f : Nat → Bool) : s.bdkApply c f = s := by simp [State.bdkApply, h.ctxOf]
theorem operWrite (h : s.off) (i j n v : Nat) : s.operWrite i j n v = s := by simp [State.operWrite, h.pstate]

/-! ## The Pyrlen ring (R400 to R425) -/

theorem frameIn (h : s.off) (f : RingFrame) (own : Option (State → State)) : s.frameIn f own = s := by simp [State.frameIn, h.vddW]
theorem frameDiscard (h : s.off) (why : RxFault) : s.frameDiscard why = s := by simp [State.frameDiscard, h.vddW]
theorem announce (h : s.off) : s.announce = s := by simp [State.announce, h.vddW]
theorem evtResend (h : s.off) : s.evtResend = s := by simp [State.evtResend, h.vddW]
theorem bypassGo (h : s.off) : s.bypassGo = s := by simp [State.bypassGo, h.vddW]
theorem domainTimeout (h : s.off) (i j : Nat) : s.domainTimeout i j = s := by
  unfold State.domainTimeout State.modRing
  rw [h.ring]
  exact congrArg (fun r => { s with ring := r }) h.ring.symm

theorem peerTimeout (h : s.off) (svc : Svc) : s.peerTimeout svc = s := by
  unfold State.peerTimeout
  cases svc <;> simp [h.ring]

/-! ## Power, clocks and ageing (R439 to R460) -/

theorem quiesce (h : s.off) : s.quiesce = s := by simp [State.quiesce, h.pstate]
theorem sleepEntry (h : s.off) : s.sleepEntry = s := by simp [State.sleepEntry, h.pstate]
theorem wakeGo (h : s.off) : s.wakeGo = s := by simp [State.wakeGo, h.pstate]
theorem consolidate (h : s.off) : s.consolidate = s := by simp [State.consolidate, h.live]
theorem thermal (h : s.off) (tj : Int) : s.thermal tj = s := by simp [State.thermal, h.pstate]
theorem probeReading (h : s.off) (su : List (Nat × Nat)) : s.probeReading su = s := by simp [State.probeReading, h.pstate]
theorem settled (h : s.off) : s.settled = s := by
  unfold State.settled
  rw [if_neg (by rw [h.settling]; decide)]

theorem clkStep (h : s.off) : s.clkStep = s := by simp [State.clkStep, h.live]
theorem logUpdate (h : s.off) : s.logUpdate = s := by simp [State.logUpdate, h.pstate]
theorem partAuto (h : s.off) : s.partAuto = s := by simp [State.partAuto, h.run]
theorem interval (h : s.off) : s.interval = s := by simp [State.interval, h.tile]
theorem schemeDecision (h : s.off) : s.schemeDecision = s := by simp [State.schemeDecision, h.tile]
theorem abortComplete (h : s.off) (k : Nat) : s.abortComplete k = s := by simp [State.abortComplete, h.live]
theorem releaseDone (h : s.off) (c : Nat) : s.releaseDone c = s := by simp [State.releaseDone, h.live]
theorem tapRow (h : s.off) (n : Nat) : s.tapRow n = s := by simp [State.tapRow, h.vddW]

/-! ## Tile operations that end (R98, R220, R301) -/

theorem refitHeld (h : s.off) (k : Nat) : s.refitHeld k = s := by simp [State.refitHeld, h.hndOf]
theorem imgWrite (h : s.off) : s.imgWrite = s := by simp [State.imgWrite, h.live]
theorem partDone (h : s.off) : s.partDone = s := by simp [State.partDone, h.tile]

/-! ## The Pleater (R180 to R201) -/

theorem fetch (h : s.off) : s.fetch = s := State.fetch_none fun c _ j _ => by simp [State.fetchable, h.run]
theorem admission (h : s.off) (c j : Nat) : s.admission c j = s := by simp [State.admission, h.run]
theorem genBegin (h : s.off) (c j : Nat) : s.genBegin c j = s := by simp [State.genBegin, h.run]
theorem generate (h : s.off) : s.generate = s := by simp [State.generate, h.run]
theorem contStart (h : s.off) (k : Nat) : s.contStart k = s := by simp [State.contStart, h.live]
theorem ripen (h : s.off) (i : Nat) : s.ripen i = s := if_pos (.inl (by simp [State.binOf, h.tile, tget]))
theorem release (h : s.off) : s.release = s := by simp [State.release, h.run]
theorem cl0Release (h : s.off) : s.cl0Release = s := by
  have load : s.cl0Load = (s, true) := by simp [State.cl0Load, State.cl0Head, h.tile]
  rw [State.cl0Release, load]

theorem spill (h : s.off) : s.spill = s := by
  unfold State.spill
  simp only [h.run, Bool.not_false, Bool.true_or, if_true]
  exact congrArg (fun t => { s with tile := t }) ((congrArg (fun t => { t with spilling := false }) h.tile).trans h.tile.symm)

theorem reload (h : s.off) : s.reload = s := by
  have urgent : firstIdx 64 (fun c => !(s.ctxOf c).reloading && s.spillUrgent c) = none := List.find?_eq_none.mpr fun c _ => by simp [State.spillUrgent, h.ctxOf]
  have spilled : firstIdx 64 (fun c => !(s.ctxOf c).spill.isEmpty) = none := List.find?_eq_none.mpr fun c _ => by simp [h.ctxOf]
  unfold State.reload
  dsimp only
  rw [urgent, spilled]

/-! ## The Bobbins (R103 to R179, R197, R374) -/

theorem pick (h : s.off) (b n : Nat) : s.pick b n = (s, none) := by simp [State.pick, h.run]
theorem needleOp (h : s.off) (b n : Nat) (chk : Chk) (kind : Nat) (ty : Nat → Bool) (f : State → Nat → Nat → State) : s.needleOp b n chk kind ty f = s := by simp [State.needleOp, State.pickOf, h.pick]
theorem unitOp (h : s.off) (b n : Nat) (chk : Chk) (kind : Nat) (f : State → State) : s.unitOp b n chk kind f = s := by simp [State.unitOp, h.bobRuns]
theorem weightFill (h : s.off) (b : Nat) : s.weightFill b = s := by simp [State.weightFill, h.bobRuns]
theorem bankPending (h : s.off) (b : Nat) : s.bankPending b = s := by simp [State.bankPending, h.bobRuns]
theorem roleChange (h : s.off) (b n : Nat) : s.roleChange b n = s := by
  unfold State.roleChange
  simp [h.bobOf, bit]

theorem finishingWalk (h : s.off) (b e : Nat) : s.finishingWalk b e = s := by simp [State.finishingWalk, h.ent]
theorem queryPark (h : s.off) (b e : Nat) (bad : Bool) : s.queryPark b e bad = s := by simp [State.queryPark, h.ent]
theorem completion (h : s.off) (b e : Nat) : s.completion b e = s := by simp [State.completion, h.ent]
theorem revert (h : s.off) (b e : Nat) : s.revert b e = s := by simp [State.revert, h.ent]
theorem basteHandoff (h : s.off) (b : Nat) : s.basteHandoff b = s := by simp [State.basteHandoff, h.bobRuns]
theorem withdrawDone (h : s.off) (b : Nat) : s.withdrawDone b = s := by simp [State.withdrawDone, h.bobOf]
theorem cutoff (h : s.off) (b : Nat) : s.cutoff b = s := by simp [State.cutoff, h.bobOf]

/-! ## The Baste engines (R228 to R240) -/

theorem bstBudget (h : s.off) (b g : Nat) : s.bstBudget b g = s := by simp [State.bstBudget, h.bobRuns]
theorem bstWord (h : s.off) (b g : Nat) : s.bstWord b g = none := by simp [State.bstWord, h.bobRuns]
theorem bstIllegal (h : s.off) (b g : Nat) : s.bstIllegal b g = s := by simp [State.bstIllegal, h.bstWord]
theorem bstOne (h : s.off) (b g : Nat) (chk : Chk) (n : Nat) (f : Op) : s.bstOne b g chk n f = s := by
  unfold State.bstOne State.bstInstr
  rw [h.bstWord]

/-! ## The Hem and the Bodkin (R43, R251 to R259, R277 to R284) -/

theorem ringEntryWrite (h : s.off) (c j : Nat) : s.ringEntryWrite c j = s := by simp [State.ringEntryWrite, h.run]
theorem slotFillOpen (h : s.off) (c j : Nat) : s.slotFillOpen c j = s := by simp [State.slotFillOpen, h.run]
theorem flushFill (h : s.off) (c j : Nat) : s.flushFill c j = s := by simp [State.flushFill, h.st]
theorem headWb (h : s.off) (c j : Nat) : s.headWb c j = s := by simp [State.headWb, h.run]
theorem resWb (h : s.off) (c j : Nat) : s.resWb c j = s := by simp [State.resWb, h.run]
theorem operand (h : s.off) : s.operand = s := by simp [State.operand, h.tile]
theorem dispatchOne (h : s.off) : s.dispatchOne = s := by simp [State.dispatchOne, h.run]
theorem affWait (h : s.off) (k : Nat) : s.affWait k = s := by
  unfold State.affWait State.offerable
  simp [h.thrOf]

theorem ageLimit (h : s.off) (k : Nat) : s.ageLimit k = s := by simp [State.ageLimit, h.thrOf]
theorem ackLate (h : s.off) (k : Nat) : s.ackLate k = s := by simp [State.ackLate, h.thrOf]

/-! ## Recovery and scrubbing (R328, R371 to R381) -/

theorem reissue (h : s.off) (k : Nat) : s.reissue k = s := by simp [State.reissue, h.run]
theorem mendRetry (h : s.off) (n : Nat) : s.mendRetry n = s := by simp [State.mendRetry, h.tile]
theorem mismatchInterval (h : s.off) : s.mismatchInterval = s := congrArg (fun t => { s with tile := t }) ((congrArg (fun t => { t with mism := [] }) h.tile).trans h.tile.symm)
theorem scrub (h : s.off) (k : Nat) (o : ScrubOutcome) : s.scrub k o = s := by simp [State.scrub, h.live]

/-! ## Rows that share a meaning -/

theorem hwrIn (h : s.off) (i : Instr) : s.hwrIn i = s := by
  unfold State.hwrIn
  split
  · simp [State.hwr, h.pstate, h.live]
  · rfl

theorem bdkRow (h : s.off) (i : Instr) (c : Nat) (w : Option BdkWords) (f : Nat → Bool) : s.bdkRow i c w f = s := by
  cases w with
  | none => exact h.bdkApply c f
  | some x => exact (congrArg (fun t : State => t.bdkApply c f) (h.hwrIn i)).trans (h.bdkApply c f)

theorem ctxObj (h : s.off) (c a i n v : Nat) : s.ctxObj c a i n v = s := by
  unfold State.ctxObj
  rw [h.operWrite, ite_self]

theorem mtRow (h : s.off) (n : Nat) : s.mtRow n = s := by
  unfold State.mtRow
  rw [h.operWrite, ite_self]

theorem resBit (h : s.off) (c j n : Nat) : s.resBit c j n = s := by
  unfold State.resBit
  rw [h.ctxObj, ite_self]

theorem seamRow (h : s.off) (p : Nat) (i : Instr) : s.seamRow p i = s := by simp [State.seamRow, State.seamRx, h.pstate, h.live]

theorem ringRow (h : s.off) (f : RingFrame) (ty : BitVec 8) (own : Option (State → State)) : s.ringRow f ty own = s := by
  unfold State.ringRow
  rw [h.frameIn, ite_self]

theorem bstStep (h : s.off) (b g : Nat) (chk : Chk) (n : Nat) (f : Op) : s.bstStep b g chk n f = s := by
  unfold State.bstStep
  rw [h.bstOne]
  exact if_pos rfl

/-! ## The pins -/

/-- The pins, the test port and the supply alone are left. -/
theorem pwr (h : s.off) : s.pwr = { vddW := false, pwrok := s.pwr.pwrok, rstN := s.pwr.rstN, tap := s.pwr.tap, tapData := s.pwr.tapData, tapBoundary := s.pwr.tapBoundary } := (congrArg State.pwr h).symm

theorem withPwr {p : PowerSt} (h : s.off) (hp : { vddW := false, pwrok := p.pwrok, rstN := p.rstN, tap := p.tap, tapData := p.tapData, tapBoundary := p.tapBoundary } = p) : State.off { s with pwr := p } := by
  have kept : State.vddOff { s with pwr := p } = { s.vddOff with pwr := { vddW := false, pwrok := p.pwrok, rstN := p.rstN, tap := p.tap, tapData := p.tapData, tapBoundary := p.tapBoundary } } := rfl
  unfold State.off
  rw [kept, h, hp]

theorem withRstN (h : s.off) (x : Bool) : State.off { s with pwr := { s.pwr with rstN := x } } := h.withPwr (congrArg (fun p : PowerSt => { p with rstN := x }) h.pwr).symm

theorem pwrokRise (h : s.off) (env : StartEnv) : (s.pwrokRise env).off := by
  have pin : s.pwrokRise env = { s with pwr := { s.pwr with pwrok := true } } := if_neg (by simp [State.modPwr, h.vddW])
  rw [pin]
  exact h.withPwr (congrArg (fun p : PowerSt => { p with pwrok := true }) h.pwr).symm

theorem pwrokFall (h : s.off) : s.pwrokFall.off := by
  have pin : s.pwrokFall = { s with pwr := { s.pwr with pwrok := false, pwrokFell := true } } := if_pos (by rw [h.vddW]; rfl)
  rw [pin]
  exact h.withPwr (congrArg (fun p : PowerSt => { p with pwrok := false, pwrokFell := true }) h.pwr).symm

theorem rstDeassert (h : s.off) (env : StartEnv) : (s.rstDeassert env).off := by
  have pin : s.rstDeassert env = { s with pwr := { s.pwr with rstN := true } } := if_neg (by simp [State.modPwr, h.vddW])
  rw [pin]
  exact h.withRstN true

theorem rstAssert (h : s.off) : s.rstAssert.off := by
  have pin : s.rstAssert = { s with pwr := { s.pwr with rstN := false } } := if_pos (by rw [h.vddW]; rfl)
  rw [pin]
  exact h.withRstN false

/-! ## Steps -/

theorem same {u : State} (h : s.off) (e : u = s) : u.off := by rwa [e]
theorem settled_same {u : State} (h : s.off) (e : u = s) : u.settle.off := by
  rw [e, h.settle]
  exact h

theorem then_settle {u : State} (h : u.off) : u.settle.off := h.settled_same rfl

theorem cycle (h : s.off) : s.cycle.off := by
  unfold State.off
  exact congrArg (fun t : State => { t with clkF := s.clkF + 1 }) h

theorem pending (h : s.off) (l : List Instr) : State.off { s with pending := l } := by
  unfold State.off
  exact congrArg (fun t : State => { t with pending := l }) h

end State.off

/-- No command but VDD_W_ON changes more of a tile in OFF than its pins. -/
theorem exec_off {i : Instr} {s : State} (h : s.off) (hi : i ≠ .vddWOn) : ∃ t, exec i s = .next t ∧ t.off := by
  cases i with
  | vddWOn => exact absurd rfl hi
  | vddWOff => exact ⟨_, rfl, rfl⟩
  | pwrokRise => exact ⟨_, rfl, (h.pwrokRise _).then_settle⟩
  | pwrokFall => exact ⟨_, rfl, h.pwrokFall⟩
  | rstNAssert => exact ⟨_, rfl, h.rstAssert⟩
  | rstNDeassert => exact ⟨_, rfl, (h.rstDeassert _).then_settle⟩
  | objectWrite w =>
    cases w with
    | dict _ _ _ _ => exact ⟨_, rfl, h.settled_same (h.operWrite _ _ _ _)⟩
    | window _ _ _ _ => exact ⟨_, rfl, h.settled_same (h.hwrIn _)⟩
  | bstNop | bstLoad | bstStore | bstLoadhi | bstLoadx | bstStorex | bstLoady | bstStorey | bstLoadct | bstStorect | bstMovax | bstMovxa | bstMovay
  | bstMovya | bstMovact | bstMovcta | bstAddx | bstAddy | bstAddct | bstAdd | bstAddcy | bstSub | bstSubcy | bstCmp | bstAnd | bstOr | bstXor
  | bstMul | bstMulh | bstMulhu | bstDiv | bstDivu | bstRem | bstRemu | bstNeg | bstShl | bstShr | bstSar | bstRol | bstRor | bstMin | bstMax
  | bstAbs | bstNot | bstFadd | bstFsub | bstFmul | bstFdiv | bstFsqrt | bstFcmp | bstFmin | bstFmax | bstFneg | bstFabs | bstFtoi | bstItof | bstBr
  | bstCall | bstRet | bstDbnz | bstRep | bstEnd | bstFault | bstRtt | bstTrap | bstClf => exact ⟨_, rfl, h.same (h.bstStep _ _ _ _ _)⟩
  | unlock | ringRst | sleep | wake | hold | resetCmd | abortContext | abortAll | imgLoad | apply | shift | readmit | stage | cacheEnable =>
    exact ⟨_, rfl, h.settled_same (h.operWrite _ _ _ _)⟩
  | doorbell | rcons | scred | bcred | dcred | mbRead | mbWrite | mbReservedOp => exact ⟨_, rfl, h.settled_same (h.hwrIn _)⟩
  | cancel | idxLoad | drop | refitBegin | refitEnd | contextEnable | bdkEnable | quotaWrite => exact ⟨_, rfl, h.settled_same (h.ctxObj _ _ _ _ _)⟩
  | spawn | expect | ack | bdkCancel | post | discard | bdkReservedCode => exact ⟨_, rfl, h.settled_same (h.bdkRow _ _ _ _)⟩
  | migrate | migvec | result | recs | maint | maintAck | credit => exact ⟨_, rfl, h.settled_same (h.seamRow _ _)⟩
  | clean | invalidate | cleanInvalidate | lock | lockIndex | mtUnlock => exact ⟨_, rfl, h.settled_same (h.mtRow _)⟩
  | tapExtest | tapClamp | tapHighz => exact ⟨_, rfl, h.same (h.tapRow _)⟩
  | tapBypass => exact ⟨_, rfl, h.settled_same (h.tapRow _)⟩
  | tapIdcode | tapSamplePreload => exact ⟨_, rfl, h.settled_same (if_neg (by rw [h.vddW]; decide))⟩
  | needleClockStop | bobbinClockStop | idleGating | bobbinGate => exact ⟨_, rfl, h.same (if_neg (by rw [h.live]; simp))⟩
  | bobbinWake | clockStoppedWake => exact ⟨_, rfl, h.settled_same (if_neg (by rw [h.live]; simp))⟩
  | coldStart | warmStart | evtAck => exact ⟨_, rfl, h.same (if_pos h.pstate)⟩
  | redir | rfault => exact ⟨_, rfl, h.settled_same (h.resBit _ _ _)⟩
  | ringEnum | ringRead | ringResp => exact ⟨_, rfl, h.settled_same (h.ringRow _ _ _)⟩
  | ringWrite => exact ⟨_, rfl, h.settled_same (by rw [h.ringRow, ite_self])⟩
  | ringMembers => exact ⟨_, rfl, h.settled_same (by rw [h.ringRow, ite_self])⟩
  | relay => exact ⟨_, rfl, h.same (by rw [h.frameIn, ite_self])⟩
  | ringReset => exact ⟨_, rfl, h.same (if_neg (by rw [h.vddW]; simp))⟩
  | autoSleep => exact ⟨_, rfl, h.same (if_neg (by rw [h.run]; simp))⟩
  | causeClear => exact ⟨_, rfl, h.same (by rw [h.operWrite, h.settle, ite_self])⟩
  | pinExtend | maintDone => exact ⟨_, rfl, h.settled_same (if_neg (by rw [h.live]; simp))⟩
  | streamEnable => exact ⟨_, rfl, h.settled_same (by rw [h.ctxObj, ite_self])⟩
  | endpointEnable => exact ⟨_, rfl, h.settled_same (by rw [h.operWrite, ite_self])⟩
  | cpld => exact ⟨_, rfl, h.settled_same (h.cpldIn _ _ _)⟩
  | cpl => exact ⟨_, rfl, h.settled_same (h.cplIn _ _)⟩
  | cplTimeout => exact ⟨_, rfl, h.settled_same (h.cplTimeout _ _ _)⟩
  | laneFault => exact ⟨_, rfl, h.settled_same (h.laneFault _ _)⟩
  | retrainDone => exact ⟨_, rfl, h.settled_same (h.retrainDone _)⟩
  | retrainTimeout => exact ⟨_, rfl, h.settled_same (h.retrainTimeout _ _)⟩
  | migrateSend => exact ⟨_, rfl, h.settled_same (h.migrateSend _)⟩
  | migTimeout => exact ⟨_, rfl, h.settled_same (h.migTimeout _)⟩
  | migBackoff => exact ⟨_, rfl, h.settled_same (h.migBackoff _)⟩
  | frameDiscard => exact ⟨_, rfl, h.same (h.frameDiscard _)⟩
  | announce => exact ⟨_, rfl, h.same h.announce⟩
  | evtResend => exact ⟨_, rfl, h.same h.evtResend⟩
  | bypassOpen => exact ⟨_, rfl, h.same h.bypassGo⟩
  | domainWriteTimeout => exact ⟨_, rfl, h.same (h.domainTimeout _ _)⟩
  | peerTimeout => exact ⟨_, rfl, h.settled_same (h.peerTimeout _)⟩
  | quiesceDone => exact ⟨_, rfl, h.settled_same h.quiesce⟩
  | sleepEntry => exact ⟨_, rfl, h.same h.sleepEntry⟩
  | wakeDone => exact ⟨_, rfl, h.settled_same h.wakeGo⟩
  | consolidation => exact ⟨_, rfl, h.same h.consolidate⟩
  | thermalReading => exact ⟨_, rfl, h.same (h.thermal _)⟩
  | probeReading => exact ⟨_, rfl, h.settled_same (h.probeReading _)⟩
  | vsettle => exact ⟨_, rfl, h.settled_same h.settled⟩
  | clkAStep => exact ⟨_, rfl, h.settled_same h.clkStep⟩
  | logUpdate => exact ⟨_, rfl, h.same h.logUpdate⟩
  | partAuto => exact ⟨_, rfl, h.settled_same h.partAuto⟩
  | interval => exact ⟨_, rfl, h.same h.interval⟩
  | schemeDecision => exact ⟨_, rfl, h.same h.schemeDecision⟩
  | abortComplete => exact ⟨_, rfl, h.settled_same (h.abortComplete _)⟩
  | releaseDone => exact ⟨_, rfl, h.settled_same (h.releaseDone _)⟩
  | refitHeld => exact ⟨_, rfl, h.settled_same (h.refitHeld _)⟩
  | imgWrite => exact ⟨_, rfl, h.settled_same h.imgWrite⟩
  | partDone => exact ⟨_, rfl, h.settled_same h.partDone⟩
  | fetch => exact ⟨_, rfl, h.settled_same h.fetch⟩
  | admission => exact ⟨_, rfl, h.settled_same (h.admission _ _)⟩
  | genBegin => exact ⟨_, rfl, h.settled_same (h.genBegin _ _)⟩
  | generate => exact ⟨_, rfl, h.settled_same h.generate⟩
  | contBuild => exact ⟨_, rfl, h.settled_same (h.contStart _)⟩
  | binRipe => exact ⟨_, rfl, h.same (h.ripen _)⟩
  | release => exact ⟨_, rfl, h.settled_same h.release⟩
  | cl0Release => exact ⟨_, rfl, h.settled_same h.cl0Release⟩
  | boxVisit | instanceVisit | leafHandoff | metricVisit => exact ⟨_, rfl, h.settled_same (h.needleOp _ _ _ _ _ _)⟩
  | intersectorResult | leafArrayResult => exact ⟨_, rfl, h.settled_same (h.unitOp _ _ _ _ _)⟩
  | weightFill => exact ⟨_, rfl, h.settled_same (h.weightFill _)⟩
  | bankPending => exact ⟨_, rfl, h.same (h.bankPending _)⟩
  | roleChange => exact ⟨_, rfl, h.same (h.roleChange _ _)⟩
  | finishingWalk => exact ⟨_, rfl, h.settled_same (h.finishingWalk _ _)⟩
  | queryPark => exact ⟨_, rfl, h.settled_same (h.queryPark _ _ _)⟩
  | completion => exact ⟨_, rfl, h.settled_same (h.completion _ _)⟩
  | ringEntryWrite => exact ⟨_, rfl, h.settled_same (h.ringEntryWrite _ _)⟩
  | slotFillOpen => exact ⟨_, rfl, h.settled_same (h.slotFillOpen _ _)⟩
  | flush => exact ⟨_, rfl, h.settled_same (h.flushFill _ _)⟩
  | headWb => exact ⟨_, rfl, h.settled_same (h.headWb _ _)⟩
  | resWb => exact ⟨_, rfl, h.settled_same (h.resWb _ _)⟩
  | operand => exact ⟨_, rfl, h.settled_same h.operand⟩
  | dispatch => exact ⟨_, rfl, h.settled_same h.dispatchOne⟩
  | affWait => exact ⟨_, rfl, h.same (h.affWait _)⟩
  | ageLimit => exact ⟨_, rfl, h.same (h.ageLimit _)⟩
  | ackLate => exact ⟨_, rfl, h.same (h.ackLate _)⟩
  | spill => exact ⟨_, rfl, h.settled_same h.spill⟩
  | reload => exact ⟨_, rfl, h.settled_same h.reload⟩
  | revert => exact ⟨_, rfl, h.settled_same (h.revert _ _)⟩
  | reissue => exact ⟨_, rfl, h.settled_same (h.reissue _)⟩
  | mendRetry => exact ⟨_, rfl, h.settled_same (h.mendRetry _)⟩
  | withdrawDone => exact ⟨_, rfl, h.settled_same (h.withdrawDone _)⟩
  | cutoff => exact ⟨_, rfl, h.settled_same (h.cutoff _)⟩
  | mismatchInterval => exact ⟨_, rfl, h.same h.mismatchInterval⟩
  | scrub => exact ⟨_, rfl, h.settled_same (h.scrub _ _)⟩
  | basteHandoff => exact ⟨_, rfl, h.settled_same (h.basteHandoff _)⟩
  | budget => exact ⟨_, rfl, h.settled_same (h.bstBudget _ _)⟩
  | illegal => exact ⟨_, rfl, h.settled_same (h.bstIllegal _ _)⟩

/-- Settles O5: in OFF every store is empty and no clock runs, so that every command but VDD_W_ON finds nothing to do. -/
theorem offIsLeftByVddWOnAlone : Obligations.OffIsLeftByVddWOnAlone := by
  unfold Obligations.OffIsLeftByVddWOnAlone
  intro s t h hi hs
  have stays : t.off := by
    unfold step at hs
    split at hs
    · cases hs
      exact h.cycle
    · next i rest e =>
      obtain ⟨u, hu, off⟩ := exec_off (i := i) (h.pending rest) fun hv => hi (by rw [e, hv]; rfl)
      cases hu.symm.trans hs
      exact off
  exact ⟨stays, stays.pstate⟩

end Sys2Proof.Machine
end
